-- ==== Sys2Proof/Word.lean ====
section
/-!
DEFINITION. The words of the M9600: the 64-bit words of Brofer registers and addresses, the 32-bit words of the
register blocks, bytes, and the sorted lists of key and value pairs in which the model keeps sparse storage.
-/

namespace Sys2Proof

/-- A 64-bit word: a Brofer register, an address, a counter. -/
abbrev Word := BitVec 64

/-- A 32-bit register of a register block (R7). -/
abbrev Reg32 := BitVec 32

/-- One byte. -/
abbrev Byte := BitVec 8

/-- Sparse storage: pairs of a key and a value, keys strictly rising. -/
abbrev SMap (α : Type) := List (Nat × α)

end Sys2Proof
end

