-- ==== Sys2Proof/Syntax.lean ====
section
/-!
DEFINITION. The commands the M9600 takes, as data: one constructor of `Instr` per row of the opcode table, with the
row's operands. A command is a register access of a host function, a Brofer instruction of a named thread or core, a
message or signal arriving from outside, or an internal event whose instant the spec leaves to the hardware.
-/

namespace Sys2Proof

/-- A general register of a Brofer core (R184). -/
abbrev GReg := Fin 32

/-- What executes Brofer instructions: a Causeway thread or a Reed core. -/
inductive CoreId where
  | thread (t : Fin 16)
  | reed (n : Fin 32)
  deriving DecidableEq, Repr

/-- What host memory answers to a read of the M9600. It is used only where the read goes to the host window. -/
inductive HostReply where
  | data (bytes : List Byte)
  | failed
  deriving DecidableEq, Repr

/-- What a function's configuration space holds beside Bus Master Enable and the power state (R246, R262): the maximum payload is
2^(7 + payload) bytes and the maximum read request 2^(7 + readRequest) bytes. -/
structure FnConfig where
  payload : Fin 3
  readRequest : Fin 6
  /-- 10-Bit Tag Requester Enable -/
  tag10 : Bool
  ecrcGenerate : Bool
  ecrcCheck : Bool
  /-- the completion timeout's range, and whether it is disabled -/
  timeoutRange : Fin 16
  timeoutOff : Bool
  /-- the Function Mask of MSI-X -/
  masked : Bool
  deriving DecidableEq, Repr

/-- Why a function is disabled (R263, R249): its Bus Master Enable bit or PCI.FNCTL.EN. -/
inductive DisableCause where
  | busMaster
  | fnctl
  deriving DecidableEq, Repr

/-- What enables a function: a configuration write that sets Bus Master Enable, with the rest of what the host has configured, or
PCI.FNCTL.EN. -/
inductive EnableCause where
  | busMaster (config : FnConfig)
  | fnctl
  deriving DecidableEq, Repr


/-- The matching key of an operation in a pair (R303): queue, QSEQ, sub-operation and ordinal among the operations of that
sub-operation which the entry's program has issued. -/
structure TwinKey where
  queue : Nat
  qseq : Nat
  sub : Nat
  ordinal : Nat
  deriving DecidableEq, Repr

/-- A stream entry of an ACK (Table: ACK payload): head slot, whether it is the control stream, HELD and DONE. -/
structure PointEntry where
  slot : Nat
  ctrl : Bool
  held : Nat
  done : Nat
  deriving DecidableEq, Repr

/-- A report entry of an ACK (Table: report entry). -/
structure ReportEntry where
  code : Nat
  slot : Nat
  seq : Nat
  detail : Nat
  count : Nat
  deriving DecidableEq, Repr

/-- A 64b/66b block of a lane: its sync header and its 64 payload bits (R131). -/
structure LinkBlock where
  sync : BitVec 2
  payload : Word
  deriving DecidableEq, Repr

/-- What a lane has received: its blocks, after 58 given bits that the descrambler has taken before (R131). -/
structure LaneBlocks where
  lane : Fin 48
  before : BitVec 58
  blocks : List LinkBlock
  deriving DecidableEq, Repr

/-- A waiting update of the Hummock map as a join delivers it: channel, Ge, first nozzle, nozzles, and the parts it sets. -/
structure UpdateCopy where
  ch : Nat
  ge : Nat
  a : Nat
  n : Nat
  state : Option Nat
  gclass : Option Nat
  lock : Option Nat
  deriving DecidableEq, Repr

/-- One part of a STATE_COPY (Table: joining a printing partner). -/
inductive CopyPart where
  /-- a group's NEXTFSN and OLDEST -/
  | group (g nextfsn oldest : Nat)
  /-- one ledger slot, as a ledger record -/
  | slot (record : List Byte)
  /-- bytes of the Hummock map and of the NOZZLE records, by offset; what no part names is 0 -/
  | map (cells : List (Nat × Byte))
  | records (cells : List (Nat × Byte))
  | update (u : UpdateCopy)
  /-- a pending bank: channel, bank and line -/
  | bank (ch bank line : Nat)
  /-- the first QSEQ the joiner runs on a queue -/
  | joinq (q qseq : Nat)
  deriving DecidableEq, Repr

/-- What discovery and configuration of a camera come to (R164). -/
inductive CameraStart where
  | ok
  | discovery
  | refused
  deriving DecidableEq, Repr

/-- An image as a camera sends it (R162): what its header says, whether every stream packet has a good CRC, and the lines that
came, each as raw bytes. -/
structure CameraPicture where
  width : Nat
  format : Nat
  height : Nat
  crcOk : Bool
  lines : List (List Byte)
  deriving DecidableEq, Repr

/-- The requester of an outstanding PCIe read: a BLOAD, by band handle and offset, a core's host-window load, or the fetch of a
queue's program block. -/
inductive ReadOwner where
  | band (handle off : Nat)
  | load (c : CoreId)
  | program (q : Fin 64)
  deriving DecidableEq, Repr

/-- What a read of an ECC word finds (R326, R327). -/
inductive EccFind where
  | clean
  | corrected
  | uncorrectable
  deriving DecidableEq, Repr

/-- A step of a domain's wake (R413 to R415): a request reaches it, before or after isolation has engaged where it is
entering OFF; or the wake is over. -/
inductive WakeStep where
  | request (isolated : Bool)
  | ready
  deriving DecidableEq, Repr

/-- The wake sources of R417 that no other command brings: a management I2C address match, an edge on HB_RX, PE_CLKREQ_N. -/
inductive WakeSource where
  | i2c | heartbeat | clkreq
  deriving DecidableEq, Repr

/-- A management I2C transaction (R460): a write of an offset with or without data, or a read. -/
inductive I2cOp where
  | write (offset : Reg32) (data : Option Reg32)
  | read
  deriving DecidableEq, Repr

/-- The commands of the M9600, one constructor per row of the opcode table, in its order. -/
inductive Instr where
  | regWrite (f : Fin 8) (off : Nat) (v : Reg32)
  | rcRead (f : Fin 8) (off : Nat)
  | pairHiWrite (f : Fin 8) (off : Nat) (v : Reg32)
  | pairLoRead (f : Fin 8) (off : Nat)
  | unsupportedRequest (f : Fin 8) (write : Bool) (off len : Nat)
  | profileConfirm (f : Fin 8) (v : Reg32) (vdd : Nat)
  | htidxWrite (f : Fin 8) (v : Reg32)
  | htidxRead (f : Fin 8) (v : Reg32)
  | geoValidateStart (f : Fin 8) (v : Reg32)
  | geoValidationEnd
  | bload (c : CoreId) (rd ra rb : GReg) (reply : HostReply)
  | bloadWaitServed
  | pcieReadCompletion (band off : Nat) (reply : HostReply)
  | bloadComplete (band : Nat)
  | mireLock (f : Fin 8) (v : Reg32)
  | mireLockEnd
  | mireUnlock (f : Fin 8) (v : Reg32)
  | bandReleasedReport (f : Fin 8)
  | inflateLine (e : Fin 16)
  | inflateJobResume (e : Fin 16)
  | bandRefetchDone (band : Nat) (reply : HostReply)
  | bandBlockSwap (band : Nat)
  | sluiceJobComplete (key : Nat) (reply : HostReply)
  | sedgeLineEntry (c : Fin 8)
  | limiterLine (g : Fin 4)
  | sedgeLineExit (c : Fin 8)
  | hummockLineEntry (c : Fin 8)
  | mapReload (f : Fin 8) (v : Reg32)
  | mapReloadEnd
  | mapRebuildEnd
  | holdSegmentArrive (c : Fin 8)
  | lodeAdmit (c : Fin 8)
  | encTransition (c : Fin 12) (levels : Fin 8)
  | linkFrameSend (h : Fin 40)
  | upstreamFrameDiscard (l : LaneBlocks)
  | ackReceived (l : Fin 48) (h : Fin 40) (claim : Nat) (payload : List Byte)
  | nakReceived (l : Fin 48) (h : Fin 40) (payload : List Byte)
  | ctrlResponse (l : Fin 48) (h : Fin 40) (sequence : Nat) (payload : List Byte)
  | timeResponse (l : Fin 48) (h : Fin 40) (k t3ns t3frac : Nat) (payload : List Byte)
  | syncIdleReceived (l : Fin 48) (h : Fin 40) (crcOk : Bool) (payload : List Byte)
  | claimSend
  | timeSend
  | syncIdleSend (l : Fin 48)
  | ackTimeout (h : Fin 40)
  | laneRemoval (h : Fin 40) (pos : Fin 4)
  | laneRejoin (h : Fin 40) (pos : Fin 4)
  | hubEnable (f : Fin 8) (v : Reg32) (h : Fin 40)
  | hubDisable (f : Fin 8) (v : Reg32) (h : Fin 40)
  | hubRestart (f : Fin 8) (v : Reg32) (h : Fin 40)
  | hubConfigStart (h : Fin 40)
  | hubSilenceDown (h : Fin 40)
  | ctrlTimeout (h : Fin 40) (sequence : Nat)
  | cameraEnable (f : Fin 8) (v : Reg32) (k : Fin 2)
  | cameraDisable (f : Fin 8) (v : Reg32) (k : Fin 2)
  | cameraStartEnd (k : Fin 2) (r : CameraStart)
  | cameraCmdGo (f : Fin 8) (v : Reg32) (k : Fin 2)
  | cameraCmdAck (k : Fin 2) (error : Bool) (v : Reg32)
  | cameraCmdTimeout (k : Fin 2)
  | cameraEvent (k : Fin 2) (v : Nat)
  | cameraDown (k : Fin 2)
  | cameraImage (k : Fin 2) (m : CameraPicture)
  | cameraLineCompare (k : Fin 2) (able : Bool)
  | defectEvent
  | nozzleDecision (r : Fin 4)
  | mapsetRetry
  | add (c : CoreId) (rd ra rb : GReg)
  | sub (c : CoreId) (rd ra rb : GReg)
  | and (c : CoreId) (rd ra rb : GReg)
  | or (c : CoreId) (rd ra rb : GReg)
  | xor (c : CoreId) (rd ra rb : GReg)
  | sll (c : CoreId) (rd ra rb : GReg)
  | srl (c : CoreId) (rd ra rb : GReg)
  | sra (c : CoreId) (rd ra rb : GReg)
  | slt (c : CoreId) (rd ra rb : GReg)
  | sltu (c : CoreId) (rd ra rb : GReg)
  | mul (c : CoreId) (rd ra rb : GReg)
  | mulh (c : CoreId) (rd ra rb : GReg)
  | mulhu (c : CoreId) (rd ra rb : GReg)
  | div (c : CoreId) (rd ra rb : GReg)
  | divu (c : CoreId) (rd ra rb : GReg)
  | rem (c : CoreId) (rd ra rb : GReg)
  | remu (c : CoreId) (rd ra rb : GReg)
  | adds (c : CoreId) (rd ra rb : GReg)
  | subs (c : CoreId) (rd ra rb : GReg)
  | addv (c : CoreId) (rd ra rb : GReg)
  | subv (c : CoreId) (rd ra rb : GReg)
  | mulv (c : CoreId) (rd ra rb : GReg)
  | min (c : CoreId) (rd ra rb : GReg)
  | max (c : CoreId) (rd ra rb : GReg)
  | minu (c : CoreId) (rd ra rb : GReg)
  | maxu (c : CoreId) (rd ra rb : GReg)
  | clz (c : CoreId) (rd ra : GReg)
  | ctz (c : CoreId) (rd ra : GReg)
  | popc (c : CoreId) (rd ra : GReg)
  | addi (c : CoreId) (rd ra : GReg) (imm : BitVec 16)
  | andi (c : CoreId) (rd ra : GReg) (imm : BitVec 16)
  | ori (c : CoreId) (rd ra : GReg) (imm : BitVec 16)
  | xori (c : CoreId) (rd ra : GReg) (imm : BitVec 16)
  | shori (c : CoreId) (rd ra : GReg) (imm : BitVec 16)
  | slti (c : CoreId) (rd ra : GReg) (imm : BitVec 16)
  | sltiu (c : CoreId) (rd ra : GReg) (imm : BitVec 16)
  | shiLeft (c : CoreId) (rd ra : GReg) (sh : Fin 64)
  | shiRightLogical (c : CoreId) (rd ra : GReg) (sh : Fin 64)
  | shiRightArith (c : CoreId) (rd ra : GReg) (sh : Fin 64)
  | shiRotate (c : CoreId) (rd ra : GReg) (sh : Fin 64)
  | lb (c : CoreId) (rd ra : GReg) (imm : BitVec 16)
  | lbu (c : CoreId) (rd ra : GReg) (imm : BitVec 16)
  | lh (c : CoreId) (rd ra : GReg) (imm : BitVec 16)
  | lhu (c : CoreId) (rd ra : GReg) (imm : BitVec 16)
  | lw (c : CoreId) (rd ra : GReg) (imm : BitVec 16)
  | lwu (c : CoreId) (rd ra : GReg) (imm : BitVec 16)
  | ld (c : CoreId) (rd ra : GReg) (imm : BitVec 16)
  | sb (c : CoreId) (rd ra : GReg) (imm : BitVec 16)
  | sh (c : CoreId) (rd ra : GReg) (imm : BitVec 16)
  | sw (c : CoreId) (rd ra : GReg) (imm : BitVec 16)
  | sd (c : CoreId) (rd ra : GReg) (imm : BitVec 16)
  | hostReadReturn (c : CoreId) (reply : HostReply)
  | amoSwap (c : CoreId) (rd ra rb : GReg) (wide aq rl : Bool)
  | amoAdd (c : CoreId) (rd ra rb : GReg) (wide aq rl : Bool)
  | amoAnd (c : CoreId) (rd ra rb : GReg) (wide aq rl : Bool)
  | amoOr (c : CoreId) (rd ra rb : GReg) (wide aq rl : Bool)
  | amoXor (c : CoreId) (rd ra rb : GReg) (wide aq rl : Bool)
  | amoMin (c : CoreId) (rd ra rb : GReg) (wide aq rl : Bool)
  | amoMax (c : CoreId) (rd ra rb : GReg) (wide aq rl : Bool)
  | amoMinu (c : CoreId) (rd ra rb : GReg) (wide aq rl : Bool)
  | amoMaxu (c : CoreId) (rd ra rb : GReg) (wide aq rl : Bool)
  | amoCas (c : CoreId) (rd ra rb : GReg) (wide aq rl : Bool)
  | beq (c : CoreId) (ra rb : GReg) (off : BitVec 16)
  | bne (c : CoreId) (ra rb : GReg) (off : BitVec 16)
  | blt (c : CoreId) (ra rb : GReg) (off : BitVec 16)
  | bge (c : CoreId) (ra rb : GReg) (off : BitVec 16)
  | bltu (c : CoreId) (ra rb : GReg) (off : BitVec 16)
  | bgeu (c : CoreId) (ra rb : GReg) (off : BitVec 16)
  | j (c : CoreId) (off : BitVec 26)
  | jal (c : CoreId) (off : BitVec 26)
  | jalr (c : CoreId) (rd ra : GReg)
  | mfs (c : CoreId) (rd : GReg) (sr : Fin 64)
  | mts (c : CoreId) (ra : GReg) (sr : Fin 64)
  | fence (c : CoreId) (kind : BitVec 6)
  | yield (c : CoreId)
  | wfe (c : CoreId) (ra : GReg)
  | wfeWake (c : CoreId)
  | brk (c : CoreId) (code : BitVec 6)
  | exit (c : CoreId) (ra : GReg)
  | exitComplete (c : CoreId)
  | reservedOpcode (c : CoreId) (w : Reg32)
  | reedTimerExpire (n : Fin 32)
  | imageLoad (f : Fin 8) (v : Reg32) (n : Fin 32)
  | imageLoadEnd (n : Fin 32) (reply : HostReply)
  | reedRun (n : Fin 32) (run : Bool)
  | reedDoorbell (n : Fin 32)
  | debugHalt (c : CoreId)
  | debugResume (c : CoreId)
  | debugStep (c : CoreId)
  | dbgdataWrite (c : CoreId) (v : Word)
  | breakpointHalt (c : CoreId)
  | threadClear (t : Fin 16)
  | faccept (c : CoreId) (rd ra rb : GReg) (reply : HostReply)
  | facceptDurable (g : Fin 4) (fsn : Nat) (reply : HostReply)
  | bstage (c : CoreId) (rd ra rb : GReg) (reply : HostReply)
  | farmPosition (c : CoreId) (rd ra rb : GReg) (reply : HostReply)
  | farmFollow (c : CoreId) (rd ra rb : GReg) (reply : HostReply)
  | farmWithdraw (c : CoreId) (rd ra rb : GReg) (reply : HostReply)
  | waitpos (c : CoreId) (rd ra rb : GReg)
  | waitposTimeout (c : CoreId)
  | waittime (c : CoreId) (rd ra rb : GReg)
  | waittimeReturn (c : CoreId)
  | waittag (c : CoreId) (rd ra rb : GReg)
  | issueSluiceInflate (c : CoreId) (rd ra rb : GReg) (reply : HostReply)
  | issueSluiceDeflate (c : CoreId) (rd ra rb : GReg) (reply : HostReply)
  | issueDictLoad (c : CoreId) (rd ra rb : GReg) (reply : HostReply)
  | issueStrip (c : CoreId) (rd ra rb : GReg) (reply : HostReply)
  | issueHubctrl (c : CoreId) (rd ra rb : GReg) (reply : HostReply)
  | issueCopy (c : CoreId) (rd ra rb : GReg) (reply : HostReply)
  | issueCapture (c : CoreId) (rd ra rb : GReg) (reply : HostReply)
  | mapset (c : CoreId) (rd ra rb : GReg) (reply : HostReply)
  | scrsel (c : CoreId) (rd ra rb : GReg) (reply : HostReply)
  | axmoveAbsolute (c : CoreId) (rd ra rb : GReg) (reply : HostReply)
  | axmoveRelative (c : CoreId) (rd ra rb : GReg) (reply : HostReply)
  | axmoveLimits (c : CoreId) (rd ra rb : GReg) (reply : HostReply)
  | axmoveStop (c : CoreId) (rd ra rb : GReg) (reply : HostReply)
  | loopset (c : CoreId) (rd ra rb : GReg) (reply : HostReply)
  | trig (c : CoreId) (rd ra rb : GReg) (reply : HostReply)
  | trigAction (o : Fin 16)
  | trigPulseEnd (o : Fin 16)
  | mark (c : CoreId) (rd ra rb : GReg) (reply : HostReply)
  | markPulse (k : Fin 4)
  | markPulseEnd (k : Fin 4)
  | lread (c : CoreId) (rd ra rb : GReg) (reply : HostReply)
  | evt (c : CoreId) (rd ra rb : GReg)
  | sqDoorbell (q : Fin 64) (v : Reg32)
  | cqDoorbell (q : Fin 64) (v : Reg32)
  | queueEnable (f : Fin 8) (q : Fin 64) (v : Reg32)
  | queueDisable (f : Fin 8) (q : Fin 64) (v : Reg32)
  | queueResume (f : Fin 8) (q : Fin 64)
  | entryFetch (q : Fin 64) (reply : HostReply)
  | programFetchDone (q : Fin 64) (reply : HostReply)
  | eventRingEnable (f : Fin 8) (v : Reg32)
  | evtailWrite (f : Fin 8) (v : Reg32)
  | msixUnmask (f : Fin 8) (vec : Fin 256)
  | functionDisable (f : Fin 8) (cause : DisableCause)
  | functionEnable (f : Fin 8) (cause : EnableCause)
  | powerStateChange (f : Fin 8) (d3 : Bool)
  | flr (f : Fin 8)
  | flrComplete (f : Fin 8)
  | frameRelease (g : Fin 4) (fsn : Nat) (reply : HostReply)
  | frameCommit (g : Fin 4) (fsn : Nat)
  | frameSpoil (g : Fin 4) (fsn : Nat)
  | dispositionRecord (g : Fin 4)
  | frameReleased (g : Fin 4) (fsn : Nat) (reply : HostReply)
  | mirrorRetry (g : Fin 4) (fsn : Nat)
  | mirrorEnable (f : Fin 8) (v : Reg32) (g : Fin 4)
  | mirrorDisable (f : Fin 8) (v : Reg32) (g : Fin 4)
  | ledgerSeed (f : Fin 8) (v : Reg32) (g : Fin 4)
  | ledgerResolve (f : Fin 8) (v : Reg32) (g : Fin 4)
  | hello (tseq tack : Nat) (unit preferred profile id claim : Nat) (settings : List Nat) (printing : Bool)
  | heartbeat (tseq tack : Nat) (claim state : Nat)
  | twinTrigReceived (tseq tack : Nat) (group n tm : Nat)
  | record (tseq tack : Nat) (record : List Byte)
  | ringAck (tseq tack : Nat) (group fsn : Nat)
  | change (tseq tack : Nat) (key : TwinKey) (desc : List Byte) (ge : Nat)
  | result (tseq tack : Nat) (key : TwinKey) (code value : Word) (geohash tabsum : Nat)
  | twinEntry (tseq tack : Nat) (queue qseq blockCrc argCrc : Nat)
  | hubpoint (tseq tack : Nat) (hub : Nat) (points : List PointEntry) (reports : List ReportEntry)
  | resync (tseq tack : Nat) (answer : Bool) (trigger : Nat) (streams : List (Nat × Nat))
  | diverge (tseq tack : Nat) (cause detail : Nat)
  | resetReq (tseq tack claim : Nat)
  | stateCopy (tseq tack : Nat) (part : CopyPart)
  | image (tseq tack offset : Nat) (bytes : List Byte)
  | request (tseq tack : Nat) (key : TwinKey) (desc : List Byte)
  | twinMessageResend (tseq : Nat)
  | heartbeatSend
  | hbWordSend
  | hbWordReceived (w : Word)
  | partnerLost
  | pathSilent (link : Bool)
  | quorumRetry
  | trigFallback (g : Fin 4)
  | matchTimeout (key : Nat)
  | twinPair (f : Fin 8) (v : Reg32)
  | twinRejoin (f : Fin 8) (v : Reg32)
  | partnerReset (f : Fin 8) (v : Reg32)
  | pairingTimeout
  | memStart (f : Fin 8) (v : Reg32)
  | trainingStep (stageEnds : Bool)
  | trainingDone (fails : List (Fin 4 × Fin 4))
  | freqRequest (f : Fin 8) (v : Reg32)
  | freqChangeDone
  | refresh (m r : Fin 4)
  | mr4Poll (m r : Fin 4) (doubled : Bool)
  | scrubRead (m : Fin 4) (find : EccFind)
  | migrationPiece (m : Fin 4) (bad : List (Fin 64))
  | migrationDone (m : Fin 4)
  | selfRefreshEntry
  | selfRefreshExit
  | quadEnable (f : Fin 8) (v : Reg32) (q : Fin 12)
  | quadRateWrite (f : Fin 8) (v : Reg32) (q : Fin 12)
  | quadRateDone (q : Fin 12)
  | laneEnable (f : Fin 8) (v : Reg32) (l : Fin 48)
  | laneTrainingStage (l : Fin 48) (ok : Bool)
  | laneLock (l : Fin 48)
  | laneLockLost (l : Fin 48) (signal : Bool)
  | laneErrsd (l : Fin 48) (errors : Nat)
  | laneRetrain (l : Fin 48)
  | tdWindow (l : Fin 48) (transitions : Nat)
  | eyeScan (f : Fin 8) (v : Reg32) (l : Fin 48)
  | eyeScanDone (l : Fin 48) (count : Nat)
  | prbsClear (f : Fin 8) (v : Reg32) (l : Fin 48)
  | laneSleep (l : Fin 48) (tx deep : Bool)
  | laneWake (l : Fin 48) (tx : Bool)
  | timeAcq (f : Fin 8) (v : Reg32) (d : Fin 2)
  | domainStep (f : Fin 8) (v : Reg32) (d : Fin 2)
  | domainRate (f : Fin 8) (v : Reg32) (d : Fin 2)
  | workSelect (f : Fin 8) (v : Reg32)
  | timeSwitched
  | timeSnap (f : Fin 8) (v : Reg32)
  | toutModeWrite (f : Fin 8) (v : Reg32) (o : Fin 16)
  | toutPeriodEdge (o : Fin 16)
  | tinEdge (n : Fin 8) (rising : Bool)
  | tinPop (f : Fin 8) (v : Reg32) (n : Fin 8)
  | ethRxFrame (p : Fin 4) (frame : List Byte)
  | ethTxFrame (p : Fin 4)
  | pressStateReceived (message : List Byte)
  | pmsStatusSend
  | spdlimPeriod
  | encEnable (f : Fin 8) (v : Reg32) (c : Fin 12)
  | serialReading (c : Fin 12) (data : Nat) (nerr nwarn : Bool) (crc : Nat) (trailing timeout : Bool) (ago : Nat)
  | indexEdge (c : Fin 12) (rising : Bool)
  | speedWindow (c : Fin 12)
  | standstill (c : Fin 12)
  | fbFrozen (c : Fin 12)
  | encClear (f : Fin 8) (v : Reg32) (c : Fin 12)
  | encPosRead (f : Fin 8) (c : Fin 12)
  | ltgEnable (f : Fin 8) (v : Reg32) (j : Fin 8)
  | ltgDisable (f : Fin 8) (v : Reg32) (j : Fin 8)
  | axisSample (n : Fin 16)
  | axisHalt (f : Fin 8) (v : Reg32) (n : Fin 16)
  | webStopIn
  | axisSetpos (f : Fin 8) (v : Reg32) (n : Fin 16)
  | axisClear (f : Fin 8) (v : Reg32) (n : Fin 16)
  | chopCycle (st : Fin 8) (coilB : Bool) (on decay : Nat) (early : Bool)
  | irunUpdate (st : Fin 8)
  | tableWrite (f : Fin 8) (v : Reg32)
  | tableRead (f : Fin 8) (v : Reg32)
  | loopSample (l : Fin 24)
  | injectionStart (f : Fin 8) (v : Reg32) (l : Fin 24)
  | captureAbort (f : Fin 8) (v : Reg32) (k : Fin 2)
  | pwmPeriod (m : Fin 24)
  | sensorPeriod (p : Fin 8) (words : List Nat)
  | sensorClear (f : Fin 8) (v : Reg32) (p : Fin 8)
  | domainGate (d : Fin 14)
  | domainPowerDown (d : Fin 14)
  | domainEntryEnd (d : Fin 14)
  | domainWake (d : Fin 14) (step : WakeStep)
  | deepSleepEntry
  | deepSleepWake (src : WakeSource)
  | sleeptmrExpire
  | refclkSysLost
  | pllLockLoss (k : Fin 6)
  | thermalSample (readings : List (Option Int))
  | zoneLevelChange (z : Fin 12)
  | sensorRetire (f : Fin 8) (v : Reg32)
  | threshWrite (f : Fin 8) (v : Reg32)
  | thermalGraceEnd (z : Fin 12)
  | trip (z : Fin 12)
  | powerOnReset
  | warmReset
  | glbRstWarm (f : Fin 8) (v : Reg32)
  | rstoutRelease (f : Fin 8) (v : Reg32)
  | blockSoftReset (f : Fin 8) (v : Reg32)
  | bootStart (straps : Fin 64) (vdd : Nat)
  | downloadGo (f : Fin 8) (v : Reg32)
  | containerChecked (image : Option (List Byte))
  | fuseProgram (f : Fin 8) (v : Reg32)
  | fuseRevoke (f : Fin 8) (v : Reg32)
  | fuseDone (ok : Bool)
  | debugChallenge (f : Fin 8) (v : Reg32)
  | debugSubmit (f : Fin 8) (v : Reg32)
  | mossBrownout
  | i2cTransaction (op : I2cOp)
  | gpioEdge (n : Fin 32) (level : Bool)
  | telemetryReport (l : Fin 48) (h : Fin 40) (payload : List Byte)
  | refclkSysReturn
  | pllRelock (k : Fin 6)
  | xtal32Start
  | signalReturn (l : Fin 48)
  | quadPllFail (q : Fin 12)
  | pcieLinkChange (speed : Fin 6) (width : Fin 17) (pm : Fin 4)
  | pcieCompletionTimeout (o : ReadOwner)
  | copyComplete (key : Nat) (reply : HostReply)
  | bootImageRequest (tseq tack : Nat)
  | prbsSyncChange (l : Fin 48) (sync : Bool) (compared errors : Nat)
  deriving DecidableEq, Repr

end Sys2Proof
end

