-- ==== Sys2Proof/WellFormed.lean ====
section
/-!
DEFINITION. Which commands the spec's encodings and message formats admit: offsets inside a BAR0, band handles, the sizes
of payloads and records, and the instruction words that R188 and R189 reserve.
-/

namespace Sys2Proof

/-- Bytes of a function's BAR0: 64 MiB for PF0 and 1 MiB for the others (R466, R473). -/
def barSize (f : Fin 8) : Nat := if f = 0 then 67108864 else 1048576

/-- Whether an offset is that of an aligned 32-bit register of a BAR0 (R470). -/
def regOffset (f : Fin 8) (off : Nat) : Bool := off % 4 == 0 && decide (off < barSize f)

/-- Whether a number is a 32-bit one. -/
def word32 (n : Nat) : Bool := decide (n < 4294967296)

/-- Bits `lo` to `lo + n - 1` of an instruction word. -/
def wordField (w : Reg32) (lo n : Nat) : Nat := w.toNat / 2 ^ lo % 2 ^ n

/-- Whether a word of opcode 0x01 is reserved: fn above 0x1C, or rb not 0 in CLZ, CTZ and POPC (R190). -/
def reservedAlu (w : Reg32) : Bool :=
  decide (28 < wordField w 0 11) || (decide (26 ≤ wordField w 0 11) && wordField w 11 5 != 0)

/-- Whether a word of opcode 0x30 is reserved, by its fn[10:6] and the fields its operation does not use (R195). -/
def reservedSys (w : Reg32) : Bool :=
  match wordField w 6 5 with
  | 1 => wordField w 11 10 != 0
  | 2 => wordField w 21 5 != 0 || wordField w 11 5 != 0
  | 3 => wordField w 0 6 == 0 || wordField w 11 15 != 0
  | 4 => wordField w 0 6 != 0 || wordField w 11 15 != 0
  | 5 | 7 => wordField w 21 5 != 0 || wordField w 11 5 != 0 || wordField w 0 6 != 0
  | 6 => wordField w 11 15 != 0
  | _ => true

/-- Whether an instruction word is one that R188 or R189 makes ILLEGAL on every core. -/
def reservedWord (w : Reg32) : Bool :=
  match wordField w 26 6 with
  | 0x01 => reservedAlu w
  | 0x02 | 0x03 | 0x04 | 0x05 | 0x06 | 0x07 | 0x08 => false
  | 0x09 => wordField w 8 8 != 0
  | 0x10 | 0x11 | 0x12 | 0x13 | 0x14 | 0x15 | 0x16 => false
  | 0x18 | 0x19 | 0x1A | 0x1B => false
  | 0x1C => decide (9 < wordField w 0 4) || wordField w 7 4 != 0
  | 0x20 | 0x21 | 0x22 | 0x23 | 0x24 | 0x25 | 0x28 | 0x29 => false
  | 0x2A => wordField w 0 16 != 0
  | 0x30 => reservedSys w
  | 0x3F => wordField w 0 11 == 0 || decide (16 < wordField w 0 11) ||
      ((wordField w 0 11 == 6 || wordField w 0 11 == 7) && wordField w 11 5 != 0)
  | _ => true

/-- Whether the spec's encodings admit a command. -/
def Instr.wf : Instr → Bool
  | .regWrite f off _ => regOffset f off
  | .rcRead f off => regOffset f off
  | .pairHiWrite f off _ => regOffset f off
  | .pairLoRead f off => regOffset f off
  | .unsupportedRequest f _ off len => !(off % 4 == 0 && len == 4) && decide (0 < len) && decide (off < barSize f)
  | .pcieReadCompletion band _ _ => decide (band < 8192)
  | .bloadComplete band => decide (band < 8192)
  | .bandRefetchDone band _ => decide (band < 8192)
  | .bandBlockSwap band => decide (band < 8192)
  | .ackReceived _ _ claim payload => word32 claim && decide (payload.length ≤ 8192)
  | .nakReceived _ _ payload => decide (payload.length ≤ 8192)
  | .ctrlResponse _ _ sequence payload => word32 sequence && decide (payload.length ≤ 8192)
  | .timeResponse _ _ _ _ _ payload => decide (payload.length ≤ 8192)
  | .syncIdleReceived _ _ _ payload => decide (payload.length ≤ 8192)
  | .ctrlTimeout _ sequence => word32 sequence
  | .cameraImage _ m => decide (m.lines.length ≤ m.height)
  | .fence _ kind => kind != 0
  | .reservedOpcode _ w => reservedWord w
  | .waittime _ _ _ rb => rb == 0
  | .waittag _ _ _ rb => rb == 0
  | .hello tseq tack unit preferred profile id claim settings _ =>
      word32 tseq && word32 tack && decide (unit < 2) && decide (preferred < 2) && decide (profile < 3) &&
        word32 id && word32 claim && settings.length == 17
  | .heartbeat tseq tack claim state => word32 tseq && word32 tack && word32 claim && decide (state < 8)
  | .twinTrigReceived tseq tack group _ _ => word32 tseq && word32 tack && decide (group < 4)
  | .record tseq tack bytes => word32 tseq && word32 tack && bytes.length == 64
  | .ringAck tseq tack group _ => word32 tseq && word32 tack && decide (group < 4)
  | .change tseq tack key desc _ =>
      word32 tseq && word32 tack && word32 key.qseq && decide (key.queue < 64) && desc.length % 8 == 0 &&
        decide (desc.length ≤ 8176)
  | .result tseq tack key _ _ _ _ => word32 tseq && word32 tack && decide (key.queue < 64)
  | .twinEntry tseq tack queue _ blockCrc argCrc =>
      word32 tseq && word32 tack && decide (queue < 64) && word32 blockCrc && word32 argCrc
  | .hubpoint tseq tack hub points reports =>
      word32 tseq && word32 tack && decide (hub < 40) && decide (points.length ≤ 255) &&
        decide (reports.length ≤ 255)
  | .resync tseq tack _ _ _ => word32 tseq && word32 tack
  | .diverge tseq tack cause _ => word32 tseq && word32 tack && decide (cause < 7)
  | .resetReq tseq tack claim => word32 tseq && word32 tack && word32 claim
  | .stateCopy tseq tack _ => word32 tseq && word32 tack
  | .image tseq tack _ bytes => word32 tseq && word32 tack && decide (bytes.length ≤ 8176)
  | .request tseq tack key desc =>
      word32 tseq && word32 tack && word32 key.qseq && decide (key.queue < 64) && desc.length % 8 == 0 &&
        decide (desc.length ≤ 8176)
  | .twinMessageResend tseq => word32 tseq
  | .laneErrsd _ errors => decide (0 < errors)
  | .sensorPeriod _ words => decide (words.length ≤ 4)
  | .thermalSample readings => readings.length == 24
  | .telemetryReport _ _ payload => decide (payload.length ≤ 8192)
  | .bootImageRequest tseq tack => word32 tseq && word32 tack
  | _ => true

end Sys2Proof
end

