-- ==== Sys2Proof/Decode.lean ====
section
/-!
DEFINITION. The decoders: of table words, and of Brofer instruction words (R188 to R195, R217). No row of
spec/opcode_table.json gives its command any bits: the M9600 takes commands, not words, so no table word spells one.
-/

namespace Sys2Proof

/-- The command a word spells by the table's bits: none, since the table gives no row bits. -/
def decodeTableWord (_nbits _w : Nat) : Option Instr := none

/-! Fields of an instruction word (Table: instruction formats). -/

/-- The register in five bits from `lo` on. -/
def wordReg (w : Reg32) (lo : Nat) : GReg := ⟨wordField w lo 5, Nat.mod_lt _ (by decide)⟩

/-- The operand of SYS and of SHI, six bits from bit 0 on. -/
def wordSix (w : Reg32) : Fin 64 := ⟨wordField w 0 6, Nat.mod_lt _ (by decide)⟩

/-- imm16 or off16. -/
def wordImm (w : Reg32) : BitVec 16 := w.setWidth 16

/-! The commands of each group of opcodes; a word none of them takes is ILLEGAL. -/

/-- Opcode 0x01, by fn (Table: ALU operations). -/
def decodeAlu (c : CoreId) (w : Reg32) : Instr :=
  let d := wordReg w 21
  let a := wordReg w 16
  let b := wordReg w 11
  match wordField w 0 11 with
  | 0x00 => .add c d a b
  | 0x01 => .sub c d a b
  | 0x02 => .and c d a b
  | 0x03 => .or c d a b
  | 0x04 => .xor c d a b
  | 0x05 => .sll c d a b
  | 0x06 => .srl c d a b
  | 0x07 => .sra c d a b
  | 0x08 => .slt c d a b
  | 0x09 => .sltu c d a b
  | 0x0A => .mul c d a b
  | 0x0B => .mulh c d a b
  | 0x0C => .mulhu c d a b
  | 0x0D => .div c d a b
  | 0x0E => .divu c d a b
  | 0x0F => .rem c d a b
  | 0x10 => .remu c d a b
  | 0x11 => .adds c d a b
  | 0x12 => .subs c d a b
  | 0x13 => .addv c d a b
  | 0x14 => .subv c d a b
  | 0x15 => .mulv c d a b
  | 0x16 => .min c d a b
  | 0x17 => .max c d a b
  | 0x18 => .minu c d a b
  | 0x19 => .maxu c d a b
  | 0x1A => .clz c d a
  | 0x1B => .ctz c d a
  | 0x1C => .popc c d a
  | _ => .reservedOpcode c w

/-- Opcode 0x09, by imm16[7:6] (Table: immediate instructions). -/
def decodeShi (c : CoreId) (w : Reg32) : Instr :=
  let d := wordReg w 21
  let a := wordReg w 16
  match wordField w 6 2 with
  | 0 => .shiLeft c d a (wordSix w)
  | 1 => .shiRightLogical c d a (wordSix w)
  | 2 => .shiRightArith c d a (wordSix w)
  | _ => .shiRotate c d a (wordSix w)

/-- Opcode 0x1C, by fn[3:0], with the width in fn[4], AQ in fn[5] and RL in fn[6] (R193). -/
def decodeAmo (c : CoreId) (w : Reg32) : Instr :=
  let d := wordReg w 21
  let a := wordReg w 16
  let b := wordReg w 11
  let wide := w.getLsbD 4
  let aq := w.getLsbD 5
  let rl := w.getLsbD 6
  match wordField w 0 4 with
  | 0 => .amoSwap c d a b wide aq rl
  | 1 => .amoAdd c d a b wide aq rl
  | 2 => .amoAnd c d a b wide aq rl
  | 3 => .amoOr c d a b wide aq rl
  | 4 => .amoXor c d a b wide aq rl
  | 5 => .amoMin c d a b wide aq rl
  | 6 => .amoMax c d a b wide aq rl
  | 7 => .amoMinu c d a b wide aq rl
  | 8 => .amoMaxu c d a b wide aq rl
  | 9 => .amoCas c d a b wide aq rl
  | _ => .reservedOpcode c w

/-- Opcode 0x30, by fn[10:6] (Table: SYS operations). -/
def decodeSys (c : CoreId) (w : Reg32) : Instr :=
  let a := wordReg w 16
  match wordField w 6 5 with
  | 1 => .mfs c (wordReg w 21) (wordSix w)
  | 2 => .mts c a (wordSix w)
  | 3 => .fence c (w.setWidth 6)
  | 4 => .yield c
  | 5 => .wfe c a
  | 6 => .brk c (w.setWidth 6)
  | 7 => .exit c a
  | _ => .reservedOpcode c w

/-- Opcode 0x3F, by its sub-operation (Table: press and engine operations). FARM, ISSUE and AXMOVE are several commands: the
MODE or CLASS of the descriptor, given here, tells which; so does the OP of a Sluice job, given as 16 times the OP. -/
def decodePress (c : CoreId) (select : Nat) (reply : HostReply) (w : Reg32) : Instr :=
  let d := wordReg w 21
  let a := wordReg w 16
  let b := wordReg w 11
  match wordField w 0 11 with
  | 0x01 => .faccept c d a b reply
  | 0x02 => .bload c d a b reply
  | 0x03 => .bstage c d a b reply
  | 0x04 => if select = 0 then .farmPosition c d a b reply
      else if select = 1 then .farmFollow c d a b reply else .farmWithdraw c d a b reply
  | 0x05 => .waitpos c d a b
  | 0x06 => .waittime c d a b
  | 0x07 => .waittag c d a b
  | 0x08 => if select = 2 then .issueStrip c d a b reply
      else if select = 3 then .issueHubctrl c d a b reply
      else if select = 4 then .issueCopy c d a b reply
      else if select = 5 then .issueCapture c d a b reply
      else if select / 16 = 0 then .issueSluiceInflate c d a b reply
      else if select / 16 = 1 then .issueSluiceDeflate c d a b reply else .issueDictLoad c d a b reply
  | 0x09 => .mapset c d a b reply
  | 0x0A => .scrsel c d a b reply
  | 0x0B => if select = 0 then .axmoveAbsolute c d a b reply
      else if select = 1 then .axmoveRelative c d a b reply
      else if select = 2 then .axmoveLimits c d a b reply else .axmoveStop c d a b reply
  | 0x0C => .loopset c d a b reply
  | 0x0D => .trig c d a b reply
  | 0x0E => .mark c d a b reply
  | 0x0F => .lread c d a b reply
  | 0x10 => .evt c d a b
  | _ => .reservedOpcode c w

/-- The command of an instruction word executed by a core (Table: opcode map). A word with a reserved opcode, fn or
sub-operation, or a field its instruction does not use that is not 0, is the command that faults with ILLEGAL. -/
def decodeBrofer (c : CoreId) (select : Nat) (reply : HostReply) (w : Reg32) : Instr :=
  let d := wordReg w 21
  let a := wordReg w 16
  if reservedWord w then .reservedOpcode c w
  else match wordField w 26 6 with
  | 0x01 => decodeAlu c w
  | 0x02 => .addi c d a (wordImm w)
  | 0x03 => .andi c d a (wordImm w)
  | 0x04 => .ori c d a (wordImm w)
  | 0x05 => .xori c d a (wordImm w)
  | 0x06 => .shori c d a (wordImm w)
  | 0x07 => .slti c d a (wordImm w)
  | 0x08 => .sltiu c d a (wordImm w)
  | 0x09 => decodeShi c w
  | 0x10 => .lb c d a (wordImm w)
  | 0x11 => .lbu c d a (wordImm w)
  | 0x12 => .lh c d a (wordImm w)
  | 0x13 => .lhu c d a (wordImm w)
  | 0x14 => .lw c d a (wordImm w)
  | 0x15 => .lwu c d a (wordImm w)
  | 0x16 => .ld c d a (wordImm w)
  | 0x18 => .sb c d a (wordImm w)
  | 0x19 => .sh c d a (wordImm w)
  | 0x1A => .sw c d a (wordImm w)
  | 0x1B => .sd c d a (wordImm w)
  | 0x1C => decodeAmo c w
  | 0x20 => .beq c d a (wordImm w)
  | 0x21 => .bne c d a (wordImm w)
  | 0x22 => .blt c d a (wordImm w)
  | 0x23 => .bge c d a (wordImm w)
  | 0x24 => .bltu c d a (wordImm w)
  | 0x25 => .bgeu c d a (wordImm w)
  | 0x28 => .j c (w.setWidth 26)
  | 0x29 => .jal c (w.setWidth 26)
  | 0x2A => .jalr c d a
  | 0x30 => decodeSys c w
  | 0x3F => decodePress c select reply w
  | _ => .reservedOpcode c w

end Sys2Proof
end

