-- ==== Sys2Proof/Machine/Maps.lean ====
section
/-!
DEFINITION. The operations on sparse storage (`SMap`), and the list helpers every block uses. Writing removes every
old entry of the key and inserts the new one at its place, so what is read after a write holds for any list.
-/

namespace Sys2Proof.Machine

variable {α : Type}

/-- The entry of a key. -/
def mfind : SMap α → Nat → Option α
  | [], _ => none
  | (k, v) :: r, j => if k = j then some v else mfind r j

/-- The value of a key, or a default where the key has no entry. -/
def mget (m : SMap α) (k : Nat) (d : α) : α := (mfind m k).getD d

/-- All entries but those of one key. -/
def mdel : SMap α → Nat → SMap α
  | [], _ => []
  | (k, v) :: r, j => if k = j then mdel r j else (k, v) :: mdel r j

/-- Inserts an entry before the first larger key. -/
def mins : SMap α → Nat → α → SMap α
  | [], j, v => [(j, v)]
  | (k, w) :: r, j, v => if j < k then (j, v) :: (k, w) :: r else (k, w) :: mins r j v

/-- Gives a key a value. -/
def mput (m : SMap α) (k : Nat) (v : α) : SMap α := mins (mdel m k) k v

/-- Changes the value of a key, starting from a default where it has no entry. -/
def mmod (m : SMap α) (k : Nat) (d : α) (f : α → α) : SMap α := mput m k (f (mget m k d))

/-- Whether the keys of a list rise strictly from a bound. -/
def mrising : Nat → SMap α → Bool
  | _, [] => true
  | b, (k, _) :: r => decide (b ≤ k) && mrising (k + 1) r

/-- The numbers below `n`, rising. -/
def upto (n : Nat) : List Nat := List.range n

/-- The numbers from `a` to `b`, both included. -/
def fromTo (a b : Nat) : List Nat := (List.range (b + 1 - a)).map (· + a)

/-- Folds a state transformer over a list. -/
def forEach {β : Type} (l : List β) (s : α) (f : α → β → α) : α := l.foldl f s

/-- The `i`-th element of a list of numbers, or 0. -/
def nth (l : List Nat) (i : Nat) : Nat := l.getD i 0

end Sys2Proof.Machine
end

