-- ==== Sys2Proof/Machine/Bits.lean ====
section
/-!
DEFINITION. Bit fields, sign extension and byte order (R6: little-endian), shared by every block.
-/

namespace Sys2Proof.Machine

/-- Bits `lo` to `lo + w - 1` of a number. -/
def bits (n lo w : Nat) : Nat := n / 2 ^ lo % 2 ^ w

/-- Bit `i` of a number. -/
def bit (n i : Nat) : Bool := n / 2 ^ i % 2 == 1

/-- A number with bits `lo` to `lo + w - 1` replaced. -/
def setBits (n lo w v : Nat) : Nat := n % 2 ^ lo + 2 ^ lo * (v % 2 ^ w) + 2 ^ (lo + w) * (n / 2 ^ (lo + w))

/-- A Boolean as 0 or 1. -/
def bnat (b : Bool) : Nat := if b then 1 else 0

/-- The two's-complement value of a `w`-bit number. -/
def signed (n w : Nat) : Int := if bits n (w - 1) 1 = 1 then (n % 2 ^ w : Nat) - (2 ^ w : Nat) else (n % 2 ^ w : Nat)

/-- The `w`-bit two's-complement image of an integer. -/
def unsign (i : Int) (w : Nat) : Nat := (i % ((2 ^ w : Nat) : Int)).toNat

/-- Limits an integer to a range. -/
def clampInt (lo hi i : Int) : Int := if i < lo then lo else if hi < i then hi else i

/-- Floor of a quotient of integers by a positive number. -/
def floorDiv (a : Int) (b : Nat) : Int := Int.fdiv a (b : Int)

/-- Ceiling of a quotient of numbers. -/
def ceilDiv (a b : Nat) : Nat := (a + b - 1) / b

/-- Exclusive or of two numbers. -/
def nxor (a b : Nat) : Nat := Nat.xor a b

/-- The number whose little-endian bytes are the list (R6). -/
def ofBytes : List Byte → Nat
  | [] => 0
  | b :: r => b.toNat + 256 * ofBytes r

/-- The `n` little-endian bytes of a number (R6). -/
def toBytes : Nat → Nat → List Byte
  | 0, _ => []
  | n + 1, v => BitVec.ofNat 8 v :: toBytes n (v / 256)

/-- `n` bytes of a list from an offset; bytes beyond its end read 0. -/
def slice (l : List Byte) (off n : Nat) : List Byte :=
  let t := (l.drop off).take n
  t ++ List.replicate (n - t.length) 0

/-- A little-endian field of `n` bytes at an offset of a byte list. -/
def field (l : List Byte) (off n : Nat) : Nat := ofBytes (slice l off n)

/-- The low bits of a number as a 64-bit word. -/
def word (n : Nat) : Word := BitVec.ofNat 64 n

/-- An integer as a 64-bit word. -/
def wordI (i : Int) : Word := BitVec.ofInt 64 i

/-- Counter increment that saturates at 0xFFFF_FFFF. -/
def satInc (n : Nat) : Nat := if n < 0xFFFFFFFF then n + 1 else 0xFFFFFFFF

/-- Counter addition that saturates at 0xFFFF_FFFF. -/
def satAdd (n k : Nat) : Nat := if n + k < 0xFFFFFFFF then n + k else 0xFFFFFFFF

end Sys2Proof.Machine
end

