-- ==== Sys2Proof/Machine/Crypto.lean ====
section
/-!
DEFINITION. SHA-384 and the verification of ECDSA signatures on curve P-384 (R212, R441), as FIPS 180-4 and FIPS 186-5
define them.
-/

namespace Sys2Proof.Machine

/-! SHA-384. -/

/-- The round constants, as FIPS 180-4 lists them. -/
def shaK1 : List (BitVec 64) := [
  0x428A2F98D728AE22, 0x7137449123EF65CD, 0xB5C0FBCFEC4D3B2F, 0xE9B5DBA58189DBBC, 0x3956C25BF348B538,
  0x59F111F1B605D019, 0x923F82A4AF194F9B, 0xAB1C5ED5DA6D8118, 0xD807AA98A3030242, 0x12835B0145706FBE,
  0x243185BE4EE4B28C, 0x550C7DC3D5FFB4E2, 0x72BE5D74F27B896F, 0x80DEB1FE3B1696B1, 0x9BDC06A725C71235,
  0xC19BF174CF692694, 0xE49B69C19EF14AD2, 0xEFBE4786384F25E3, 0x0FC19DC68B8CD5B5, 0x240CA1CC77AC9C65,
  0x2DE92C6F592B0275, 0x4A7484AA6EA6E483, 0x5CB0A9DCBD41FBD4, 0x76F988DA831153B5, 0x983E5152EE66DFAB,
  0xA831C66D2DB43210, 0xB00327C898FB213F, 0xBF597FC7BEEF0EE4, 0xC6E00BF33DA88FC2, 0xD5A79147930AA725,
  0x06CA6351E003826F, 0x142929670A0E6E70, 0x27B70A8546D22FFC, 0x2E1B21385C26C926, 0x4D2C6DFC5AC42AED,
  0x53380D139D95B3DF, 0x650A73548BAF63DE, 0x766A0ABB3C77B2A8, 0x81C2C92E47EDAEE6, 0x92722C851482353B]
def shaK2 : List (BitVec 64) := [
  0xA2BFE8A14CF10364, 0xA81A664BBC423001, 0xC24B8B70D0F89791, 0xC76C51A30654BE30, 0xD192E819D6EF5218,
  0xD69906245565A910, 0xF40E35855771202A, 0x106AA07032BBD1B8, 0x19A4C116B8D2D0C8, 0x1E376C085141AB53,
  0x2748774CDF8EEB99, 0x34B0BCB5E19B48A8, 0x391C0CB3C5C95A63, 0x4ED8AA4AE3418ACB, 0x5B9CCA4F7763E373,
  0x682E6FF3D6B2B8A3, 0x748F82EE5DEFB2FC, 0x78A5636F43172F60, 0x84C87814A1F0AB72, 0x8CC702081A6439EC,
  0x90BEFFFA23631E28, 0xA4506CEBDE82BDE9, 0xBEF9A3F7B2C67915, 0xC67178F2E372532B, 0xCA273ECEEA26619C,
  0xD186B8C721C0C207, 0xEADA7DD6CDE0EB1E, 0xF57D4F7FEE6ED178, 0x06F067AA72176FBA, 0x0A637DC5A2C898A6,
  0x113F9804BEF90DAE, 0x1B710B35131C471B, 0x28DB77F523047D84, 0x32CAAB7B40C72493, 0x3C9EBE0A15C9BEBC,
  0x431D67C49C100D4C, 0x4CC5D4BECB3E42B6, 0x597F299CFC657E2A, 0x5FCB6FAB3AD6FAEC, 0x6C44198C4A475817]

/-- The initial hash value. -/
def shaInit : List (BitVec 64) := [
  0xCBBB9D5DC1059ED8, 0x629A292A367CD507, 0x9159015A3070DD17, 0x152FECD8F70E5939, 0x67332667FFC00B31,
  0x8EB44A8768581511, 0xDB0C2E0D64F98FA7, 0x47B5481DBEFA4FA4]

def shaWord (l : List (BitVec 64)) (i : Nat) : BitVec 64 := l.getD i 0

/-- The message schedule, extended by one word at its end; kept newest first. -/
def shaExtend (w : List (BitVec 64)) : List (BitVec 64) :=
  let a := shaWord w 1
  let b := shaWord w 14
  let s1 := a.rotateRight 19 ^^^ a.rotateRight 61 ^^^ (a >>> 6)
  let s0 := b.rotateRight 1 ^^^ b.rotateRight 8 ^^^ (b >>> 7)
  (s1 + shaWord w 6 + s0 + shaWord w 15) :: w

/-- One round on the eight working words. -/
def shaRound (v : List (BitVec 64)) (kw : BitVec 64) : List (BitVec 64) :=
  let a := shaWord v 0
  let b := shaWord v 1
  let c := shaWord v 2
  let e := shaWord v 4
  let t1 := shaWord v 7 + (e.rotateRight 14 ^^^ e.rotateRight 18 ^^^ e.rotateRight 41) +
    ((e &&& shaWord v 5) ^^^ (~~~e &&& shaWord v 6)) + kw
  let t2 := (a.rotateRight 28 ^^^ a.rotateRight 34 ^^^ a.rotateRight 39) + ((a &&& b) ^^^ (a &&& c) ^^^ (b &&& c))
  [t1 + t2, a, b, c, shaWord v 3 + t1, e, shaWord v 5, shaWord v 6]

/-- One block of sixteen words. -/
def shaBlock (h : List (BitVec 64)) (m : List (BitVec 64)) : List (BitVec 64) :=
  let w := ((List.range 64).foldl (fun w _ => shaExtend w) m.reverse).reverse
  let v := (List.zipWith (· + ·) (shaK1 ++ shaK2) w).foldl shaRound h
  List.zipWith (· + ·) h v

/-- A big-endian number of bytes. -/
def beNat (bs : List Byte) : Nat := bs.foldl (fun a b => 256 * a + b.toNat) 0

/-- `n` bytes of a number, the highest first. -/
def beList (n v : Nat) : List Byte := (List.range n).map (fun i => BitVec.ofNat 8 (v / 256 ^ (n - 1 - i)))

def shaWords : Nat → List Byte → List (BitVec 64)
  | 0, _ => []
  | n + 1, bs => BitVec.ofNat 64 (beNat (bs.take 8)) :: shaWords n (bs.drop 8)

def shaBlocks : Nat → List (BitVec 64) → List Byte → List (BitVec 64)
  | 0, h, _ => h
  | n + 1, h, bs => shaBlocks n (shaBlock h (shaWords 16 bs)) (bs.drop 128)

/-- SHA-384 of a message: 48 bytes. -/
def sha384 (bs : List Byte) : List Byte :=
  let pad := (239 - bs.length % 128) % 128
  let m := bs ++ [0x80] ++ List.replicate pad 0 ++ beList 16 (8 * bs.length)
  ((shaBlocks (m.length / 128) shaInit m).take 6).flatMap (fun w => beList 8 w.toNat)

/-! P-384. A point is held in Jacobian coordinates; Z 0 is the point at infinity. -/

def p384 : Nat := 2 ^ 384 - 2 ^ 128 - 2 ^ 96 + 2 ^ 32 - 1
def n384 : Nat := 0xFFFFFFFFFFFFFFFFFFFFFFFFFFFFFFFFFFFFFFFFFFFFFFFFC7634D81F4372DDF581A0DB248B0A77AECEC196ACCC52973
def b384 : Nat := 0xB3312FA7E23EE7E4988E056BE3F82D19181D9C6EFE8141120314088F5013875AC656398D8A2ED19D2A85C8EDD3EC2AEF
def gx384 : Nat := 0xAA87CA22BE8B05378EB1C71EF320AD746E1D3B628BA79B9859F741E082542A385502F25DBF55296C3A545E3872760AB7
def gy384 : Nat := 0x3617DE4A96262C6F5D9E98BF9292DC29F8F41DBD289A147CE9DA3113B5F0B8C00A60B1CE1D7E819D7A431D7C90EA0E5F

structure Jacobian where
  x : Nat
  y : Nat
  z : Nat
  deriving DecidableEq, Repr

/-- The bits of a number of at most 384 bits, highest first. -/
def bits384 (n : Nat) : List Bool := (List.range 384).map (fun i => n / 2 ^ (383 - i) % 2 == 1)

def powMod (a e m : Nat) : Nat := (bits384 e).foldl (fun r b => let q := r * r % m; if b then q * a % m else q) 1

/-- The inverse modulo a prime. -/
def invMod (a m : Nat) : Nat := powMod a (m - 2) m

def subMod (a b : Nat) : Nat := (a + p384 - b % p384) % p384

/-- Twice a point. -/
def Jacobian.double (q : Jacobian) : Jacobian :=
  let p := p384
  let yy := q.y * q.y % p
  let s := 4 * q.x * yy % p
  let zz := q.z * q.z % p
  let m := 3 * (q.x + zz) * subMod q.x zz % p
  let x := subMod (m * m) (2 * s)
  ⟨x, subMod (m * subMod s x) (8 * yy * yy), 2 * q.y * q.z % p⟩

/-- The sum of two points. -/
def Jacobian.add (a b : Jacobian) : Jacobian :=
  let p := p384
  if a.z % p = 0 then b
  else if b.z % p = 0 then a
  else
    let za := a.z * a.z % p
    let zb := b.z * b.z % p
    let u1 := a.x * zb % p
    let u2 := b.x * za % p
    let s1 := a.y * zb * b.z % p
    let s2 := b.y * za * a.z % p
    if u1 = u2 then (if s1 = s2 then a.double else ⟨1, 1, 0⟩)
    else
      let h := subMod u2 u1
      let r := subMod s2 s1
      let hh := h * h % p
      let hhh := h * hh % p
      let v := u1 * hh % p
      let x := subMod (subMod (r * r) hhh) (2 * v)
      ⟨x, subMod (r * subMod v x) (s1 * hhh), h * a.z * b.z % p⟩

/-- A multiple of a point. -/
def Jacobian.mul (k : Nat) (q : Jacobian) : Jacobian :=
  (bits384 k).foldl (fun r b => let t := r.double; if b then t.add q else t) ⟨1, 1, 0⟩

/-- Whether coordinates name a point of the curve. -/
def onCurve (x y : Nat) : Bool :=
  decide (x < p384) && decide (y < p384) && (y * y + 3 * x) % p384 == (x * x * x + b384) % p384

/-- Whether an ECDSA signature of a digest verifies: public key X then Y, signature r then s (R212). -/
def ecdsaVerify (key sig digest : List Byte) : Bool :=
  let x := beNat (key.take 48)
  let y := beNat ((key.drop 48).take 48)
  let r := beNat (sig.take 48)
  let t := beNat ((sig.drop 48).take 48)
  if !onCurve x y || r == 0 || decide (n384 ≤ r) || t == 0 || decide (n384 ≤ t) then false
  else
    let w := invMod t n384
    let q := ((⟨gx384, gy384, 1⟩ : Jacobian).mul (beNat digest * w % n384)).add ((⟨x, y, 1⟩ : Jacobian).mul (r * w % n384))
    if q.z % p384 = 0 then false
    else
      let zi := invMod q.z p384
      q.x * zi % p384 * zi % p384 % n384 == r

end Sys2Proof.Machine
end

