-- ==== Sys2Proof/Machine/Checks.lean ====
section
/-!
DEFINITION. The check values the chapters name: reflected CRCs of any width (R46, R280), Adler-32 (RFC 1950), and the
short CRCs of the serial feedback and sensor words.
-/

namespace Sys2Proof.Machine

/-- One bit of a reflected CRC register. -/
def crcBit (poly r : Nat) : Nat := if r % 2 = 1 then nxor (r / 2) poly else r / 2

/-- One byte of a reflected CRC register. -/
def crcByte (poly : Nat) (r : Nat) (b : Byte) : Nat :=
  crcBit poly (crcBit poly (crcBit poly (crcBit poly (crcBit poly (crcBit poly (crcBit poly (crcBit poly
    (nxor r b.toNat))))))))

/-- CRC-32C of bytes (R46): reflected 0x82F6_3B78, initial value and final exclusive-or all ones. -/
def crc32c (bs : List Byte) : Nat := nxor (bs.foldl (crcByte 0x82F63B78) 0xFFFFFFFF) 0xFFFFFFFF

/-- CRC-64 of bytes (R280): reflected 0xC96C_5795_D787_0F42, initial value and final exclusive-or all ones. -/
def crc64 (bs : List Byte) : Nat :=
  nxor (bs.foldl (crcByte 0xC96C5795D7870F42) 0xFFFFFFFFFFFFFFFF) 0xFFFFFFFFFFFFFFFF

/-- Adler-32 of bytes, as RFC 1950 defines it. -/
def adler32 (bs : List Byte) : Nat :=
  let r := bs.foldl (fun (p : Nat × Nat) b => ((p.1 + b.toNat) % 65521, (p.2 + (p.1 + b.toNat) % 65521) % 65521)) (1, 0)
  r.1 + 65536 * r.2

/-- One bit of an unreflected CRC register of `w` bits. -/
def crcMsbBit (w poly r : Nat) (b : Bool) : Nat :=
  let top := bit r (w - 1)
  let r' := (2 * r) % 2 ^ w
  if top != b then nxor r' poly else r'

/-- Unreflected CRC of `w` bits over a bit string, most significant bit first. -/
def crcMsb (w poly init : Nat) (bs : List Bool) : Nat := bs.foldl (crcMsbBit w poly) init

/-- The `n` low bits of a number, most significant first. -/
def msbBits (n v : Nat) : List Bool := (upto n).map (fun i => bit v (n - 1 - i))

end Sys2Proof.Machine
end

