-- ==== Sys2Proof/Machine/RegTypes.lean ====
section
/-!
DEFINITION. The shapes in which the register tables are written down: access types (R9), owners of RWL fields (R10),
register descriptions and the names of fields and pairs.
-/

namespace Sys2Proof.Machine

/-- The access types of Table: access types (R9). -/
inductive Access where
  | rw | ro | w1c | w1s | rc | wo | rws | rwl
  deriving DecidableEq, Repr

/-- The block that owns the RWL fields of a register (R10), as the chapter of the register names it. -/
inductive Owner where
  | none | mire | lodesOfGroup | lodeOfChannel | lodeOfRow | lodeOfSchedule | lodeOfSpread | lodeOfGain
  | sedgeBank | screenSlot | limiterWeights | limiterCap | hub | camera | queue | eventRing | ledgerGroup | mirror
  | memory | quad | lane | ethPort | ethQueue | encoder | generator | axis | loop | loopBank | loopBiquad
  | sensorPort | sensorSlot | pinBank
  deriving DecidableEq, Repr

/-- Whether a register is a whole register or half of a 64-bit pair (R11). -/
inductive Half where
  | whole | lo | hi
  deriving DecidableEq, Repr

/-- One field of a register table: its lowest bit, its width, its access type and its reset value. -/
structure FieldDef where
  lo : Nat
  width : Nat
  access : Access
  reset : Nat
  deriving DecidableEq, Repr

/-- One register or register array: element `i` stands at `base + stride * i` for `i` below `count`. -/
structure RegDef where
  base : Nat
  stride : Nat
  count : Nat
  half : Half
  owner : Owner
  fields : List FieldDef
  deriving DecidableEq, Repr

/-- A named field: element `i` holds it at bits `lo` to `lo + width - 1` of the register at `base + stride * i`. -/
structure Fld where
  base : Nat
  stride : Nat
  lo : Nat
  width : Nat
  deriving DecidableEq, Repr

/-- A named 64-bit pair: element `i` has its low half at `base + stride * i` and its high half 4 above (R468). -/
structure Pair where
  base : Nat
  stride : Nat
  deriving DecidableEq, Repr

end Sys2Proof.Machine
end

