-- ==== Sys2Proof/Machine/Fields.lean ====
section
/-!
DEFINITION. The named fields of every register of the register tables (R466 to R469), one `Fld` a field and one
`Pair` a 64-bit pair, block by block. A name is BLOCK.REGISTER_FIELD; an offset is the register's home in PF0 BAR0.
-/

namespace Sys2Proof.Machine.GLB

-- GLB.PROFILE
def PROFILE : Fld := ⟨0x0, 4, 0, 32⟩
def PROFILE_STRAP : Fld := ⟨0x0, 4, 0, 1⟩
def PROFILE_PIN : Fld := ⟨0x0, 4, 1, 1⟩
def PROFILE_STATE : Fld := ⟨0x0, 4, 2, 2⟩
def PROFILE_VCORE_LOW : Fld := ⟨0x0, 4, 4, 1⟩
def PROFILE_REQ_DIFF : Fld := ⟨0x0, 4, 5, 1⟩
def PROFILE_LATE_WR : Fld := ⟨0x0, 4, 6, 1⟩
def PROFILE_REQ : Fld := ⟨0x0, 4, 8, 1⟩
def PROFILE_KEY : Fld := ⟨0x0, 4, 16, 8⟩
-- GLB.ID
def ID : Fld := ⟨0x40, 4, 0, 32⟩
def ID_VENDOR : Fld := ⟨0x40, 4, 0, 16⟩
def ID_PART : Fld := ⟨0x40, 4, 16, 8⟩
def ID_STEPMAJ : Fld := ⟨0x40, 4, 24, 4⟩
def ID_STEPMIN : Fld := ⟨0x40, 4, 28, 4⟩
-- GLB.UID_LO, _HI
def UID : Pair := ⟨0x80, 8⟩
-- GLB.STRAPS
def STRAPS : Fld := ⟨0xC0, 4, 0, 32⟩
def STRAPS_BOOT_SRC : Fld := ⟨0xC0, 4, 0, 2⟩
def STRAPS_PROFILE : Fld := ⟨0xC0, 4, 2, 1⟩
def STRAPS_TWIN_EN : Fld := ⟨0xC0, 4, 3, 1⟩
def STRAPS_UNIT_ID : Fld := ⟨0xC0, 4, 4, 1⟩
def STRAPS_PREFERRED : Fld := ⟨0xC0, 4, 5, 1⟩
-- GLB.RST
def RST : Fld := ⟨0x100, 4, 0, 32⟩
def RST_WARM : Fld := ⟨0x100, 4, 0, 1⟩
def RST_OUTREL : Fld := ⟨0x100, 4, 1, 1⟩
def RST_OUTSTAT : Fld := ⟨0x100, 4, 2, 1⟩
def RST_KEY : Fld := ⟨0x100, 4, 8, 8⟩
-- GLB.RSTCAUSE
def RSTCAUSE : Fld := ⟨0x140, 4, 0, 32⟩
def RSTCAUSE_CAUSE : Fld := ⟨0x140, 4, 0, 3⟩
-- GLB.ACCERR
def ACCERR : Fld := ⟨0x180, 4, 0, 32⟩
def ACCERR_RWL_IGN : Fld := ⟨0x180, 4, 0, 1⟩
def ACCERR_MULTI : Fld := ⟨0x180, 4, 1, 1⟩
-- GLB.ACCERR_ADDR
def ACCERR_ADDR : Fld := ⟨0x1C0, 4, 0, 32⟩
def ACCERR_ADDR_OFFSET : Fld := ⟨0x1C0, 4, 0, 26⟩
-- GLB.BRST
def BRST : Fld := ⟨0x200, 4, 0, 32⟩
def BRST_MER : Fld := ⟨0x200, 4, 0, 1⟩
def BRST_ETH : Fld := ⟨0x200, 4, 1, 1⟩
def BRST_MOTION : Fld := ⟨0x200, 4, 2, 1⟩
def BRST_SLC : Fld := ⟨0x200, 4, 3, 1⟩
def BRST_PRINT : Fld := ⟨0x200, 4, 4, 1⟩
def BRST_DLK : Fld := ⟨0x200, 4, 5, 1⟩
-- GLB.BRSTREF
def BRSTREF : Fld := ⟨0x240, 4, 0, 32⟩
def BRSTREF_MER : Fld := ⟨0x240, 4, 0, 1⟩
def BRSTREF_ETH : Fld := ⟨0x240, 4, 1, 1⟩
def BRSTREF_MOTION : Fld := ⟨0x240, 4, 2, 1⟩
def BRSTREF_SLC : Fld := ⟨0x240, 4, 3, 1⟩
def BRSTREF_PRINT : Fld := ⟨0x240, 4, 4, 1⟩
def BRSTREF_DLK : Fld := ⟨0x240, 4, 5, 1⟩

end Sys2Proof.Machine.GLB

namespace Sys2Proof.Machine.PWR

-- PWR.DOM
def DOM : Fld := ⟨0x100000, 4, 0, 32⟩
def DOM_HOLD : Fld := ⟨0x100000, 4, 0, 16⟩
def DOM_RETEN : Fld := ⟨0x100000, 4, 16, 1⟩
def DOM_FORCEON : Fld := ⟨0x100000, 4, 17, 1⟩
-- PWR.DSTAT
def DSTAT : Fld := ⟨0x100040, 4, 0, 32⟩
def DSTAT_STATE : Fld := ⟨0x100040, 4, 0, 3⟩
-- PWR.WAKECNT
def WAKECNT : Fld := ⟨0x100080, 4, 0, 32⟩
-- PWR.CFG
def CFG : Fld := ⟨0x1000C0, 4, 0, 32⟩
def CFG_DEEPEN : Fld := ⟨0x1000C0, 4, 0, 1⟩
-- PWR.WAKESRC
def WAKESRC : Fld := ⟨0x100100, 4, 0, 32⟩
def WAKESRC_TIMER : Fld := ⟨0x100100, 4, 0, 1⟩
def WAKESRC_I2C : Fld := ⟨0x100100, 4, 1, 1⟩
def WAKESRC_HB : Fld := ⟨0x100100, 4, 2, 1⟩
def WAKESRC_CLKREQ : Fld := ⟨0x100100, 4, 3, 1⟩
def WAKESRC_GPIO : Fld := ⟨0x100100, 4, 4, 1⟩
def WAKESRC_THERMAL : Fld := ⟨0x100100, 4, 5, 1⟩
-- PWR.WAKEGPIO
def WAKEGPIO : Fld := ⟨0x100140, 4, 0, 32⟩
-- PWR.SLEEPTMR
def SLEEPTMR : Fld := ⟨0x100180, 4, 0, 32⟩
-- PWR.LASTWAKE
def LASTWAKE : Fld := ⟨0x1001C0, 4, 0, 32⟩
def LASTWAKE_SRC : Fld := ⟨0x1001C0, 4, 0, 3⟩

end Sys2Proof.Machine.PWR

namespace Sys2Proof.Machine.THM

-- THM.THRESH
def THRESH : Fld := ⟨0x200000, 4, 0, 32⟩
def THRESH_WARN : Fld := ⟨0x200000, 4, 0, 8⟩
def THRESH_THROTTLE : Fld := ⟨0x200000, 4, 8, 8⟩
def THRESH_CRITICAL : Fld := ⟨0x200000, 4, 16, 8⟩
-- THM.POLICY
def POLICY : Fld := ⟨0x200040, 4, 0, 32⟩
def POLICY_PRINT_FLOOR : Fld := ⟨0x200040, 4, 0, 1⟩
def POLICY_PSKIP : Fld := ⟨0x200040, 4, 1, 4⟩
def POLICY_CSKIP : Fld := ⟨0x200040, 4, 5, 4⟩
def POLICY_GRACE : Fld := ⟨0x200040, 4, 9, 16⟩
-- THM.TEMP
def TEMP : Fld := ⟨0x200080, 4, 0, 32⟩
def TEMP_T : Fld := ⟨0x200080, 4, 0, 16⟩
def TEMP_BROKEN : Fld := ⟨0x200080, 4, 16, 1⟩
def TEMP_RETIRED : Fld := ⟨0x200080, 4, 17, 1⟩
def TEMP_CAUSE : Fld := ⟨0x200080, 4, 18, 2⟩
-- THM.RETIRE
def RETIRE : Fld := ⟨0x200100, 4, 0, 32⟩
def RETIRE_MASK : Fld := ⟨0x200100, 4, 0, 24⟩
-- THM.ZSTAT
def ZSTAT : Fld := ⟨0x200140, 4, 0, 32⟩
def ZSTAT_T : Fld := ⟨0x200140, 4, 0, 16⟩
def ZSTAT_LEVEL : Fld := ⟨0x200140, 4, 16, 2⟩
def ZSTAT_SKIP : Fld := ⟨0x200140, 4, 18, 1⟩
def ZSTAT_GRACE : Fld := ⟨0x200140, 4, 19, 1⟩
-- THM.TREQ
def TREQ : Fld := ⟨0x200180, 4, 0, 32⟩
def TREQ_RATE : Fld := ⟨0x200180, 4, 0, 20⟩
-- THM.STAT
def STAT : Fld := ⟨0x2001C0, 4, 0, 32⟩
def STAT_TRIPPED : Fld := ⟨0x2001C0, 4, 0, 1⟩
def STAT_FAST : Fld := ⟨0x2001C0, 4, 1, 1⟩
def STAT_TRIPZONE : Fld := ⟨0x2001C0, 4, 4, 4⟩
-- THM.ERR
def ERR : Fld := ⟨0x200200, 4, 0, 32⟩
def ERR_THRESH : Fld := ⟨0x200200, 4, 0, 1⟩
def ERR_RETIRE_REF : Fld := ⟨0x200200, 4, 1, 1⟩

end Sys2Proof.Machine.THM

namespace Sys2Proof.Machine.CRS

-- CRS.PLLSTAT
def PLLSTAT : Fld := ⟨0x300000, 4, 0, 32⟩
def PLLSTAT_LOCK : Fld := ⟨0x300000, 4, 0, 6⟩
-- CRS.CLKERR
def CLKERR : Fld := ⟨0x300040, 4, 0, 32⟩
def CLKERR_SYSLOST : Fld := ⟨0x300040, 4, 0, 1⟩
def CLKERR_PLLFAIL : Fld := ⟨0x300040, 4, 1, 6⟩

end Sys2Proof.Machine.CRS

namespace Sys2Proof.Machine.CWY

-- CWY.DBGCTL
def DBGCTL : Fld := ⟨0x400000, 4, 0, 32⟩
def DBGCTL_HALT : Fld := ⟨0x400000, 4, 0, 1⟩
def DBGCTL_RESUME : Fld := ⟨0x400000, 4, 1, 1⟩
def DBGCTL_STEP : Fld := ⟨0x400000, 4, 2, 1⟩
def DBGCTL_CATCH : Fld := ⟨0x400000, 4, 3, 1⟩
def DBGCTL_HALTED : Fld := ⟨0x400000, 4, 4, 1⟩
def DBGCTL_REFUSED : Fld := ⟨0x400000, 4, 5, 1⟩
-- CWY.DBGSEL
def DBGSEL : Fld := ⟨0x400040, 4, 0, 32⟩
def DBGSEL_REG : Fld := ⟨0x400040, 4, 0, 7⟩
-- CWY.DBGDATA_LO, _HI
def DBGDATA : Pair := ⟨0x400080, 8⟩
-- CWY.DBGBP
def DBGBP : Fld := ⟨0x400100, 4, 0, 32⟩
def DBGBP_OFFSET : Fld := ⟨0x400100, 4, 0, 24⟩
def DBGBP_EN : Fld := ⟨0x400100, 4, 31, 1⟩
-- CWY.TSTAT
def TSTAT : Fld := ⟨0x400200, 4, 0, 32⟩
def TSTAT_STATE : Fld := ⟨0x400200, 4, 0, 2⟩
def TSTAT_CODE : Fld := ⟨0x400200, 4, 8, 8⟩
def TSTAT_QUEUE : Fld := ⟨0x400200, 4, 16, 6⟩
def TSTAT_BOUND : Fld := ⟨0x400200, 4, 22, 1⟩
-- CWY.TCTL
def TCTL : Fld := ⟨0x400240, 4, 0, 32⟩
def TCTL_CLEAR : Fld := ⟨0x400240, 4, 0, 1⟩
-- CWY.FAULTPC_LO, _HI
def FAULTPC : Pair := ⟨0x400280, 8⟩
-- CWY.FAULTADDR_LO, _HI
def FAULTADDR : Pair := ⟨0x400300, 8⟩

end Sys2Proof.Machine.CWY

namespace Sys2Proof.Machine.RDC

-- RDC.DBGCTL
def DBGCTL : Fld := ⟨0x800000, 65536, 0, 32⟩
def DBGCTL_HALT : Fld := ⟨0x800000, 65536, 0, 1⟩
def DBGCTL_RESUME : Fld := ⟨0x800000, 65536, 1, 1⟩
def DBGCTL_STEP : Fld := ⟨0x800000, 65536, 2, 1⟩
def DBGCTL_CATCH : Fld := ⟨0x800000, 65536, 3, 1⟩
def DBGCTL_HALTED : Fld := ⟨0x800000, 65536, 4, 1⟩
def DBGCTL_REFUSED : Fld := ⟨0x800000, 65536, 5, 1⟩
-- RDC.DBGSEL
def DBGSEL : Fld := ⟨0x800040, 65536, 0, 32⟩
def DBGSEL_REG : Fld := ⟨0x800040, 65536, 0, 7⟩
-- RDC.DBGDATA_LO, _HI
def DBGDATA : Pair := ⟨0x800080, 65536⟩
-- RDC.DBGBP
def DBGBP0 : Fld := ⟨0x8000C0, 65536, 0, 32⟩
def DBGBP0_OFFSET : Fld := ⟨0x8000C0, 65536, 0, 24⟩
def DBGBP0_EN : Fld := ⟨0x8000C0, 65536, 31, 1⟩
def DBGBP1 : Fld := ⟨0x8000C4, 65536, 0, 32⟩
def DBGBP1_OFFSET : Fld := ⟨0x8000C4, 65536, 0, 24⟩
def DBGBP1_EN : Fld := ⟨0x8000C4, 65536, 31, 1⟩
def DBGBP2 : Fld := ⟨0x8000C8, 65536, 0, 32⟩
def DBGBP2_OFFSET : Fld := ⟨0x8000C8, 65536, 0, 24⟩
def DBGBP2_EN : Fld := ⟨0x8000C8, 65536, 31, 1⟩
def DBGBP3 : Fld := ⟨0x8000CC, 65536, 0, 32⟩
def DBGBP3_OFFSET : Fld := ⟨0x8000CC, 65536, 0, 24⟩
def DBGBP3_EN : Fld := ⟨0x8000CC, 65536, 31, 1⟩
-- RDC.STAT
def STAT : Fld := ⟨0x800100, 65536, 0, 32⟩
def STAT_STATE : Fld := ⟨0x800100, 65536, 0, 3⟩
def STAT_LREF : Fld := ⟨0x800100, 65536, 3, 1⟩
def STAT_LCODE : Fld := ⟨0x800100, 65536, 4, 4⟩
def STAT_CODE : Fld := ⟨0x800100, 65536, 8, 8⟩
-- RDC.CTL
def CTL : Fld := ⟨0x800140, 65536, 0, 32⟩
def CTL_RUN : Fld := ⟨0x800140, 65536, 0, 1⟩
def CTL_LOAD : Fld := ⟨0x800140, 65536, 1, 1⟩
def CTL_DOORBELL : Fld := ⟨0x800140, 65536, 2, 1⟩
-- RDC.EXITVAL
def EXITVAL : Fld := ⟨0x800180, 65536, 0, 32⟩
-- RDC.IMG_LO, _HI
def IMG : Pair := ⟨0x8001C0, 65536⟩
-- RDC.FAULTPC_LO, _HI
def FAULTPC : Pair := ⟨0x800200, 65536⟩
-- RDC.FAULTADDR_LO, _HI
def FAULTADDR : Pair := ⟨0x800240, 65536⟩

end Sys2Proof.Machine.RDC

namespace Sys2Proof.Machine.LDG

-- LDG.CFG
def CFG : Fld := ⟨0xC00000, 4, 0, 32⟩
def CFG_PRELEAD : Fld := ⟨0xC00000, 4, 0, 10⟩
def CFG_RETRY : Fld := ⟨0xC00000, 4, 16, 8⟩
-- LDG.POLICY
def POLICY : Fld := ⟨0xC00040, 4, 0, 32⟩
def POLICY_APPEND : Fld := ⟨0xC00040, 4, 0, 1⟩
-- LDG.MIRBASE_LO, _HI
def MIRBASE : Pair := ⟨0xC00080, 8⟩
-- LDG.MIRCFG
def MIRCFG : Fld := ⟨0xC000C0, 4, 0, 32⟩
def MIRCFG_EN : Fld := ⟨0xC000C0, 4, 0, 1⟩
-- LDG.NEXTFSN_LO, _HI
def NEXTFSN : Pair := ⟨0xC00100, 8⟩
-- LDG.OLDEST_LO, _HI
def OLDEST : Pair := ⟨0xC00140, 8⟩
-- LDG.HALTFSN_LO, _HI
def HALTFSN : Pair := ⟨0xC00180, 8⟩
-- LDG.GBFROM_LO, _HI
def GBFROM : Pair := ⟨0xC001C0, 8⟩
-- LDG.GBTO_LO, _HI
def GBTO : Pair := ⟨0xC00200, 8⟩
-- LDG.STAT
def STAT : Fld := ⟨0xC00240, 4, 0, 32⟩
def STAT_STATE : Fld := ⟨0xC00240, 4, 0, 2⟩
def STAT_RECOVERING : Fld := ⟨0xC00240, 4, 2, 1⟩
def STAT_GOBACK : Fld := ⟨0xC00240, 4, 3, 1⟩
-- LDG.MIRLAG
def MIRLAG : Fld := ⟨0xC00280, 4, 0, 32⟩
-- LDG.MARKCFG
def MARKCFG : Fld := ⟨0xC002C0, 4, 0, 32⟩
def MARKCFG_STRIPE : Fld := ⟨0xC002C0, 4, 0, 1⟩
def MARKCFG_MARKER : Fld := ⟨0xC002C0, 4, 1, 2⟩
def MARKCFG_ROW : Fld := ⟨0xC002C0, 4, 3, 7⟩
def MARKCFG_SLEV : Fld := ⟨0xC002C0, 4, 10, 3⟩
def MARKCFG_MLINE : Fld := ⟨0xC002C0, 4, 16, 16⟩
-- LDG.STRIPE
def STRIPE : Fld := ⟨0xC00300, 4, 0, 32⟩
def STRIPE_FIRST : Fld := ⟨0xC00300, 4, 0, 16⟩
def STRIPE_WIDTH : Fld := ⟨0xC00300, 4, 16, 16⟩
-- LDG.RESOLVE
def RESOLVE : Fld := ⟨0xC00340, 4, 0, 32⟩
def RESOLVE_DISP : Fld := ⟨0xC00340, 4, 0, 2⟩
def RESOLVE_GO : Fld := ⟨0xC00340, 4, 2, 1⟩
-- LDG.CNT
def CNT : Fld := ⟨0xC00380, 4, 0, 32⟩
-- LDG.ERR
def ERR : Fld := ⟨0xC003C0, 4, 0, 32⟩
def ERR_MIRROR : Fld := ⟨0xC003C0, 4, 0, 1⟩
def ERR_RELEASE_LATE : Fld := ⟨0xC003C0, 4, 1, 1⟩
def ERR_COPY_REPAIR : Fld := ⟨0xC003C0, 4, 2, 1⟩
def ERR_HALT : Fld := ⟨0xC003C0, 4, 3, 1⟩
def ERR_SEED_IGN : Fld := ⟨0xC003C0, 4, 4, 1⟩
def ERR_MIR_OFF_REF : Fld := ⟨0xC003C0, 4, 5, 1⟩
def ERR_MARK_LATE : Fld := ⟨0xC003C0, 4, 6, 1⟩

end Sys2Proof.Machine.LDG

namespace Sys2Proof.Machine.TWN

-- TWN.CFG
def CFG : Fld := ⟨0xD00000, 4, 0, 32⟩
def CFG_TMWAIT : Fld := ⟨0xD00000, 4, 0, 8⟩
def CFG_MATCHTO : Fld := ⟨0xD00000, 4, 8, 8⟩
def CFG_GUARD : Fld := ⟨0xD00000, 4, 16, 8⟩
def CFG_SERVEBOOT : Fld := ⟨0xD00000, 4, 24, 1⟩
-- TWN.CTL
def CTL : Fld := ⟨0xD00040, 4, 0, 32⟩
def CTL_PAIR : Fld := ⟨0xD00040, 4, 0, 1⟩
def CTL_REJOIN : Fld := ⟨0xD00040, 4, 1, 1⟩
def CTL_PRESET : Fld := ⟨0xD00040, 4, 2, 1⟩
def CTL_KEY : Fld := ⟨0xD00040, 4, 8, 8⟩
-- TWN.STAT
def STAT : Fld := ⟨0xD00080, 4, 0, 32⟩
def STAT_STATE : Fld := ⟨0xD00080, 4, 0, 3⟩
def STAT_CODE : Fld := ⟨0xD00080, 4, 3, 4⟩
def STAT_PLINK : Fld := ⟨0xD00080, 4, 7, 1⟩
def STAT_PHB : Fld := ⟨0xD00080, 4, 8, 1⟩
def STAT_UNIT_ID : Fld := ⟨0xD00080, 4, 9, 1⟩
def STAT_PREFERRED : Fld := ⟨0xD00080, 4, 10, 1⟩
def STAT_TWIN_EN : Fld := ⟨0xD00080, 4, 11, 1⟩
-- TWN.CLAIM
def CLAIM : Fld := ⟨0xD000C0, 4, 0, 32⟩
-- TWN.PCLAIM
def PCLAIM : Fld := ⟨0xD00100, 4, 0, 32⟩
-- TWN.HBAGE
def HBAGE : Fld := ⟨0xD00140, 4, 0, 32⟩
def HBAGE_LINK : Fld := ⟨0xD00140, 4, 0, 16⟩
def HBAGE_BACKUP : Fld := ⟨0xD00140, 4, 16, 16⟩
-- TWN.DIV
def DIV : Fld := ⟨0xD00180, 4, 0, 32⟩
def DIV_CAUSE : Fld := ⟨0xD00180, 4, 0, 4⟩
def DIV_DETAIL : Fld := ⟨0xD00180, 4, 8, 24⟩
-- TWN.JOINQ
def JOINQ : Fld := ⟨0xD001C0, 4, 0, 32⟩
-- TWN.TABSUM_LO, _HI
def TABSUM : Pair := ⟨0xD002C0, 8⟩
-- TWN.CNT
def CNT : Fld := ⟨0xD00300, 4, 0, 32⟩
-- TWN.ERR
def ERR : Fld := ⟨0xD00340, 4, 0, 32⟩
def ERR_PATH : Fld := ⟨0xD00340, 4, 0, 1⟩
def ERR_LOST : Fld := ⟨0xD00340, 4, 1, 1⟩
def ERR_DIVERGE : Fld := ⟨0xD00340, 4, 2, 1⟩
def ERR_PRESET_REF : Fld := ⟨0xD00340, 4, 3, 1⟩
def ERR_FORMAT : Fld := ⟨0xD00340, 4, 4, 1⟩
def ERR_QUORUM : Fld := ⟨0xD00340, 4, 5, 1⟩
def ERR_STEPDOWN : Fld := ⟨0xD00340, 4, 6, 1⟩

end Sys2Proof.Machine.TWN

namespace Sys2Proof.Machine.SLC

-- SLC.MIREBASE
def MIREBASE : Fld := ⟨0x1000000, 4, 0, 32⟩
def MIREBASE_BASE : Fld := ⟨0x1000000, 4, 0, 18⟩
-- SLC.MIRESIZE
def MIRESIZE : Fld := ⟨0x1000040, 4, 0, 32⟩
def MIRESIZE_SIZE : Fld := ⟨0x1000040, 4, 0, 18⟩
-- SLC.MIRECTL
def MIRECTL : Fld := ⟨0x1000080, 4, 0, 32⟩
def MIRECTL_LOCK : Fld := ⟨0x1000080, 4, 0, 1⟩
def MIRECTL_UNLOCK : Fld := ⟨0x1000080, 4, 1, 1⟩
def MIRECTL_STATE : Fld := ⟨0x1000080, 4, 2, 2⟩
def MIRECTL_CODE : Fld := ⟨0x1000080, 4, 4, 4⟩
def MIRECTL_INDEX : Fld := ⟨0x1000080, 4, 8, 4⟩
def MIRECTL_UNLOCK_REF : Fld := ⟨0x1000080, 4, 12, 1⟩
-- SLC.POOL
def POOL : Fld := ⟨0x10000C0, 4, 0, 32⟩
def POOL_FREE : Fld := ⟨0x10000C0, 4, 0, 24⟩
-- SLC.BANDS
def BANDS : Fld := ⟨0x1000100, 4, 0, 32⟩
def BANDS_FREE : Fld := ⟨0x1000100, 4, 0, 14⟩
def BANDS_WAITING : Fld := ⟨0x1000100, 4, 14, 1⟩
-- SLC.DICTSTAT
def DICTSTAT : Fld := ⟨0x1000140, 4, 0, 32⟩
def DICTSTAT_LEN : Fld := ⟨0x1000140, 4, 0, 16⟩
def DICTSTAT_VALID : Fld := ⟨0x1000140, 4, 16, 1⟩
def DICTSTAT_LOADING : Fld := ⟨0x1000140, 4, 17, 1⟩
def DICTSTAT_REFS : Fld := ⟨0x1000140, 4, 18, 14⟩
-- SLC.DICTADLER
def DICTADLER : Fld := ⟨0x1000180, 4, 0, 32⟩
-- SLC.IENG
def IENG : Fld := ⟨0x10001C0, 4, 0, 32⟩
def IENG_BUSY : Fld := ⟨0x10001C0, 4, 0, 1⟩
def IENG_PLANE : Fld := ⟨0x10001C0, 4, 1, 2⟩
def IENG_JOB : Fld := ⟨0x10001C0, 4, 3, 1⟩
def IENG_BAND : Fld := ⟨0x10001C0, 4, 4, 13⟩
def IENG_LINE : Fld := ⟨0x10001C0, 4, 17, 12⟩
def IENG_LEAD : Fld := ⟨0x10001C0, 4, 29, 3⟩
-- SLC.DENG
def DENG : Fld := ⟨0x1000200, 4, 0, 32⟩
def DENG_BUSY : Fld := ⟨0x1000200, 4, 0, 1⟩
def DENG_KIND : Fld := ⟨0x1000200, 4, 1, 1⟩
def DENG_LEVEL : Fld := ⟨0x1000200, 4, 2, 4⟩
-- SLC.ERR
def ERR : Fld := ⟨0x1000240, 4, 0, 32⟩
def ERR_CRC : Fld := ⟨0x1000240, 4, 0, 1⟩
def ERR_STREAM : Fld := ⟨0x1000240, 4, 1, 1⟩
def ERR_LENGTH : Fld := ⟨0x1000240, 4, 2, 1⟩
def ERR_POISON : Fld := ⟨0x1000240, 4, 3, 1⟩
def ERR_SOURCE : Fld := ⟨0x1000240, 4, 4, 1⟩
def ERR_REFETCH_FAIL : Fld := ⟨0x1000240, 4, 5, 1⟩
def ERR_DICT : Fld := ⟨0x1000240, 4, 6, 1⟩
-- SLC.ERRBAND
def ERRBAND : Fld := ⟨0x1000280, 4, 0, 32⟩
def ERRBAND_BAND : Fld := ⟨0x1000280, 4, 0, 13⟩
def ERRBAND_CODE : Fld := ⟨0x1000280, 4, 16, 4⟩
-- SLC.CFG
def CFG : Fld := ⟨0x10002C0, 4, 0, 32⟩
def CFG_VERIFY_ALL : Fld := ⟨0x10002C0, 4, 0, 1⟩
def CFG_REFETCH_MAX : Fld := ⟨0x10002C0, 4, 1, 3⟩

end Sys2Proof.Machine.SLC

namespace Sys2Proof.Machine.SDG

-- SDG.CHCFG
def CHCFG : Fld := ⟨0x1400000, 4, 0, 32⟩
def CHCFG_UPMODE : Fld := ⟨0x1400000, 4, 0, 1⟩
-- SDG.CHSTAT
def CHSTAT : Fld := ⟨0x1400040, 4, 0, 32⟩
def CHSTAT_ACTIVE : Fld := ⟨0x1400040, 4, 0, 2⟩
def CHSTAT_PENDING : Fld := ⟨0x1400040, 4, 2, 1⟩
def CHSTAT_PBANK : Fld := ⟨0x1400040, 4, 3, 1⟩
-- SDG.PENDLINE_LO, _HI
def PENDLINE : Pair := ⟨0x1400080, 8⟩
-- SDG.LASTLINE_LO, _HI
def LASTLINE : Pair := ⟨0x14000C0, 8⟩
-- SDG.TAGCFG
def TAGCFG : Fld := ⟨0x1400100, 4, 0, 32⟩
def TAGCFG_TSCR : Fld := ⟨0x1400100, 4, 0, 2⟩
def TAGCFG_ESCR : Fld := ⟨0x1400100, 4, 2, 2⟩
def TAGCFG_ESEN : Fld := ⟨0x1400100, 4, 4, 1⟩
def TAGCFG_EMODE : Fld := ⟨0x1400100, 4, 5, 2⟩
def TAGCFG_EL : Fld := ⟨0x1400100, 4, 16, 12⟩
-- SDG.SCRMAP
def SCRMAP : Fld := ⟨0x1400200, 4, 0, 32⟩
def SCRMAP_SLOT : Fld := ⟨0x1400200, 4, 0, 5⟩
def SCRMAP_ANCHOR : Fld := ⟨0x1400200, 4, 5, 1⟩
def SCRMAP_OX : Fld := ⟨0x1400200, 4, 8, 8⟩
def SCRMAP_OY : Fld := ⟨0x1400200, 4, 16, 8⟩
-- SDG.SLOTCFG
def SLOTCFG : Fld := ⟨0x1400300, 4, 0, 32⟩
def SLOTCFG_W : Fld := ⟨0x1400300, 4, 0, 8⟩
def SLOTCFG_HT : Fld := ⟨0x1400300, 4, 8, 8⟩
def SLOTCFG_VALID : Fld := ⟨0x1400300, 4, 31, 1⟩
-- SDG.DEQ
def DEQ : Fld := ⟨0x1400380, 4, 0, 32⟩
def DEQ_EQ : Fld := ⟨0x1400380, 4, 0, 12⟩
-- SDG.INKW
def INKW : Fld := ⟨0x1400480, 4, 0, 32⟩
def INKW_W0 : Fld := ⟨0x1400480, 4, 0, 8⟩
def INKW_W1 : Fld := ⟨0x1400480, 4, 8, 8⟩
def INKW_W2 : Fld := ⟨0x1400480, 4, 16, 8⟩
def INKW_W3 : Fld := ⟨0x1400480, 4, 24, 8⟩
-- SDG.INKCAP
def INKCAP : Fld := ⟨0x14004C0, 4, 0, 32⟩
def INKCAP_LIMIT : Fld := ⟨0x14004C0, 4, 0, 24⟩
def INKCAP_PROT : Fld := ⟨0x14004C0, 4, 24, 8⟩
-- SDG.INKSTAT
def INKSTAT : Fld := ⟨0x1400500, 4, 0, 32⟩
def INKSTAT_ACTIVE : Fld := ⟨0x1400500, 4, 0, 1⟩
def INKSTAT_PENDING : Fld := ⟨0x1400500, 4, 1, 1⟩
-- SDG.INKCNT
def INKCNT : Fld := ⟨0x1400540, 4, 0, 32⟩
-- SDG.INKOVR
def INKOVR : Fld := ⟨0x1400580, 4, 0, 32⟩
-- SDG.ERR
def ERR : Fld := ⟨0x14005C0, 4, 0, 32⟩
def ERR_INUSE_WR : Fld := ⟨0x14005C0, 4, 0, 1⟩
def ERR_WIDTH : Fld := ⟨0x14005C0, 4, 1, 1⟩
def ERR_MULTI : Fld := ⟨0x14005C0, 4, 2, 1⟩
def ERR_MAPS_LOST : Fld := ⟨0x14005C0, 4, 3, 1⟩
def ERR_NO_SCREEN : Fld := ⟨0x14005C0, 4, 4, 1⟩
def ERR_BANK : Fld := ⟨0x14005C0, 4, 5, 1⟩
def ERR_BANKCH : Fld := ⟨0x14005C0, 4, 8, 3⟩
-- SDG.ERRADDR_LO, _HI
def ERRADDR : Pair := ⟨0x1400600, 8⟩

end Sys2Proof.Machine.SDG

namespace Sys2Proof.Machine.HMK

-- HMK.SCHCFG
def SCHCFG : Fld := ⟨0x1800000, 4, 0, 32⟩
def SCHCFG_MLINES : Fld := ⟨0x1800000, 4, 0, 5⟩
def SCHCFG_STRIKES : Fld := ⟨0x1800000, 4, 5, 2⟩
-- HMK.SCHSLOT
def SCHSLOT : Fld := ⟨0x1800040, 4, 0, 32⟩
def SCHSLOT_ROW : Fld := ⟨0x1800040, 4, 0, 7⟩
def SCHSLOT_LINE : Fld := ⟨0x1800040, 4, 8, 5⟩
def SCHSLOT_STRIKE : Fld := ⟨0x1800040, 4, 16, 2⟩
-- HMK.CHCFG
def CHCFG : Fld := ⟨0x1800440, 4, 0, 32⟩
def CHCFG_SUBEN : Fld := ⟨0x1800440, 4, 0, 1⟩
def CHCFG_SPREADEN : Fld := ⟨0x1800440, 4, 1, 1⟩
def CHCFG_BLEND : Fld := ⟨0x1800440, 4, 2, 1⟩
def CHCFG_WEAKPOL : Fld := ⟨0x1800440, 4, 3, 1⟩
def CHCFG_DEVPOL : Fld := ⟨0x1800440, 4, 4, 1⟩
def CHCFG_LOSTSPOIL : Fld := ⟨0x1800440, 4, 5, 1⟩
-- HMK.GAINMAP
def GAINMAP : Fld := ⟨0x1800480, 4, 0, 32⟩
def GAINMAP_LV0 : Fld := ⟨0x1800480, 4, 0, 3⟩
def GAINMAP_LV1 : Fld := ⟨0x1800480, 4, 3, 3⟩
def GAINMAP_LV2 : Fld := ⟨0x1800480, 4, 6, 3⟩
def GAINMAP_LV3 : Fld := ⟨0x1800480, 4, 9, 3⟩
def GAINMAP_LV4 : Fld := ⟨0x1800480, 4, 12, 3⟩
def GAINMAP_LV5 : Fld := ⟨0x1800480, 4, 15, 3⟩
def GAINMAP_LV6 : Fld := ⟨0x1800480, 4, 18, 3⟩
def GAINMAP_LV7 : Fld := ⟨0x1800480, 4, 21, 3⟩
-- HMK.SPREAD
def SPREAD : Fld := ⟨0x1800C80, 4, 0, 32⟩
def SPREAD_D0 : Fld := ⟨0x1800C80, 4, 0, 3⟩
def SPREAD_D1 : Fld := ⟨0x1800C80, 4, 3, 3⟩
def SPREAD_D2 : Fld := ⟨0x1800C80, 4, 6, 3⟩
def SPREAD_D3 : Fld := ⟨0x1800C80, 4, 9, 3⟩
def SPREAD_D4 : Fld := ⟨0x1800C80, 4, 12, 3⟩
def SPREAD_D5 : Fld := ⟨0x1800C80, 4, 15, 3⟩
def SPREAD_D6 : Fld := ⟨0x1800C80, 4, 18, 3⟩
def SPREAD_D7 : Fld := ⟨0x1800C80, 4, 21, 3⟩
-- HMK.CFG
def CFG : Fld := ⟨0x1800D80, 4, 0, 32⟩
def CFG_LEAD : Fld := ⟨0x1800D80, 4, 0, 16⟩
-- HMK.LASTLINE_LO, _HI
def LASTLINE : Pair := ⟨0x1800DC0, 8⟩
-- HMK.UPDSTAT
def UPDSTAT : Fld := ⟨0x1800E00, 4, 0, 32⟩
def UPDSTAT_PENDING : Fld := ⟨0x1800E00, 4, 0, 13⟩
-- HMK.FBCNT
def FBCNT : Fld := ⟨0x1800E40, 4, 0, 32⟩
-- HMK.SUBCNT
def SUBCNT : Fld := ⟨0x1800E80, 4, 0, 32⟩
-- HMK.SPRCNT
def SPRCNT : Fld := ⟨0x1800EC0, 4, 0, 32⟩
-- HMK.LOSTCNT
def LOSTCNT : Fld := ⟨0x1800F00, 4, 0, 32⟩
-- HMK.RELOAD
def RELOAD : Fld := ⟨0x1800F40, 4, 0, 32⟩
def RELOAD_FIRSTROW : Fld := ⟨0x1800F40, 4, 0, 7⟩
def RELOAD_LASTROW : Fld := ⟨0x1800F40, 4, 8, 7⟩
def RELOAD_START : Fld := ⟨0x1800F40, 4, 16, 1⟩
def RELOAD_BUSY : Fld := ⟨0x1800F40, 4, 17, 1⟩
def RELOAD_REFUSED : Fld := ⟨0x1800F40, 4, 18, 1⟩
-- HMK.STAT
def STAT : Fld := ⟨0x1800F80, 4, 0, 32⟩
def STAT_REBUILD : Fld := ⟨0x1800F80, 4, 0, 1⟩
def STAT_FROZEN : Fld := ⟨0x1800F80, 4, 1, 1⟩
-- HMK.ERR
def ERR : Fld := ⟨0x1800FC0, 4, 0, 32⟩
def ERR_MAPS_LOST : Fld := ⟨0x1800FC0, 4, 0, 1⟩
def ERR_REBUILD_FAIL : Fld := ⟨0x1800FC0, 4, 1, 1⟩
def ERR_POISON : Fld := ⟨0x1800FC0, 4, 2, 1⟩
def ERR_MATRIX_WR : Fld := ⟨0x1800FC0, 4, 3, 1⟩
def ERR_LOCK_SKIP : Fld := ⟨0x1800FC0, 4, 4, 1⟩
def ERR_MAP_WR : Fld := ⟨0x1800FC0, 4, 5, 1⟩
-- HMK.ERRNOZ
def ERRNOZ : Fld := ⟨0x1801000, 4, 0, 32⟩
def ERRNOZ_A : Fld := ⟨0x1801000, 4, 0, 23⟩

end Sys2Proof.Machine.HMK

namespace Sys2Proof.Machine.LDE

-- LDE.HTIDX
def HTIDX : Fld := ⟨0x1C00000, 4, 0, 32⟩
def HTIDX_INDEX : Fld := ⟨0x1C00000, 4, 0, 12⟩
def HTIDX_WR : Fld := ⟨0x1C00000, 4, 16, 1⟩
def HTIDX_RD : Fld := ⟨0x1C00000, 4, 17, 1⟩
-- LDE.PGCFG
def PGCFG : Fld := ⟨0x1C00040, 4, 0, 32⟩
def PGCFG_CHMASK : Fld := ⟨0x1C00040, 4, 0, 8⟩
def PGCFG_CDPI : Fld := ⟨0x1C00040, 4, 8, 8⟩
def PGCFG_LPI : Fld := ⟨0x1C00040, 4, 16, 2⟩
def PGCFG_ENABLE : Fld := ⟨0x1C00040, 4, 31, 1⟩
-- LDE.CHSPAN
def CHSPAN : Fld := ⟨0x1C00080, 4, 0, 32⟩
def CHSPAN_FIRST : Fld := ⟨0x1C00080, 4, 0, 16⟩
def CHSPAN_COUNT : Fld := ⟨0x1C00080, 4, 16, 16⟩
-- LDE.ROWCFG
def ROWCFG : Fld := ⟨0x1C000C0, 4, 0, 32⟩
def ROWCFG_CH : Fld := ⟨0x1C000C0, 4, 0, 3⟩
def ROWCFG_PARTNER : Fld := ⟨0x1C000C0, 4, 8, 7⟩
def ROWCFG_PEN : Fld := ⟨0x1C000C0, 4, 15, 1⟩
def ROWCFG_ENABLE : Fld := ⟨0x1C000C0, 4, 31, 1⟩
-- LDE.ROWDLY
def ROWDLY : Fld := ⟨0x1C002C0, 4, 0, 32⟩
def ROWDLY_LINES : Fld := ⟨0x1C002C0, 4, 0, 20⟩
def ROWDLY_FRAC : Fld := ⟨0x1C002C0, 4, 20, 8⟩
-- LDE.RATECAP
def RATECAP : Fld := ⟨0x1C004C0, 4, 0, 32⟩
def RATECAP_RATE : Fld := ⟨0x1C004C0, 4, 0, 20⟩
-- LDE.GEOSTAT
def GEOSTAT : Fld := ⟨0x1C00500, 4, 0, 32⟩
def GEOSTAT_STATE : Fld := ⟨0x1C00500, 4, 0, 2⟩
def GEOSTAT_CODE : Fld := ⟨0x1C00500, 4, 4, 4⟩
def GEOSTAT_INDEX : Fld := ⟨0x1C00500, 4, 8, 12⟩
def GEOSTAT_BUSY : Fld := ⟨0x1C00500, 4, 24, 8⟩
-- LDE.PGTIM
def PGTIM : Fld := ⟨0x1C00540, 4, 0, 32⟩
def PGTIM_LTG : Fld := ⟨0x1C00540, 4, 0, 3⟩
def PGTIM_PERK : Fld := ⟨0x1C00540, 4, 3, 3⟩
def PGTIM_LAG : Fld := ⟨0x1C00540, 4, 6, 4⟩
def PGTIM_TOL : Fld := ⟨0x1C00540, 4, 10, 8⟩
-- LDE.PGLEAD
def PGLEAD : Fld := ⟨0x1C00580, 4, 0, 32⟩
def PGLEAD_LEAD : Fld := ⟨0x1C00580, 4, 0, 10⟩
def PGLEAD_MINLEAD : Fld := ⟨0x1C00580, 4, 10, 6⟩
def PGLEAD_OPEN : Fld := ⟨0x1C00580, 4, 16, 12⟩
-- LDE.MINRATE
def MINRATE : Fld := ⟨0x1C005C0, 4, 0, 32⟩
def MINRATE_RATE : Fld := ⟨0x1C005C0, 4, 0, 20⟩
-- LDE.TRIG_LO, _HI
def TRIG : Pair := ⟨0x1C00600, 8⟩
-- LDE.TRGPER
def TRGPER : Fld := ⟨0x1C00640, 4, 0, 32⟩
-- LDE.PLACE
def PLACE : Fld := ⟨0x1C00680, 4, 0, 32⟩
def PLACE_BUDGET : Fld := ⟨0x1C00680, 4, 0, 8⟩
-- LDE.DYKCFG
def DYKCFG : Fld := ⟨0x1C00880, 4, 0, 32⟩
def DYKCFG_SPACING : Fld := ⟨0x1C00880, 4, 0, 9⟩
def DYKCFG_MAXPH : Fld := ⟨0x1C00880, 4, 9, 2⟩
-- LDE.DYKDOWN
def DYKDOWN : Fld := ⟨0x1C008C0, 4, 0, 32⟩
def DYKDOWN_D0 : Fld := ⟨0x1C008C0, 4, 0, 3⟩
def DYKDOWN_D1 : Fld := ⟨0x1C008C0, 4, 3, 3⟩
def DYKDOWN_D2 : Fld := ⟨0x1C008C0, 4, 6, 3⟩
def DYKDOWN_D3 : Fld := ⟨0x1C008C0, 4, 9, 3⟩
def DYKDOWN_D4 : Fld := ⟨0x1C008C0, 4, 12, 3⟩
def DYKDOWN_D5 : Fld := ⟨0x1C008C0, 4, 15, 3⟩
def DYKDOWN_D6 : Fld := ⟨0x1C008C0, 4, 18, 3⟩
def DYKDOWN_D7 : Fld := ⟨0x1C008C0, 4, 21, 3⟩
-- LDE.LATECNT
def LATECNT : Fld := ⟨0x1C00900, 4, 0, 32⟩
-- LDE.OVERCNT
def OVERCNT : Fld := ⟨0x1C00940, 4, 0, 32⟩
-- LDE.PLACECNT
def PLACECNT : Fld := ⟨0x1C00980, 4, 0, 32⟩
-- LDE.SPLITCNT
def SPLITCNT : Fld := ⟨0x1C009C0, 4, 0, 32⟩
-- LDE.CLAMPCNT
def CLAMPCNT : Fld := ⟨0x1C00A00, 4, 0, 32⟩
-- LDE.ERR
def ERR : Fld := ⟨0x1C00A40, 4, 0, 32⟩
def ERR_DATA_LATE : Fld := ⟨0x1C00A40, 4, 0, 1⟩
def ERR_OVERSPEED : Fld := ⟨0x1C00A40, 4, 1, 1⟩
def ERR_PLACE_ERR : Fld := ⟨0x1C00A40, 4, 2, 1⟩
def ERR_ENERGY_CLAMP : Fld := ⟨0x1C00A40, 4, 3, 1⟩
def ERR_DYK_WR : Fld := ⟨0x1C00A40, 4, 4, 1⟩
def ERR_MULTI : Fld := ⟨0x1C00A40, 4, 5, 1⟩
-- LDE.ERRDG
def ERRDG : Fld := ⟨0x1C00A80, 4, 0, 32⟩
def ERRDG_DGROUP : Fld := ⟨0x1C00A80, 4, 0, 10⟩
def ERRDG_CH : Fld := ⟨0x1C00A80, 4, 10, 3⟩
-- LDE.ERRADDR_LO, _HI
def ERRADDR : Pair := ⟨0x1C00AC0, 8⟩
-- LDE.HTDATA
def HTDATA : Fld := ⟨0x1C00B00, 4, 0, 32⟩
-- LDE.GEOCTL
def GEOCTL : Fld := ⟨0x1C00B40, 4, 0, 32⟩
def GEOCTL_START : Fld := ⟨0x1C00B40, 4, 0, 1⟩
-- LDE.GEOHASH
def GEOHASH : Fld := ⟨0x1C00B80, 4, 0, 32⟩

end Sys2Proof.Machine.LDE

namespace Sys2Proof.Machine.DLK

-- DLK.CFG
def CFG : Fld := ⟨0x2000000, 4, 0, 32⟩
def CFG_ACKTO : Fld := ⟨0x2000000, 4, 0, 8⟩
def CFG_RETXLEAD : Fld := ⟨0x2000000, 4, 8, 8⟩
def CFG_TIMEPER : Fld := ⟨0x2000000, 4, 16, 8⟩
def CFG_DOWNTO : Fld := ⟨0x2000000, 4, 24, 8⟩
-- DLK.DEGRADE
def DEGRADE : Fld := ⟨0x2000040, 4, 0, 32⟩
def DEGRADE_KIB : Fld := ⟨0x2000040, 4, 0, 16⟩
-- DLK.HUBLANE
def HUBLANE : Fld := ⟨0x2000080, 4, 0, 32⟩
def HUBLANE_L0 : Fld := ⟨0x2000080, 4, 0, 6⟩
def HUBLANE_L1 : Fld := ⟨0x2000080, 4, 8, 6⟩
def HUBLANE_L2 : Fld := ⟨0x2000080, 4, 16, 6⟩
def HUBLANE_L3 : Fld := ⟨0x2000080, 4, 24, 6⟩
-- DLK.HUBCTL
def HUBCTL : Fld := ⟨0x2000140, 4, 0, 32⟩
def HUBCTL_EN : Fld := ⟨0x2000140, 4, 0, 1⟩
def HUBCTL_NLANES : Fld := ⟨0x2000140, 4, 1, 2⟩
def HUBCTL_RESTART : Fld := ⟨0x2000140, 4, 3, 1⟩
def HUBCTL_TPER : Fld := ⟨0x2000140, 4, 4, 10⟩
-- DLK.HUBSTAT
def HUBSTAT : Fld := ⟨0x2000200, 4, 0, 32⟩
def HUBSTAT_STATE : Fld := ⟨0x2000200, 4, 0, 2⟩
def HUBSTAT_LANEUP : Fld := ⟨0x2000200, 4, 2, 4⟩
def HUBSTAT_DEGRADED : Fld := ⟨0x2000200, 4, 6, 1⟩
def HUBSTAT_SILENT : Fld := ⟨0x2000200, 4, 7, 1⟩
-- DLK.HUBCLAIM
def HUBCLAIM : Fld := ⟨0x20002C0, 4, 0, 32⟩
-- DLK.HUBAGE
def HUBAGE : Fld := ⟨0x2000380, 4, 0, 32⟩
def HUBAGE_AGE : Fld := ⟨0x2000380, 4, 0, 20⟩
-- DLK.HUBCNT
def HUBCNT : Fld := ⟨0x2000440, 4, 0, 32⟩
-- DLK.LANEDLY
def LANEDLY : Fld := ⟨0x2000940, 4, 0, 32⟩
def LANEDLY_DELAY : Fld := ⟨0x2000940, 4, 0, 24⟩
-- DLK.REPLAY
def REPLAY : Fld := ⟨0x2000A00, 4, 0, 32⟩
def REPLAY_ONCHIP : Fld := ⟨0x2000A00, 4, 0, 16⟩
def REPLAY_OVERFLOW : Fld := ⟨0x2000A00, 4, 16, 16⟩
-- DLK.ERR
def ERR : Fld := ⟨0x2000A40, 4, 0, 32⟩
def ERR_LANE_DOWN : Fld := ⟨0x2000A40, 4, 0, 1⟩
def ERR_LANE_DEGRADED : Fld := ⟨0x2000A40, 4, 1, 1⟩
def ERR_HUB_DOWN : Fld := ⟨0x2000A40, 4, 2, 1⟩
def ERR_FRAME_LATE : Fld := ⟨0x2000A40, 4, 3, 1⟩
def ERR_DUP_MISMATCH : Fld := ⟨0x2000A40, 4, 4, 1⟩
def ERR_ENERGY_REFUSE : Fld := ⟨0x2000A40, 4, 5, 1⟩
def ERR_FORMAT : Fld := ⟨0x2000A40, 4, 6, 1⟩
def ERR_NAK_STALE : Fld := ⟨0x2000A40, 4, 7, 1⟩
-- DLK.ERRHUB
def ERRHUB : Fld := ⟨0x2000A80, 4, 0, 32⟩
def ERRHUB_HUB : Fld := ⟨0x2000A80, 4, 0, 6⟩
def ERRHUB_CODE : Fld := ⟨0x2000A80, 4, 8, 8⟩

end Sys2Proof.Machine.DLK

namespace Sys2Proof.Machine.MER

-- MER.CAMCFG
def CAMCFG : Fld := ⟨0x2400000, 4, 0, 32⟩
def CAMCFG_EN : Fld := ⟨0x2400000, 4, 0, 1⟩
def CAMCFG_NCONN : Fld := ⟨0x2400000, 4, 1, 2⟩
def CAMCFG_SPEED : Fld := ⟨0x2400000, 4, 3, 3⟩
def CAMCFG_FORMAT : Fld := ⟨0x2400000, 4, 6, 2⟩
def CAMCFG_PG : Fld := ⟨0x2400000, 4, 8, 2⟩
def CAMCFG_DIV : Fld := ⟨0x2400000, 4, 10, 3⟩
def CAMCFG_PHASE : Fld := ⟨0x2400000, 4, 13, 3⟩
def CAMCFG_MINPER : Fld := ⟨0x2400000, 4, 16, 16⟩
-- MER.CAMIMG
def CAMIMG : Fld := ⟨0x2400040, 4, 0, 32⟩
def CAMIMG_PIX : Fld := ⟨0x2400040, 4, 0, 15⟩
def CAMIMG_IMGLINES : Fld := ⟨0x2400040, 4, 16, 16⟩
-- MER.CAMGEO
def CAMGEO : Fld := ⟨0x2400080, 4, 0, 32⟩
def CAMGEO_XPOS : Fld := ⟨0x2400080, 4, 0, 16⟩
def CAMGEO_SX : Fld := ⟨0x2400080, 4, 16, 16⟩
-- MER.CAMDLY
def CAMDLY : Fld := ⟨0x24000C0, 4, 0, 32⟩
def CAMDLY_LINES : Fld := ⟨0x24000C0, 4, 0, 20⟩
-- MER.RBASE
def RBASE : Fld := ⟨0x2400100, 4, 0, 32⟩
def RBASE_BASE : Fld := ⟨0x2400100, 4, 0, 16⟩
def RBASE_PRLOG : Fld := ⟨0x2400100, 4, 16, 3⟩
def RBASE_CRLOG : Fld := ⟨0x2400100, 4, 20, 4⟩
-- MER.CAMSTAT
def CAMSTAT : Fld := ⟨0x2400140, 4, 0, 32⟩
def CAMSTAT_STATE : Fld := ⟨0x2400140, 4, 0, 2⟩
def CAMSTAT_CODE : Fld := ⟨0x2400140, 4, 2, 4⟩
def CAMSTAT_RSTATE : Fld := ⟨0x2400140, 4, 6, 2⟩
-- MER.CAMREG
def CAMREG : Fld := ⟨0x2400180, 4, 0, 32⟩
def CAMREG_XADJ : Fld := ⟨0x2400180, 4, 0, 16⟩
def CAMREG_YADJ : Fld := ⟨0x2400180, 4, 16, 9⟩
-- MER.CAMCNT
def CAMCNT : Fld := ⟨0x24001C0, 4, 0, 32⟩
-- MER.FIDCFG
def FIDCFG : Fld := ⟨0x2400200, 4, 0, 32⟩
def FIDCFG_NFID : Fld := ⟨0x2400200, 4, 0, 3⟩
def FIDCFG_FBAND : Fld := ⟨0x2400200, 4, 3, 2⟩
def FIDCFG_SRCH : Fld := ⟨0x2400200, 4, 5, 8⟩
def FIDCFG_FMIN : Fld := ⟨0x2400200, 4, 16, 16⟩
-- MER.FIDLINE
def FIDLINE : Fld := ⟨0x2400240, 4, 0, 32⟩
-- MER.FIDPOS
def FIDPOS : Fld := ⟨0x2400280, 4, 0, 32⟩
def FIDPOS_P : Fld := ⟨0x2400280, 4, 0, 16⟩
-- MER.WHITE
def WHITE : Fld := ⟨0x2400300, 4, 0, 32⟩
def WHITE_W0 : Fld := ⟨0x2400300, 4, 0, 10⟩
def WHITE_W1 : Fld := ⟨0x2400300, 4, 10, 10⟩
def WHITE_W2 : Fld := ⟨0x2400300, 4, 20, 10⟩
-- MER.KPROJ
def KPROJ : Fld := ⟨0x2400340, 4, 0, 32⟩
def KPROJ_K0 : Fld := ⟨0x2400340, 4, 0, 8⟩
def KPROJ_K1 : Fld := ⟨0x2400340, 4, 8, 8⟩
def KPROJ_K2 : Fld := ⟨0x2400340, 4, 16, 8⟩
-- MER.CMP
def CMP : Fld := ⟨0x2400380, 4, 0, 32⟩
def CMP_TPIX : Fld := ⟨0x2400380, 4, 0, 10⟩
def CMP_SPOTLEN : Fld := ⟨0x2400380, 4, 10, 6⟩
def CMP_STRKLEN : Fld := ⟨0x2400380, 4, 16, 10⟩
-- MER.CMPB
def CMPB : Fld := ⟨0x24003C0, 4, 0, 32⟩
def CMPB_BANDPCT : Fld := ⟨0x24003C0, 4, 0, 8⟩
-- MER.EVTH
def EVTH : Fld := ⟨0x2400400, 4, 0, 32⟩
def EVTH_TMISS : Fld := ⟨0x2400400, 4, 0, 8⟩
def EVTH_TWEAK : Fld := ⟨0x2400400, 4, 8, 8⟩
def EVTH_TDEV : Fld := ⟨0x2400400, 4, 16, 8⟩
def EVTH_NMIN : Fld := ⟨0x2400400, 4, 24, 8⟩
-- MER.DRBASE_LO, _HI
def DRBASE : Pair := ⟨0x2400440, 8⟩
-- MER.DRCFG
def DRCFG : Fld := ⟨0x2400480, 4, 0, 32⟩
def DRCFG_EN : Fld := ⟨0x2400480, 4, 0, 1⟩
def DRCFG_SIZE : Fld := ⟨0x2400480, 4, 1, 5⟩
-- MER.DRHEAD
def DRHEAD : Fld := ⟨0x24004C0, 4, 0, 32⟩
-- MER.DRTAIL
def DRTAIL : Fld := ⟨0x2400500, 4, 0, 32⟩
-- MER.DRLOST
def DRLOST : Fld := ⟨0x2400540, 4, 0, 32⟩
-- MER.CCADDR
def CCADDR : Fld := ⟨0x2400580, 4, 0, 32⟩
-- MER.CCDATA
def CCDATA : Fld := ⟨0x24005C0, 4, 0, 32⟩
-- MER.CCCTL
def CCCTL : Fld := ⟨0x2400600, 4, 0, 32⟩
def CCCTL_GO : Fld := ⟨0x2400600, 4, 0, 1⟩
def CCCTL_WRITE : Fld := ⟨0x2400600, 4, 1, 1⟩
def CCCTL_BUSY : Fld := ⟨0x2400600, 4, 2, 1⟩
def CCCTL_STATUS : Fld := ⟨0x2400600, 4, 4, 4⟩
-- MER.TBL
def TBL : Fld := ⟨0x2400640, 4, 0, 32⟩
def TBL_VALID : Fld := ⟨0x2400640, 4, 0, 1⟩
-- MER.ERR
def ERR : Fld := ⟨0x2400680, 4, 0, 32⟩
def ERR_DRING_FULL : Fld := ⟨0x2400680, 4, 0, 1⟩
def ERR_SRAM_WR : Fld := ⟨0x2400680, 4, 1, 1⟩
def ERR_CAM_FAULT : Fld := ⟨0x2400680, 4, 2, 1⟩
def ERR_POISON : Fld := ⟨0x2400680, 4, 3, 1⟩

end Sys2Proof.Machine.MER

namespace Sys2Proof.Machine.MEM

-- MEM.CHCFG
def CHCFG : Fld := ⟨0x2800000, 4, 0, 32⟩
def CHCFG_EN : Fld := ⟨0x2800000, 4, 0, 1⟩
def CHCFG_RANKS : Fld := ⟨0x2800000, 4, 1, 2⟩
def CHCFG_DENS : Fld := ⟨0x2800000, 4, 3, 2⟩
def CHCFG_SPARE : Fld := ⟨0x2800000, 4, 5, 1⟩
def CHCFG_SPRANK : Fld := ⟨0x2800000, 4, 6, 2⟩
-- MEM.SET
def SET : Fld := ⟨0x2800040, 4, 0, 32⟩
def SET_CHMASK : Fld := ⟨0x2800040, 4, 0, 4⟩
-- MEM.CTL
def CTL : Fld := ⟨0x2800080, 4, 0, 32⟩
def CTL_START : Fld := ⟨0x2800080, 4, 0, 1⟩
-- MEM.FREQ
def FREQ : Fld := ⟨0x28000C0, 4, 0, 32⟩
def FREQ_REQ : Fld := ⟨0x28000C0, 4, 0, 2⟩
def FREQ_CUR : Fld := ⟨0x28000C0, 4, 2, 2⟩
def FREQ_BUSY : Fld := ⟨0x28000C0, 4, 4, 1⟩
-- MEM.STAT
def STAT : Fld := ⟨0x2800100, 4, 0, 32⟩
def STAT_STATE : Fld := ⟨0x2800100, 4, 0, 2⟩
def STAT_RETRAIN : Fld := ⟨0x2800100, 4, 2, 1⟩
def STAT_SELFREF : Fld := ⟨0x2800100, 4, 3, 1⟩
def STAT_CODE : Fld := ⟨0x2800100, 4, 4, 4⟩
def STAT_FAILCH : Fld := ⟨0x2800100, 4, 8, 2⟩
-- MEM.CAP
def CAP : Fld := ⟨0x2800140, 4, 0, 32⟩
def CAP_GIB : Fld := ⟨0x2800140, 4, 0, 10⟩
-- MEM.TRSTAT
def TRSTAT : Fld := ⟨0x2800180, 4, 0, 32⟩
def TRSTAT_SPVALID : Fld := ⟨0x2800180, 4, 0, 4⟩
def TRSTAT_STEP : Fld := ⟨0x2800180, 4, 4, 4⟩
-- MEM.CFG
def CFG : Fld := ⟨0x28001C0, 4, 0, 32⟩
def CFG_AGEMAX : Fld := ⟨0x28001C0, 4, 0, 16⟩
def CFG_CETHR : Fld := ⟨0x28001C0, 4, 16, 16⟩
-- MEM.REFCFG
def REFCFG : Fld := ⟨0x2800200, 4, 0, 32⟩
def REFCFG_NRK : Fld := ⟨0x2800200, 4, 0, 4⟩
-- MEM.SCRUB
def SCRUB : Fld := ⟨0x2800240, 4, 0, 32⟩
def SCRUB_EN : Fld := ⟨0x2800240, 4, 0, 1⟩
def SCRUB_HOURS : Fld := ⟨0x2800240, 4, 1, 8⟩
-- MEM.MIGCFG
def MIGCFG : Fld := ⟨0x2800280, 4, 0, 32⟩
def MIGCFG_RATE : Fld := ⟨0x2800280, 4, 0, 6⟩
-- MEM.PWRCFG
def PWRCFG : Fld := ⟨0x28002C0, 4, 0, 32⟩
def PWRCFG_IDLE : Fld := ⟨0x28002C0, 4, 0, 16⟩
-- MEM.RANKSTAT
def RANKSTAT : Fld := ⟨0x2800300, 4, 0, 32⟩
def RANKSTAT_RS0 : Fld := ⟨0x2800300, 4, 0, 2⟩
def RANKSTAT_RS1 : Fld := ⟨0x2800300, 4, 2, 2⟩
def RANKSTAT_RS2 : Fld := ⟨0x2800300, 4, 4, 2⟩
def RANKSTAT_RS3 : Fld := ⟨0x2800300, 4, 6, 2⟩
def RANKSTAT_LOG : Fld := ⟨0x2800300, 4, 8, 2⟩
-- MEM.MIGPTR
def MIGPTR : Fld := ⟨0x2800340, 4, 0, 32⟩
-- MEM.CECNT
def CECNT : Fld := ⟨0x2800380, 4, 0, 32⟩
-- MEM.UECNT
def UECNT : Fld := ⟨0x28003C0, 4, 0, 32⟩
-- MEM.ERRADDR_LO, _HI
def ERRADDR : Pair := ⟨0x2800400, 8⟩
-- MEM.ERRLOC
def ERRLOC : Fld := ⟨0x2800440, 4, 0, 32⟩
def ERRLOC_CH : Fld := ⟨0x2800440, 4, 0, 2⟩
def ERRLOC_RANK : Fld := ⟨0x2800440, 4, 2, 2⟩
def ERRLOC_SUB : Fld := ⟨0x2800440, 4, 4, 1⟩
def ERRLOC_SCRUB : Fld := ⟨0x2800440, 4, 5, 1⟩
-- MEM.ERR
def ERR : Fld := ⟨0x2800480, 4, 0, 32⟩
def ERR_UE : Fld := ⟨0x2800480, 4, 0, 1⟩
def ERR_NO_SPARE : Fld := ⟨0x2800480, 4, 1, 1⟩
def ERR_TRAIN : Fld := ⟨0x2800480, 4, 2, 1⟩
def ERR_MIGRATE : Fld := ⟨0x2800480, 4, 3, 1⟩

end Sys2Proof.Machine.MEM

namespace Sys2Proof.Machine.LAN

-- LAN.CFG
def CFG : Fld := ⟨0x2C00000, 4, 0, 32⟩
def CFG_ERRMAX : Fld := ⟨0x2C00000, 4, 0, 16⟩
-- LAN.QCFG
def QCFG : Fld := ⟨0x2C00040, 4, 0, 32⟩
def QCFG_EN : Fld := ⟨0x2C00040, 4, 0, 1⟩
def QCFG_REFSEL : Fld := ⟨0x2C00040, 4, 1, 1⟩
-- LAN.QRATE
def QRATE : Fld := ⟨0x2C00080, 4, 0, 32⟩
def QRATE_NINT : Fld := ⟨0x2C00080, 4, 0, 8⟩
def QRATE_NFRAC : Fld := ⟨0x2C00080, 4, 8, 24⟩
-- LAN.QSTAT
def QSTAT : Fld := ⟨0x2C000C0, 4, 0, 32⟩
def QSTAT_PLLLOCK : Fld := ⟨0x2C000C0, 4, 0, 1⟩
def QSTAT_CHANGING : Fld := ⟨0x2C000C0, 4, 1, 1⟩
def QSTAT_RETRAIN : Fld := ⟨0x2C000C0, 4, 2, 1⟩
def QSTAT_PLLFAIL : Fld := ⟨0x2C000C0, 4, 3, 1⟩
def QSTAT_RATEREF : Fld := ⟨0x2C000C0, 4, 4, 1⟩
-- LAN.LCFG
def LCFG : Fld := ⟨0x2C00100, 4, 0, 32⟩
def LCFG_EN : Fld := ⟨0x2C00100, 4, 0, 1⟩
def LCFG_TXINV : Fld := ⟨0x2C00100, 4, 1, 1⟩
def LCFG_RXINV : Fld := ⟨0x2C00100, 4, 2, 1⟩
def LCFG_LDIV : Fld := ⟨0x2C00100, 4, 3, 2⟩
def LCFG_TEST : Fld := ⟨0x2C00100, 4, 5, 2⟩
-- LAN.TXEQ
def TXEQ : Fld := ⟨0x2C001C0, 4, 0, 32⟩
def TXEQ_PRE : Fld := ⟨0x2C001C0, 4, 0, 4⟩
def TXEQ_POST : Fld := ⟨0x2C001C0, 4, 4, 5⟩
def TXEQ_AMP : Fld := ⟨0x2C001C0, 4, 9, 4⟩
-- LAN.RXCFG
def RXCFG : Fld := ⟨0x2C00280, 4, 0, 32⟩
def RXCFG_ADAPT : Fld := ⟨0x2C00280, 4, 0, 2⟩
def RXCFG_CTLE : Fld := ⟨0x2C00280, 4, 2, 4⟩
def RXCFG_TDMIN : Fld := ⟨0x2C00280, 4, 6, 8⟩
-- LAN.RXSTAT
def RXSTAT : Fld := ⟨0x2C00340, 4, 0, 32⟩
def RXSTAT_CTLE : Fld := ⟨0x2C00340, 4, 0, 4⟩
def RXSTAT_FROZEN : Fld := ⟨0x2C00340, 4, 4, 1⟩
def RXSTAT_STAGE : Fld := ⟨0x2C00340, 4, 5, 3⟩
def RXSTAT_TDENS : Fld := ⟨0x2C00340, 4, 8, 8⟩
-- LAN.DFE
def DFE : Fld := ⟨0x2C00400, 4, 0, 32⟩
def DFE_TAP : Fld := ⟨0x2C00400, 4, 0, 8⟩
-- LAN.LSTAT
def LSTAT : Fld := ⟨0x2C01000, 4, 0, 32⟩
def LSTAT_LOCK : Fld := ⟨0x2C01000, 4, 0, 1⟩
def LSTAT_SIGDET : Fld := ⟨0x2C01000, 4, 1, 1⟩
def LSTAT_TXST : Fld := ⟨0x2C01000, 4, 2, 2⟩
def LSTAT_RXST : Fld := ⟨0x2C01000, 4, 4, 2⟩
def LSTAT_CODE : Fld := ⟨0x2C01000, 4, 6, 4⟩
def LSTAT_ERRSD : Fld := ⟨0x2C01000, 4, 10, 1⟩
-- LAN.PWR
def PWR : Fld := ⟨0x2C010C0, 4, 0, 32⟩
def PWR_TXMIN : Fld := ⟨0x2C010C0, 4, 0, 2⟩
def PWR_RXMIN : Fld := ⟨0x2C010C0, 4, 2, 2⟩
-- LAN.LOCKCNT
def LOCKCNT : Fld := ⟨0x2C01180, 4, 0, 32⟩
-- LAN.BLKERR
def BLKERR : Fld := ⟨0x2C01240, 4, 0, 32⟩
-- LAN.PRBSCFG
def PRBSCFG : Fld := ⟨0x2C01300, 4, 0, 32⟩
def PRBSCFG_POLY : Fld := ⟨0x2C01300, 4, 0, 3⟩
def PRBSCFG_INV : Fld := ⟨0x2C01300, 4, 3, 1⟩
def PRBSCFG_CLR : Fld := ⟨0x2C01300, 4, 4, 1⟩
def PRBSCFG_SYNC : Fld := ⟨0x2C01300, 4, 5, 1⟩
-- LAN.PRBSERR_LO, _HI
def PRBSERR : Pair := ⟨0x2C013C0, 8⟩
-- LAN.PRBSBITS_LO, _HI
def PRBSBITS : Pair := ⟨0x2C01540, 8⟩
-- LAN.EYECTL
def EYECTL : Fld := ⟨0x2C016C0, 4, 0, 32⟩
def EYECTL_PH : Fld := ⟨0x2C016C0, 4, 0, 6⟩
def EYECTL_VOFF : Fld := ⟨0x2C016C0, 4, 6, 7⟩
def EYECTL_LEN : Fld := ⟨0x2C016C0, 4, 13, 2⟩
def EYECTL_GO : Fld := ⟨0x2C016C0, 4, 15, 1⟩
def EYECTL_BUSY : Fld := ⟨0x2C016C0, 4, 16, 1⟩
-- LAN.EYERES
def EYERES : Fld := ⟨0x2C01780, 4, 0, 32⟩

end Sys2Proof.Machine.LAN

namespace Sys2Proof.Machine.PCI

-- PCI.FNCTL
def FNCTL : Fld := ⟨0x3000000, 4, 0, 32⟩
def FNCTL_EN : Fld := ⟨0x3000000, 4, 0, 1⟩
def FNCTL_BME : Fld := ⟨0x3000000, 4, 1, 1⟩
def FNCTL_FLR_BUSY : Fld := ⟨0x3000000, 4, 2, 1⟩
-- PCI.LINK
def LINK : Fld := ⟨0x3000040, 4, 0, 32⟩
def LINK_SPEED : Fld := ⟨0x3000040, 4, 0, 4⟩
def LINK_WIDTH : Fld := ⟨0x3000040, 4, 4, 5⟩
def LINK_PM : Fld := ⟨0x3000040, 4, 9, 2⟩
-- PCI.QCFG
def QCFG : Fld := ⟨0x3000080, 4, 0, 32⟩
def QCFG_EN : Fld := ⟨0x3000080, 4, 0, 1⟩
def QCFG_FN : Fld := ⟨0x3000080, 4, 1, 3⟩
def QCFG_THREAD : Fld := ⟨0x3000080, 4, 4, 4⟩
def QCFG_LOG : Fld := ⟨0x3000080, 4, 8, 5⟩
def QCFG_VEC : Fld := ⟨0x3000080, 4, 16, 8⟩
-- PCI.SQBASE_LO, _HI
def SQBASE : Pair := ⟨0x3000180, 8⟩
-- PCI.CQBASE_LO, _HI
def CQBASE : Pair := ⟨0x3000380, 8⟩
-- PCI.QSEQ
def QSEQ : Fld := ⟨0x3000580, 4, 0, 32⟩
-- PCI.SQDB
def SQDB : Fld := ⟨0x3000680, 4, 0, 32⟩
def SQDB_INDEX : Fld := ⟨0x3000680, 4, 0, 16⟩
-- PCI.CQDB
def CQDB : Fld := ⟨0x3000780, 4, 0, 32⟩
def CQDB_INDEX : Fld := ⟨0x3000780, 4, 0, 16⟩
-- PCI.QSTAT
def QSTAT : Fld := ⟨0x3000880, 4, 0, 32⟩
def QSTAT_STATE : Fld := ⟨0x3000880, 4, 0, 2⟩
def QSTAT_CODE : Fld := ⟨0x3000880, 4, 4, 4⟩
def QSTAT_HEAD : Fld := ⟨0x3000880, 4, 8, 16⟩
def QSTAT_DBERR : Fld := ⟨0x3000880, 4, 24, 1⟩
def QSTAT_SEQERR : Fld := ⟨0x3000880, 4, 25, 1⟩
-- PCI.QCTL
def QCTL : Fld := ⟨0x3000980, 4, 0, 32⟩
def QCTL_RESUME : Fld := ⟨0x3000980, 4, 0, 1⟩
-- PCI.EVBASE_LO, _HI
def EVBASE : Pair := ⟨0x3000A80, 8⟩
-- PCI.EVCFG
def EVCFG : Fld := ⟨0x3000AC0, 4, 0, 32⟩
def EVCFG_EN : Fld := ⟨0x3000AC0, 4, 0, 1⟩
def EVCFG_LOG : Fld := ⟨0x3000AC0, 4, 1, 5⟩
def EVCFG_VEC : Fld := ⟨0x3000AC0, 4, 6, 8⟩
-- PCI.EVHEAD
def EVHEAD : Fld := ⟨0x3000B00, 4, 0, 32⟩
-- PCI.EVTAIL
def EVTAIL : Fld := ⟨0x3000B40, 4, 0, 32⟩
-- PCI.EVLOST
def EVLOST : Fld := ⟨0x3000B80, 4, 0, 32⟩
-- PCI.RDPOOL
def RDPOOL : Fld := ⟨0x3000BC0, 4, 0, 32⟩
def RDPOOL_INUSE : Fld := ⟨0x3000BC0, 4, 0, 10⟩
-- PCI.ERR
def ERR : Fld := ⟨0x3000C00, 4, 0, 32⟩
def ERR_SEQ : Fld := ⟨0x3000C00, 4, 0, 1⟩
def ERR_FETCH : Fld := ⟨0x3000C00, 4, 1, 1⟩
def ERR_EVLOST : Fld := ⟨0x3000C00, 4, 2, 1⟩
def ERR_CTO : Fld := ⟨0x3000C00, 4, 3, 1⟩
def ERR_UR : Fld := ⟨0x3000C00, 4, 4, 1⟩

end Sys2Proof.Machine.PCI

namespace Sys2Proof.Machine.ETH

-- ETH.PCFG
def PCFG : Fld := ⟨0x3100000, 4, 0, 32⟩
def PCFG_EN : Fld := ⟨0x3100000, 4, 0, 1⟩
def PCFG_SPEED : Fld := ⟨0x3100000, 4, 1, 1⟩
def PCFG_FEC : Fld := ⟨0x3100000, 4, 2, 1⟩
def PCFG_PTPEN : Fld := ⟨0x3100000, 4, 3, 1⟩
def PCFG_ONESTEP : Fld := ⟨0x3100000, 4, 4, 1⟩
-- ETH.PSTAT
def PSTAT : Fld := ⟨0x3100040, 4, 0, 32⟩
def PSTAT_LINK : Fld := ⟨0x3100040, 4, 0, 1⟩
-- ETH.MAC_LO, _HI
def MAC : Pair := ⟨0x3100080, 8⟩
-- ETH.IPV4
def IPV4 : Fld := ⟨0x31000C0, 4, 0, 32⟩
-- ETH.QCFG
def QCFG : Fld := ⟨0x3100100, 4, 0, 32⟩
def QCFG_EN : Fld := ⟨0x3100100, 4, 0, 1⟩
def QCFG_LOG : Fld := ⟨0x3100100, 4, 1, 4⟩
-- ETH.QBASE_LO, _HI
def QBASE : Pair := ⟨0x3100200, 8⟩
-- ETH.QPTR
def QPTR : Fld := ⟨0x3100400, 4, 0, 32⟩
def QPTR_TAIL : Fld := ⟨0x3100400, 4, 0, 16⟩
def QPTR_HEAD : Fld := ⟨0x3100400, 4, 16, 16⟩
-- ETH.PMS
def PMS : Fld := ⟨0x3100500, 4, 0, 32⟩
def PMS_PORT : Fld := ⟨0x3100500, 4, 0, 16⟩
def PMS_NETPORT : Fld := ⟨0x3100500, 4, 16, 2⟩
-- ETH.PMSDEST
def PMSDEST : Fld := ⟨0x3100540, 4, 0, 32⟩
-- ETH.PRESS
def PRESS : Fld := ⟨0x3100580, 4, 0, 32⟩
-- ETH.CNT
def CNT : Fld := ⟨0x31005C0, 4, 0, 32⟩

end Sys2Proof.Machine.ETH

namespace Sys2Proof.Machine.TIM

-- TIM.TDCTL
def TDCTL : Fld := ⟨0x3200000, 4, 0, 32⟩
def TDCTL_ACQ : Fld := ⟨0x3200000, 4, 0, 1⟩
def TDCTL_PTPDOM : Fld := ⟨0x3200000, 4, 8, 8⟩
def TDCTL_PTPEN : Fld := ⟨0x3200000, 4, 16, 1⟩
-- TIM.TDSTAT
def TDSTAT : Fld := ⟨0x3200040, 4, 0, 32⟩
def TDSTAT_STATE : Fld := ⟨0x3200040, 4, 0, 2⟩
-- TIM.RATE_LO, _HI
def RATE : Pair := ⟨0x3200080, 8⟩
-- TIM.STEP_LO, _HI
def STEP : Pair := ⟨0x32000C0, 8⟩
-- TIM.STEPFR
def STEPFR : Fld := ⟨0x3200100, 4, 0, 32⟩
def STEPFR_FRAC : Fld := ⟨0x3200100, 4, 0, 16⟩
-- TIM.OFFSET_LO, _HI
def OFFSET : Pair := ⟨0x3200140, 8⟩
-- TIM.OFFFR
def OFFFR : Fld := ⟨0x3200180, 4, 0, 32⟩
-- TIM.WORK
def WORK : Fld := ⟨0x32001C0, 4, 0, 32⟩
def WORK_SEL : Fld := ⟨0x32001C0, 4, 0, 1⟩
def WORK_SWITCHING : Fld := ⟨0x32001C0, 4, 1, 1⟩
-- TIM.SNAP
def SNAP : Fld := ⟨0x3200200, 4, 0, 32⟩
def SNAP_GO : Fld := ⟨0x3200200, 4, 0, 1⟩
-- TIM.SNSEC_LO, _HI
def SNSEC : Pair := ⟨0x3200240, 8⟩
-- TIM.SNNS
def SNNS : Fld := ⟨0x3200280, 4, 0, 32⟩
-- TIM.SNFR
def SNFR : Fld := ⟨0x32002C0, 4, 0, 32⟩
def SNFR_FRAC : Fld := ⟨0x32002C0, 4, 0, 16⟩
-- TIM.TOCFG
def TOCFG : Fld := ⟨0x3200300, 4, 0, 32⟩
def TOCFG_MODE : Fld := ⟨0x3200300, 4, 0, 1⟩
def TOCFG_LEVEL : Fld := ⟨0x3200300, 4, 1, 1⟩
def TOCFG_PENDING : Fld := ⟨0x3200300, 4, 2, 5⟩
def TOCFG_WIDTH : Fld := ⟨0x3200300, 4, 16, 16⟩
-- TIM.TOPER
def TOPER : Fld := ⟨0x3200340, 4, 0, 32⟩
def TOPER_PERIOD : Fld := ⟨0x3200340, 4, 0, 20⟩
-- TIM.TINCFG
def TINCFG : Fld := ⟨0x3200380, 4, 0, 32⟩
def TINCFG_EDGE : Fld := ⟨0x3200380, 4, 0, 2⟩
def TINCFG_POP : Fld := ⟨0x3200380, 4, 2, 1⟩
def TINCFG_HEADRISE : Fld := ⟨0x3200380, 4, 3, 1⟩
def TINCFG_COUNT : Fld := ⟨0x3200380, 4, 4, 5⟩
-- TIM.TINTS_LO, _HI
def TINTS : Pair := ⟨0x32003C0, 8⟩
-- TIM.MKCFG
def MKCFG : Fld := ⟨0x3200400, 4, 0, 32⟩
def MKCFG_GROUP : Fld := ⟨0x3200400, 4, 0, 2⟩
def MKCFG_DIST : Fld := ⟨0x3200400, 4, 2, 20⟩
def MKCFG_WIDTH : Fld := ⟨0x3200400, 4, 22, 10⟩
-- TIM.MKDLY
def MKDLY : Fld := ⟨0x3200440, 4, 0, 32⟩
def MKDLY_DLY : Fld := ⟨0x3200440, 4, 0, 20⟩
-- TIM.SPD
def SPD : Fld := ⟨0x3200480, 4, 0, 32⟩
def SPD_REQ : Fld := ⟨0x3200480, 4, 0, 20⟩
def SPD_GROUP : Fld := ⟨0x3200480, 4, 20, 2⟩
-- TIM.SPDSTAT
def SPDSTAT : Fld := ⟨0x32004C0, 4, 0, 32⟩
def SPDSTAT_LIMIT : Fld := ⟨0x32004C0, 4, 0, 20⟩
def SPDSTAT_DUTY : Fld := ⟨0x32004C0, 4, 20, 10⟩
-- TIM.ERR
def ERR : Fld := ⟨0x3200500, 4, 0, 32⟩
def ERR_STEP_IGN : Fld := ⟨0x3200500, 4, 0, 1⟩
def ERR_ACQ_REF : Fld := ⟨0x3200500, 4, 1, 1⟩
def ERR_RATE_CLAMP : Fld := ⟨0x3200500, 4, 2, 1⟩
def ERR_WORK_REF : Fld := ⟨0x3200500, 4, 3, 1⟩
def ERR_TIN_OVF : Fld := ⟨0x3200500, 4, 4, 1⟩
def ERR_MARK_MERGE : Fld := ⟨0x3200500, 4, 5, 1⟩
-- TIM.FRC_LO, _HI
def FRC : Pair := ⟨0x3200540, 8⟩

end Sys2Proof.Machine.TIM

namespace Sys2Proof.Machine.ENC

-- ENC.CFG
def CFG : Fld := ⟨0x3400000, 4, 0, 32⟩
def CFG_EN : Fld := ⟨0x3400000, 4, 0, 1⟩
def CFG_MODE : Fld := ⟨0x3400000, 4, 1, 3⟩
def CFG_DIR : Fld := ⟨0x3400000, 4, 4, 1⟩
def CFG_FILT : Fld := ⟨0x3400000, 4, 5, 8⟩
def CFG_IDXMODE : Fld := ⟨0x3400000, 4, 13, 2⟩
def CFG_ZINV : Fld := ⟨0x3400000, 4, 15, 1⟩
-- ENC.CPR
def CPR : Fld := ⟨0x3400040, 4, 0, 32⟩
-- ENC.IDXPOS
def IDXPOS : Fld := ⟨0x3400080, 4, 0, 32⟩
-- ENC.IDXTOL
def IDXTOL : Fld := ⟨0x34000C0, 4, 0, 32⟩
def IDXTOL_TOL : Fld := ⟨0x34000C0, 4, 0, 16⟩
-- ENC.SER
def SER : Fld := ⟨0x3400100, 4, 0, 32⟩
def SER_STBITS : Fld := ⟨0x3400100, 4, 0, 6⟩
def SER_MTBITS : Fld := ⟨0x3400100, 4, 6, 6⟩
def SER_GRAY : Fld := ⟨0x3400100, 4, 12, 1⟩
def SER_CLK : Fld := ⟨0x3400100, 4, 13, 4⟩
def SER_CRCMAX : Fld := ⟨0x3400100, 4, 17, 4⟩
-- ENC.SERPER
def SERPER : Fld := ⟨0x3400140, 4, 0, 32⟩
def SERPER_PERIOD : Fld := ⟨0x3400140, 4, 0, 16⟩
def SERPER_TMO : Fld := ⟨0x3400140, 4, 16, 8⟩
-- ENC.SPDCFG
def SPDCFG : Fld := ⟨0x3400180, 4, 0, 32⟩
def SPDCFG_TMO : Fld := ⟨0x3400180, 4, 0, 16⟩
-- ENC.LOSS
def LOSS : Fld := ⟨0x34001C0, 4, 0, 32⟩
def LOSS_ILLMAX : Fld := ⟨0x34001C0, 4, 0, 8⟩
def LOSS_FRZEFF : Fld := ⟨0x34001C0, 4, 8, 8⟩
def LOSS_FRZTIME : Fld := ⟨0x34001C0, 4, 16, 16⟩
-- ENC.POS_LO, _HI
def POS : Pair := ⟨0x3400200, 8⟩
-- ENC.CNT
def CNT : Fld := ⟨0x3400280, 4, 0, 32⟩
-- ENC.REV
def REV : Fld := ⟨0x34002C0, 4, 0, 32⟩
-- ENC.SPEED_LO, _HI
def SPEED : Pair := ⟨0x3400300, 8⟩
-- ENC.IDXCAP
def IDXCAP : Fld := ⟨0x3400380, 4, 0, 32⟩
-- ENC.IDXERR
def IDXERR : Fld := ⟨0x34003C0, 4, 0, 32⟩
-- ENC.CORR_LO, _HI
def CORR : Pair := ⟨0x3400400, 8⟩
-- ENC.IDXCNT
def IDXCNT : Fld := ⟨0x3400480, 4, 0, 32⟩
-- ENC.ILLCNT
def ILLCNT : Fld := ⟨0x34004C0, 4, 0, 32⟩
-- ENC.CRCCNT
def CRCCNT : Fld := ⟨0x3400500, 4, 0, 32⟩
-- ENC.CTL
def CTL : Fld := ⟨0x3400540, 4, 0, 32⟩
def CTL_CLR : Fld := ⟨0x3400540, 4, 0, 1⟩
-- ENC.STAT
def STAT : Fld := ⟨0x3400580, 4, 0, 32⟩
def STAT_STATE : Fld := ⟨0x3400580, 4, 0, 2⟩
def STAT_DIR : Fld := ⟨0x3400580, 4, 2, 1⟩
def STAT_SPDVALID : Fld := ⟨0x3400580, 4, 3, 1⟩
def STAT_SPDMODE : Fld := ⟨0x3400580, 4, 4, 1⟩
def STAT_ILLEGAL_EDGE : Fld := ⟨0x3400580, 4, 5, 1⟩
def STAT_TMOUT : Fld := ⟨0x3400580, 4, 6, 1⟩
def STAT_WARN : Fld := ⟨0x3400580, 4, 7, 1⟩
-- ENC.LTGCFG
def LTGCFG : Fld := ⟨0x34005C0, 4, 0, 32⟩
def LTGCFG_EN : Fld := ⟨0x34005C0, 4, 0, 1⟩
def LTGCFG_SRC : Fld := ⟨0x34005C0, 4, 1, 4⟩
def LTGCFG_SNAP : Fld := ⟨0x34005C0, 4, 5, 1⟩
-- ENC.LTGSP_LO, _HI
def LTGSP : Pair := ⟨0x3400600, 8⟩
-- ENC.LTGORG_LO, _HI
def LTGORG : Pair := ⟨0x3400640, 8⟩
-- ENC.LTGLN_LO, _HI
def LTGLN : Pair := ⟨0x3400680, 8⟩
-- ENC.LTGREM
def LTGREM : Fld := ⟨0x34006C0, 4, 0, 32⟩
-- ENC.ERR
def ERR : Fld := ⟨0x3400700, 4, 0, 32⟩
def ERR_CFG : Fld := ⟨0x3400700, 4, 0, 1⟩
def ERR_LOST : Fld := ⟨0x3400700, 4, 1, 1⟩
def ERR_FROZEN : Fld := ⟨0x3400700, 4, 2, 1⟩
def ERR_LTG_BUSY : Fld := ⟨0x3400700, 4, 3, 1⟩
def ERR_CLR_REF : Fld := ⟨0x3400700, 4, 4, 1⟩

end Sys2Proof.Machine.ENC

namespace Sys2Proof.Machine.AXS

-- AXS.CFG
def CFG : Fld := ⟨0x3600000, 4, 0, 32⟩
def CFG_EN : Fld := ⟨0x3600000, 4, 0, 1⟩
def CFG_OUT : Fld := ⟨0x3600000, 4, 1, 1⟩
def CFG_SHIFT : Fld := ⟨0x3600000, 4, 2, 4⟩
def CFG_FBSRC : Fld := ⟨0x3600000, 4, 6, 4⟩
def CFG_FBEN : Fld := ⟨0x3600000, 4, 10, 1⟩
def CFG_STALLSTOP : Fld := ⟨0x3600000, 4, 11, 1⟩
def CFG_WEBSTOP : Fld := ⟨0x3600000, 4, 12, 1⟩
def CFG_SOFTEN : Fld := ⟨0x3600000, 4, 13, 1⟩
def CFG_HOLDSTOP : Fld := ⟨0x3600000, 4, 14, 1⟩
-- AXS.PULSE
def PULSE : Fld := ⟨0x3600040, 4, 0, 32⟩
def PULSE_PW : Fld := ⟨0x3600040, 4, 0, 8⟩
def PULSE_DIRSU : Fld := ⟨0x3600040, 4, 8, 8⟩
-- AXS.STAT
def STAT : Fld := ⟨0x3600080, 4, 0, 32⟩
def STAT_STATE : Fld := ⟨0x3600080, 4, 0, 2⟩
def STAT_UNCERTAIN : Fld := ⟨0x3600080, 4, 2, 1⟩
def STAT_OVERSHOOT : Fld := ⟨0x3600080, 4, 3, 1⟩
def STAT_STALL : Fld := ⟨0x3600080, 4, 4, 1⟩
def STAT_VCLAMP : Fld := ⟨0x3600080, 4, 5, 1⟩
def STAT_FOLLOW : Fld := ⟨0x3600080, 4, 6, 1⟩
def STAT_SETPOS_REF : Fld := ⟨0x3600080, 4, 7, 1⟩
def STAT_STOPCAUSE : Fld := ⟨0x3600080, 4, 8, 4⟩
-- AXS.CTL
def CTL : Fld := ⟨0x36000C0, 4, 0, 32⟩
def CTL_HALT : Fld := ⟨0x36000C0, 4, 0, 1⟩
def CTL_SETPOS : Fld := ⟨0x36000C0, 4, 1, 1⟩
def CTL_CLR : Fld := ⟨0x36000C0, 4, 2, 1⟩
-- AXS.HOME_LO, _HI
def HOME : Pair := ⟨0x3600100, 8⟩
-- AXS.SOFTLO_LO, _HI
def SOFTLO : Pair := ⟨0x3600180, 8⟩
-- AXS.SOFTHI_LO, _HI
def SOFTHI : Pair := ⟨0x3600200, 8⟩
-- AXS.XCMD_LO, _HI
def XCMD : Pair := ⟨0x3600280, 8⟩
-- AXS.TGT_LO, _HI
def TGT : Pair := ⟨0x3600300, 8⟩
-- AXS.VCMD
def VCMD : Fld := ⟨0x3600380, 4, 0, 32⟩
-- AXS.FBCPS
def FBCPS : Fld := ⟨0x36003C0, 4, 0, 32⟩
-- AXS.FOLLOWERR
def FOLLOWERR : Fld := ⟨0x3600400, 4, 0, 32⟩
-- AXS.STCFG
def STCFG : Fld := ⟨0x3600440, 4, 0, 32⟩
def STCFG_TBL : Fld := ⟨0x3600440, 4, 0, 2⟩
-- AXS.STCUR
def STCUR : Fld := ⟨0x3600480, 4, 0, 32⟩
def STCUR_IRUN_MAX : Fld := ⟨0x3600480, 4, 0, 10⟩
def STCUR_IRUN_MIN : Fld := ⟨0x3600480, 4, 10, 10⟩
def STCUR_IHOLD : Fld := ⟨0x3600480, 4, 20, 10⟩
-- AXS.STCHOP
def STCHOP : Fld := ⟨0x36004C0, 4, 0, 32⟩
def STCHOP_HYST : Fld := ⟨0x36004C0, 4, 0, 7⟩
def STCHOP_TOFF : Fld := ⟨0x36004C0, 4, 7, 8⟩
def STCHOP_BLANK : Fld := ⟨0x36004C0, 4, 15, 8⟩
def STCHOP_TONMAX : Fld := ⟨0x36004C0, 4, 23, 8⟩
def STCHOP_ADAPT : Fld := ⟨0x36004C0, 4, 31, 1⟩
-- AXS.STLOAD
def STLOAD : Fld := ⟨0x3600500, 4, 0, 32⟩
def STLOAD_VADAPT : Fld := ⟨0x3600500, 4, 0, 16⟩
def STLOAD_STALLTHR : Fld := ⟨0x3600500, 4, 16, 10⟩
-- AXS.STLVL
def STLVL : Fld := ⟨0x3600540, 4, 0, 32⟩
def STLVL_LLO : Fld := ⟨0x3600540, 4, 0, 10⟩
def STLVL_LHI : Fld := ⟨0x3600540, 4, 10, 10⟩
-- AXS.STSTAT
def STSTAT : Fld := ⟨0x3600580, 4, 0, 32⟩
def STSTAT_LOAD : Fld := ⟨0x3600580, 4, 0, 10⟩
def STSTAT_IRUN : Fld := ⟨0x3600580, 4, 10, 10⟩
def STSTAT_OFSA : Fld := ⟨0x3600580, 4, 20, 8⟩
-- AXS.STOFSB
def STOFSB : Fld := ⟨0x36005C0, 4, 0, 32⟩
def STOFSB_OFSB : Fld := ⟨0x36005C0, 4, 0, 8⟩
-- AXS.TBLIDX
def TBLIDX : Fld := ⟨0x3600600, 4, 0, 32⟩
def TBLIDX_ENTRY : Fld := ⟨0x3600600, 4, 0, 8⟩
def TBLIDX_TABLE : Fld := ⟨0x3600600, 4, 8, 1⟩
def TBLIDX_ST : Fld := ⟨0x3600600, 4, 9, 3⟩
def TBLIDX_WR : Fld := ⟨0x3600600, 4, 16, 1⟩
def TBLIDX_RD : Fld := ⟨0x3600600, 4, 17, 1⟩
-- AXS.TBLDATA
def TBLDATA : Fld := ⟨0x3600640, 4, 0, 32⟩
def TBLDATA_T : Fld := ⟨0x3600640, 4, 0, 10⟩

end Sys2Proof.Machine.AXS

namespace Sys2Proof.Machine.LOP

-- LOP.CFG
def CFG : Fld := ⟨0x3800000, 4, 0, 32⟩
def CFG_SRCTYPE : Fld := ⟨0x3800000, 4, 0, 2⟩
def CFG_SRCIDX : Fld := ⟨0x3800000, 4, 2, 5⟩
def CFG_SHIFT : Fld := ⟨0x3800000, 4, 7, 5⟩
def CFG_DEST : Fld := ⟨0x3800000, 4, 12, 2⟩
def CFG_DESTIDX : Fld := ⟨0x3800000, 4, 14, 5⟩
-- LOP.PERIOD
def PERIOD : Fld := ⟨0x3800080, 4, 0, 32⟩
def PERIOD_PERIOD : Fld := ⟨0x3800080, 4, 0, 20⟩
def PERIOD_SYNC : Fld := ⟨0x3800080, 4, 20, 1⟩
-- LOP.KP
def KP : Fld := ⟨0x3800100, 4, 0, 32⟩
-- LOP.KI
def KI : Fld := ⟨0x38001C0, 4, 0, 32⟩
-- LOP.KD
def KD : Fld := ⟨0x3800280, 4, 0, 32⟩
-- LOP.KFF
def KFF : Fld := ⟨0x3800340, 4, 0, 32⟩
-- LOP.IMAX
def IMAX : Fld := ⟨0x3800400, 4, 0, 32⟩
-- LOP.SLEW
def SLEW : Fld := ⟨0x38004C0, 4, 0, 32⟩
-- LOP.OUTMIN
def OUTMIN : Fld := ⟨0x3800580, 4, 0, 32⟩
-- LOP.OUTMAX
def OUTMAX : Fld := ⟨0x3800640, 4, 0, 32⟩
-- LOP.BQ1
def BQ1 : Fld := ⟨0x3800700, 4, 0, 32⟩
-- LOP.BQ2
def BQ2 : Fld := ⟨0x3800900, 4, 0, 32⟩
-- LOP.SAFE
def SAFE : Fld := ⟨0x3800B00, 4, 0, 32⟩
-- LOP.SP
def SP : Fld := ⟨0x3800B80, 4, 0, 32⟩
-- LOP.Y
def Y : Fld := ⟨0x3800C00, 4, 0, 32⟩
-- LOP.OUT
def OUT : Fld := ⟨0x3800C80, 4, 0, 32⟩
-- LOP.IACC
def IACC : Fld := ⟨0x3800D00, 4, 0, 32⟩
-- LOP.STAT
def STAT : Fld := ⟨0x3800D80, 4, 0, 32⟩
def STAT_MODE : Fld := ⟨0x3800D80, 4, 0, 4⟩
def STAT_SAT : Fld := ⟨0x3800D80, 4, 4, 11⟩
def STAT_COEF_LOCK_ERR : Fld := ⟨0x3800D80, 4, 15, 1⟩
def STAT_LOSS : Fld := ⟨0x3800D80, 4, 16, 1⟩
def STAT_FREEZE : Fld := ⟨0x3800D80, 4, 17, 1⟩
def STAT_DESTCONF : Fld := ⟨0x3800D80, 4, 18, 1⟩
-- LOP.INJ
def INJ : Fld := ⟨0x3800E00, 4, 0, 32⟩
def INJ_TYPE : Fld := ⟨0x3800E00, 4, 0, 2⟩
def INJ_POINT : Fld := ⟨0x3800E00, 4, 2, 1⟩
def INJ_GO : Fld := ⟨0x3800E00, 4, 3, 1⟩
def INJ_BUSY : Fld := ⟨0x3800E00, 4, 4, 1⟩
def INJ_HOLD : Fld := ⟨0x3800E00, 4, 16, 16⟩
-- LOP.INJAMP
def INJAMP : Fld := ⟨0x3800E80, 4, 0, 32⟩
-- LOP.INJLEN
def INJLEN : Fld := ⟨0x3800F00, 4, 0, 32⟩
-- LOP.INJF0
def INJF0 : Fld := ⟨0x3800F80, 4, 0, 32⟩
-- LOP.INJF1
def INJF1 : Fld := ⟨0x3801000, 4, 0, 32⟩
-- LOP.PWMPER
def PWMPER : Fld := ⟨0x3801080, 4, 0, 32⟩
def PWMPER_PER : Fld := ⟨0x3801080, 4, 0, 20⟩
-- LOP.PWMDUTY
def PWMDUTY : Fld := ⟨0x3801100, 4, 0, 32⟩
def PWMDUTY_HIGH : Fld := ⟨0x3801100, 4, 0, 20⟩
-- LOP.CAPCTL
def CAPCTL : Fld := ⟨0x3801180, 4, 0, 32⟩
def CAPCTL_ABORT : Fld := ⟨0x3801180, 4, 0, 1⟩
def CAPCTL_BUSY : Fld := ⟨0x3801180, 4, 1, 1⟩
def CAPCTL_ARMED : Fld := ⟨0x3801180, 4, 2, 1⟩

end Sys2Proof.Machine.LOP

namespace Sys2Proof.Machine.SNS

-- SNS.PCFG
def PCFG : Fld := ⟨0x3A00000, 4, 0, 32⟩
def PCFG_EN : Fld := ⟨0x3A00000, 4, 0, 1⟩
def PCFG_SPIMODE : Fld := ⟨0x3A00000, 4, 1, 2⟩
def PCFG_DIV : Fld := ⟨0x3A00000, 4, 3, 8⟩
def PCFG_NSLOT : Fld := ⟨0x3A00000, 4, 11, 2⟩
def PCFG_CSGAP : Fld := ⟨0x3A00000, 4, 13, 8⟩
-- SNS.PPER
def PPER : Fld := ⟨0x3A00040, 4, 0, 32⟩
def PPER_PERIOD : Fld := ⟨0x3A00040, 4, 0, 16⟩
def PPER_TMO : Fld := ⟨0x3A00040, 4, 16, 8⟩
def PPER_CRCMAX : Fld := ⟨0x3A00040, 4, 24, 4⟩
-- SNS.CTL
def CTL : Fld := ⟨0x3A00080, 4, 0, 32⟩
def CTL_CLR : Fld := ⟨0x3A00080, 4, 0, 1⟩
-- SNS.PSTAT
def PSTAT : Fld := ⟨0x3A000C0, 4, 0, 32⟩
def PSTAT_LOST : Fld := ⟨0x3A000C0, 4, 0, 4⟩
-- SNS.CRCCNT
def CRCCNT : Fld := ⟨0x3A00100, 4, 0, 32⟩
-- SNS.SCFG
def SCFG : Fld := ⟨0x3A00140, 4, 0, 32⟩
def SCFG_LEN : Fld := ⟨0x3A00140, 4, 0, 5⟩
def SCFG_RXSHIFT : Fld := ⟨0x3A00140, 4, 5, 5⟩
def SCFG_RXBITS : Fld := ⟨0x3A00140, 4, 10, 5⟩
def SCFG_SIGNED : Fld := ⟨0x3A00140, 4, 15, 1⟩
def SCFG_CRCEN : Fld := ⟨0x3A00140, 4, 16, 1⟩
def SCFG_TXLOOP : Fld := ⟨0x3A00140, 4, 17, 1⟩
def SCFG_TXSHIFT : Fld := ⟨0x3A00140, 4, 18, 5⟩
-- SNS.STX
def STX : Fld := ⟨0x3A001C0, 4, 0, 32⟩
-- SNS.SCHK
def SCHK : Fld := ⟨0x3A00240, 4, 0, 32⟩
def SCHK_MASK : Fld := ⟨0x3A00240, 4, 0, 16⟩
def SCHK_MATCH : Fld := ⟨0x3A00240, 4, 16, 16⟩
-- SNS.SGAIN
def SGAIN : Fld := ⟨0x3A002C0, 4, 0, 32⟩
-- SNS.SOFF
def SOFF : Fld := ⟨0x3A00340, 4, 0, 32⟩
-- SNS.SVAL
def SVAL : Fld := ⟨0x3A003C0, 4, 0, 32⟩
-- SNS.ERR
def ERR : Fld := ⟨0x3A00440, 4, 0, 32⟩
def ERR_CFG : Fld := ⟨0x3A00440, 4, 0, 1⟩

end Sys2Proof.Machine.SNS

namespace Sys2Proof.Machine.PIN

-- PIN.BANKCFG
def BANKCFG : Fld := ⟨0x3C00000, 4, 0, 32⟩
def BANKCFG_EN : Fld := ⟨0x3C00000, 4, 0, 1⟩
def BANKCFG_V33 : Fld := ⟨0x3C00000, 4, 1, 1⟩
-- PIN.GPIODIR
def GPIODIR : Fld := ⟨0x3C00040, 4, 0, 32⟩
-- PIN.GPIOOUT
def GPIOOUT : Fld := ⟨0x3C00080, 4, 0, 32⟩
-- PIN.GPIOIN
def GPIOIN : Fld := ⟨0x3C000C0, 4, 0, 32⟩
-- PIN.GPIOEVT
def GPIOEVT : Fld := ⟨0x3C00100, 4, 0, 32⟩

end Sys2Proof.Machine.PIN

namespace Sys2Proof.Machine.SEC

-- SEC.BOOTSTAT
def BOOTSTAT : Fld := ⟨0x3E00000, 4, 0, 32⟩
def BOOTSTAT_STATE : Fld := ⟨0x3E00000, 4, 0, 2⟩
def BOOTSTAT_CODE : Fld := ⟨0x3E00000, 4, 2, 4⟩
def BOOTSTAT_ALT : Fld := ⟨0x3E00000, 4, 6, 1⟩
def BOOTSTAT_SLOT : Fld := ⟨0x3E00000, 4, 7, 2⟩
-- SEC.DLADDR_LO, _HI
def DLADDR : Pair := ⟨0x3E00040, 8⟩
-- SEC.DLLEN
def DLLEN : Fld := ⟨0x3E00080, 4, 0, 32⟩
-- SEC.DLCTL
def DLCTL : Fld := ⟨0x3E000C0, 4, 0, 32⟩
def DLCTL_GO : Fld := ⟨0x3E000C0, 4, 0, 1⟩
def DLCTL_BUSY : Fld := ⟨0x3E000C0, 4, 1, 1⟩
-- SEC.KEYSTAT
def KEYSTAT : Fld := ⟨0x3E00100, 4, 0, 32⟩
def KEYSTAT_PROG : Fld := ⟨0x3E00100, 4, 0, 1⟩
def KEYSTAT_REVOKED : Fld := ⟨0x3E00100, 4, 1, 1⟩
def KEYSTAT_DBG : Fld := ⟨0x3E00100, 4, 2, 1⟩
-- SEC.FUSEDATA
def FUSEDATA : Fld := ⟨0x3E00140, 4, 0, 32⟩
-- SEC.FUSECTL
def FUSECTL : Fld := ⟨0x3E00180, 4, 0, 32⟩
def FUSECTL_OP : Fld := ⟨0x3E00180, 4, 0, 2⟩
def FUSECTL_SLOT : Fld := ⟨0x3E00180, 4, 2, 2⟩
def FUSECTL_DBG : Fld := ⟨0x3E00180, 4, 4, 1⟩
def FUSECTL_BUSY : Fld := ⟨0x3E00180, 4, 5, 1⟩
def FUSECTL_STATUS : Fld := ⟨0x3E00180, 4, 6, 2⟩
def FUSECTL_KEY : Fld := ⟨0x3E00180, 4, 8, 8⟩
-- SEC.DBGCTL
def DBGCTL : Fld := ⟨0x3E001C0, 4, 0, 32⟩
def DBGCTL_CHAL : Fld := ⟨0x3E001C0, 4, 0, 1⟩
def DBGCTL_SUBMIT : Fld := ⟨0x3E001C0, 4, 1, 1⟩
def DBGCTL_UNLOCKED : Fld := ⟨0x3E001C0, 4, 2, 1⟩
def DBGCTL_FAILS : Fld := ⟨0x3E001C0, 4, 3, 2⟩
def DBGCTL_LOCKOUT : Fld := ⟨0x3E001C0, 4, 5, 1⟩
-- SEC.DBGCHAL
def DBGCHAL : Fld := ⟨0x3E00200, 4, 0, 32⟩
-- SEC.DBGRESP
def DBGRESP : Fld := ⟨0x3E00240, 4, 0, 32⟩

end Sys2Proof.Machine.SEC
end

