-- ==== Sys2Proof/Machine/RegMap.lean ====
section
/-!
DEFINITION. The register tables of the spec as data: for every register its home offset in PF0 BAR0 (R466 to R469),
its array shape, the block that owns its RWL fields (R10), and each field's bits, access type (R9) and reset value.
Reserved fields are left out: they read 0 and discard writes (R8).
-/

namespace Sys2Proof.Machine.GLB

def regs0 : List RegDef := [
  -- GLB.PROFILE
  ⟨0x0, 4, 1, .whole, .none, [⟨0, 1, .ro, 0⟩, ⟨1, 1, .ro, 0⟩, ⟨2, 2, .ro, 0⟩, ⟨4, 1, .ro, 0⟩, ⟨5, 1, .ro, 0⟩, ⟨6, 1, .w1c, 0⟩, ⟨8, 1, .wo, 0⟩, ⟨16, 8, .wo, 0⟩]⟩,
  -- GLB.ID
  ⟨0x40, 4, 1, .whole, .none, [⟨0, 16, .ro, 0⟩, ⟨16, 8, .ro, 0x96⟩, ⟨24, 4, .ro, 1⟩, ⟨28, 4, .ro, 0⟩]⟩,
  -- GLB.UID_LO
  ⟨0x80, 8, 1, .lo, .none, [⟨0, 32, .ro, 0⟩]⟩,
  -- GLB.UID_HI
  ⟨0x84, 8, 1, .hi, .none, [⟨0, 32, .ro, 0⟩]⟩,
  -- GLB.STRAPS
  ⟨0xC0, 4, 1, .whole, .none, [⟨0, 2, .ro, 0⟩, ⟨2, 1, .ro, 0⟩, ⟨3, 1, .ro, 0⟩, ⟨4, 1, .ro, 0⟩, ⟨5, 1, .ro, 0⟩]⟩,
  -- GLB.RST
  ⟨0x100, 4, 1, .whole, .none, [⟨0, 1, .wo, 0⟩, ⟨1, 1, .wo, 0⟩, ⟨2, 1, .ro, 0⟩, ⟨8, 8, .wo, 0⟩]⟩,
  -- GLB.RSTCAUSE
  ⟨0x140, 4, 1, .whole, .none, [⟨0, 3, .rws, 0⟩]⟩,
  -- GLB.ACCERR
  ⟨0x180, 4, 1, .whole, .none, [⟨0, 1, .w1c, 0⟩, ⟨1, 1, .w1c, 0⟩]⟩,
  -- GLB.ACCERR_ADDR
  ⟨0x1C0, 4, 1, .whole, .none, [⟨0, 26, .ro, 0⟩]⟩,
  -- GLB.BRST
  ⟨0x200, 4, 1, .whole, .none, [⟨0, 1, .wo, 0⟩, ⟨1, 1, .wo, 0⟩, ⟨2, 1, .wo, 0⟩, ⟨3, 1, .wo, 0⟩, ⟨4, 1, .wo, 0⟩, ⟨5, 1, .wo, 0⟩]⟩,
  -- GLB.BRSTREF
  ⟨0x240, 4, 1, .whole, .none, [⟨0, 1, .w1c, 0⟩, ⟨1, 1, .w1c, 0⟩, ⟨2, 1, .w1c, 0⟩, ⟨3, 1, .w1c, 0⟩, ⟨4, 1, .w1c, 0⟩, ⟨5, 1, .w1c, 0⟩]⟩
]

/-- Every register of the block, in placement order. -/
def regs : List RegDef := regs0

end Sys2Proof.Machine.GLB

namespace Sys2Proof.Machine.PWR

def regs0 : List RegDef := [
  -- PWR.DOM
  ⟨0x100004, 4, 13, .whole, .none, [⟨0, 16, .rw, 0x3E8⟩, ⟨16, 1, .rw, 0⟩, ⟨17, 1, .rw, 0⟩]⟩,
  -- PWR.DSTAT
  ⟨0x100044, 4, 13, .whole, .none, [⟨0, 3, .ro, 0⟩]⟩,
  -- PWR.WAKECNT
  ⟨0x100084, 4, 13, .whole, .none, [⟨0, 32, .rc, 0⟩]⟩,
  -- PWR.CFG
  ⟨0x1000C0, 4, 1, .whole, .none, [⟨0, 1, .rw, 0⟩]⟩,
  -- PWR.WAKESRC
  ⟨0x100100, 4, 1, .whole, .none, [⟨0, 1, .rw, 0⟩, ⟨1, 1, .rw, 1⟩, ⟨2, 1, .rw, 1⟩, ⟨3, 1, .rw, 1⟩, ⟨4, 1, .rw, 0⟩, ⟨5, 1, .rw, 1⟩]⟩,
  -- PWR.WAKEGPIO
  ⟨0x100140, 4, 1, .whole, .none, [⟨0, 32, .rw, 0⟩]⟩,
  -- PWR.SLEEPTMR
  ⟨0x100180, 4, 1, .whole, .none, [⟨0, 32, .rw, 0⟩]⟩,
  -- PWR.LASTWAKE
  ⟨0x1001C0, 4, 1, .whole, .none, [⟨0, 3, .ro, 0⟩]⟩
]

/-- Every register of the block, in placement order. -/
def regs : List RegDef := regs0

end Sys2Proof.Machine.PWR

namespace Sys2Proof.Machine.THM

def regs0 : List RegDef := [
  -- THM.THRESH
  ⟨0x200000, 4, 1, .whole, .none, [⟨0, 8, .rw, 0x5F⟩, ⟨8, 8, .rw, 0x69⟩, ⟨16, 8, .rw, 0x73⟩]⟩,
  -- THM.POLICY
  ⟨0x200040, 4, 1, .whole, .none, [⟨0, 1, .rw, 0⟩, ⟨1, 4, .rw, 4⟩, ⟨5, 4, .rw, 8⟩, ⟨9, 16, .rw, 0x1F4⟩]⟩,
  -- THM.TEMP
  ⟨0x200080, 4, 24, .whole, .none, [⟨0, 16, .ro, 0⟩, ⟨16, 1, .ro, 0⟩, ⟨17, 1, .ro, 0⟩, ⟨18, 2, .ro, 0⟩]⟩,
  -- THM.RETIRE
  ⟨0x200100, 4, 1, .whole, .none, [⟨0, 24, .w1s, 0⟩]⟩,
  -- THM.ZSTAT
  ⟨0x200140, 4, 12, .whole, .none, [⟨0, 16, .ro, 0⟩, ⟨16, 2, .ro, 0⟩, ⟨18, 1, .ro, 0⟩, ⟨19, 1, .ro, 0⟩]⟩,
  -- THM.TREQ
  ⟨0x200180, 4, 4, .whole, .none, [⟨0, 20, .ro, 0xFFFFF⟩]⟩,
  -- THM.STAT
  ⟨0x2001C0, 4, 1, .whole, .none, [⟨0, 1, .rws, 0⟩, ⟨1, 1, .ro, 0⟩, ⟨4, 4, .rws, 0⟩]⟩,
  -- THM.ERR
  ⟨0x200200, 4, 1, .whole, .none, [⟨0, 1, .w1c, 0⟩, ⟨1, 1, .w1c, 0⟩]⟩
]

/-- Every register of the block, in placement order. -/
def regs : List RegDef := regs0

end Sys2Proof.Machine.THM

namespace Sys2Proof.Machine.CRS

def regs0 : List RegDef := [
  -- CRS.PLLSTAT
  ⟨0x300000, 4, 1, .whole, .none, [⟨0, 6, .ro, 0⟩]⟩,
  -- CRS.CLKERR
  ⟨0x300040, 4, 1, .whole, .none, [⟨0, 1, .rws, 0⟩, ⟨1, 6, .w1c, 0⟩]⟩
]

/-- Every register of the block, in placement order. -/
def regs : List RegDef := regs0

end Sys2Proof.Machine.CRS

namespace Sys2Proof.Machine.CWY

def regs0 : List RegDef := [
  -- CWY.DBGCTL
  ⟨0x400000, 4, 16, .whole, .none, [⟨0, 1, .wo, 0⟩, ⟨1, 1, .wo, 0⟩, ⟨2, 1, .wo, 0⟩, ⟨3, 1, .rw, 0⟩, ⟨4, 1, .ro, 0⟩, ⟨5, 1, .w1c, 0⟩]⟩,
  -- CWY.DBGSEL
  ⟨0x400040, 4, 16, .whole, .none, [⟨0, 7, .rw, 0⟩]⟩,
  -- CWY.DBGDATA_LO
  ⟨0x400080, 8, 16, .lo, .none, [⟨0, 32, .rw, 0⟩]⟩,
  -- CWY.DBGDATA_HI
  ⟨0x400084, 8, 16, .hi, .none, [⟨0, 32, .rw, 0⟩]⟩,
  -- CWY.DBGBP
  ⟨0x400100, 4, 64, .whole, .none, [⟨0, 24, .rw, 0⟩, ⟨31, 1, .rw, 0⟩]⟩,
  -- CWY.TSTAT
  ⟨0x400200, 4, 16, .whole, .none, [⟨0, 2, .ro, 0⟩, ⟨8, 8, .ro, 0⟩, ⟨16, 6, .ro, 0⟩, ⟨22, 1, .ro, 0⟩]⟩,
  -- CWY.TCTL
  ⟨0x400240, 4, 16, .whole, .none, [⟨0, 1, .wo, 0⟩]⟩,
  -- CWY.FAULTPC_LO
  ⟨0x400280, 8, 16, .lo, .none, [⟨0, 32, .ro, 0⟩]⟩,
  -- CWY.FAULTPC_HI
  ⟨0x400284, 8, 16, .hi, .none, [⟨0, 32, .ro, 0⟩]⟩,
  -- CWY.FAULTADDR_LO
  ⟨0x400300, 8, 16, .lo, .none, [⟨0, 32, .ro, 0⟩]⟩,
  -- CWY.FAULTADDR_HI
  ⟨0x400304, 8, 16, .hi, .none, [⟨0, 32, .ro, 0⟩]⟩
]

/-- Every register of the block, in placement order. -/
def regs : List RegDef := regs0

end Sys2Proof.Machine.CWY

namespace Sys2Proof.Machine.RDC

def regs0 : List RegDef := [
  -- RDC.DBGCTL
  ⟨0x800000, 65536, 32, .whole, .none, [⟨0, 1, .wo, 0⟩, ⟨1, 1, .wo, 0⟩, ⟨2, 1, .wo, 0⟩, ⟨3, 1, .rw, 0⟩, ⟨4, 1, .ro, 0⟩, ⟨5, 1, .w1c, 0⟩]⟩,
  -- RDC.DBGSEL
  ⟨0x800040, 65536, 32, .whole, .none, [⟨0, 7, .rw, 0⟩]⟩,
  -- RDC.DBGDATA_LO
  ⟨0x800080, 65536, 32, .lo, .none, [⟨0, 32, .rw, 0⟩]⟩,
  -- RDC.DBGDATA_HI
  ⟨0x800084, 65536, 32, .hi, .none, [⟨0, 32, .rw, 0⟩]⟩,
  -- RDC.DBGBP
  ⟨0x8000C0, 65536, 32, .whole, .none, [⟨0, 24, .rw, 0⟩, ⟨31, 1, .rw, 0⟩]⟩,
  -- RDC.DBGBP
  ⟨0x8000C4, 65536, 32, .whole, .none, [⟨0, 24, .rw, 0⟩, ⟨31, 1, .rw, 0⟩]⟩,
  -- RDC.DBGBP
  ⟨0x8000C8, 65536, 32, .whole, .none, [⟨0, 24, .rw, 0⟩, ⟨31, 1, .rw, 0⟩]⟩,
  -- RDC.DBGBP
  ⟨0x8000CC, 65536, 32, .whole, .none, [⟨0, 24, .rw, 0⟩, ⟨31, 1, .rw, 0⟩]⟩,
  -- RDC.STAT
  ⟨0x800100, 65536, 32, .whole, .none, [⟨0, 3, .ro, 0⟩, ⟨3, 1, .w1c, 0⟩, ⟨4, 4, .ro, 0⟩, ⟨8, 8, .ro, 0⟩]⟩,
  -- RDC.CTL
  ⟨0x800140, 65536, 32, .whole, .none, [⟨0, 1, .rw, 0⟩, ⟨1, 1, .wo, 0⟩, ⟨2, 1, .wo, 0⟩]⟩,
  -- RDC.EXITVAL
  ⟨0x800180, 65536, 32, .whole, .none, [⟨0, 32, .ro, 0⟩]⟩,
  -- RDC.IMG_LO
  ⟨0x8001C0, 65536, 32, .lo, .none, [⟨0, 32, .rw, 0⟩]⟩,
  -- RDC.IMG_HI
  ⟨0x8001C4, 65536, 32, .hi, .none, [⟨0, 32, .rw, 0⟩]⟩,
  -- RDC.FAULTPC_LO
  ⟨0x800200, 65536, 32, .lo, .none, [⟨0, 32, .ro, 0⟩]⟩,
  -- RDC.FAULTPC_HI
  ⟨0x800204, 65536, 32, .hi, .none, [⟨0, 32, .ro, 0⟩]⟩,
  -- RDC.FAULTADDR_LO
  ⟨0x800240, 65536, 32, .lo, .none, [⟨0, 32, .ro, 0⟩]⟩,
  -- RDC.FAULTADDR_HI
  ⟨0x800244, 65536, 32, .hi, .none, [⟨0, 32, .ro, 0⟩]⟩
]

/-- Every register of the block, in placement order. -/
def regs : List RegDef := regs0

end Sys2Proof.Machine.RDC

namespace Sys2Proof.Machine.LDG

def regs0 : List RegDef := [
  -- LDG.CFG
  ⟨0xC00000, 4, 1, .whole, .none, [⟨0, 10, .rw, 0x100⟩, ⟨16, 8, .rw, 0xA⟩]⟩,
  -- LDG.POLICY
  ⟨0xC00040, 4, 4, .whole, .ledgerGroup, [⟨0, 1, .rwl, 0⟩]⟩,
  -- LDG.MIRBASE_LO
  ⟨0xC00080, 8, 4, .lo, .mirror, [⟨0, 32, .rwl, 0⟩]⟩,
  -- LDG.MIRBASE_HI
  ⟨0xC00084, 8, 4, .hi, .mirror, [⟨0, 32, .rwl, 0⟩]⟩,
  -- LDG.MIRCFG
  ⟨0xC000C0, 4, 4, .whole, .none, [⟨0, 1, .rw, 0⟩]⟩,
  -- LDG.NEXTFSN_LO
  ⟨0xC00100, 8, 4, .lo, .none, [⟨0, 32, .rws, 0⟩]⟩,
  -- LDG.NEXTFSN_HI
  ⟨0xC00104, 8, 4, .hi, .none, [⟨0, 32, .rws, 0⟩]⟩,
  -- LDG.OLDEST_LO
  ⟨0xC00140, 8, 4, .lo, .none, [⟨0, 32, .ro, 0⟩]⟩,
  -- LDG.OLDEST_HI
  ⟨0xC00144, 8, 4, .hi, .none, [⟨0, 32, .ro, 0⟩]⟩,
  -- LDG.HALTFSN_LO
  ⟨0xC00180, 8, 4, .lo, .none, [⟨0, 32, .ro, 0⟩]⟩,
  -- LDG.HALTFSN_HI
  ⟨0xC00184, 8, 4, .hi, .none, [⟨0, 32, .ro, 0⟩]⟩,
  -- LDG.GBFROM_LO
  ⟨0xC001C0, 8, 4, .lo, .none, [⟨0, 32, .ro, 0⟩]⟩,
  -- LDG.GBFROM_HI
  ⟨0xC001C4, 8, 4, .hi, .none, [⟨0, 32, .ro, 0⟩]⟩,
  -- LDG.GBTO_LO
  ⟨0xC00200, 8, 4, .lo, .none, [⟨0, 32, .ro, 0⟩]⟩,
  -- LDG.GBTO_HI
  ⟨0xC00204, 8, 4, .hi, .none, [⟨0, 32, .ro, 0⟩]⟩,
  -- LDG.STAT
  ⟨0xC00240, 4, 4, .whole, .none, [⟨0, 2, .ro, 3⟩, ⟨2, 1, .ro, 0⟩, ⟨3, 1, .ro, 0⟩]⟩,
  -- LDG.MIRLAG
  ⟨0xC00280, 4, 4, .whole, .none, [⟨0, 32, .ro, 0⟩]⟩,
  -- LDG.MARKCFG
  ⟨0xC002C0, 4, 4, .whole, .ledgerGroup, [⟨0, 1, .rwl, 0⟩, ⟨1, 2, .rwl, 0⟩, ⟨3, 7, .rwl, 0⟩, ⟨10, 3, .rwl, 0⟩, ⟨16, 16, .rwl, 0⟩]⟩,
  -- LDG.STRIPE
  ⟨0xC00300, 4, 4, .whole, .ledgerGroup, [⟨0, 16, .rwl, 0⟩, ⟨16, 16, .rwl, 0⟩]⟩,
  -- LDG.RESOLVE
  ⟨0xC00340, 4, 4, .whole, .none, [⟨0, 2, .rw, 0⟩, ⟨2, 1, .wo, 0⟩]⟩,
  -- LDG.CNT
  ⟨0xC00380, 4, 16, .whole, .none, [⟨0, 32, .rc, 0⟩]⟩,
  -- LDG.ERR
  ⟨0xC003C0, 4, 1, .whole, .none, [⟨0, 1, .w1c, 0⟩, ⟨1, 1, .w1c, 0⟩, ⟨2, 1, .w1c, 0⟩, ⟨3, 1, .w1c, 0⟩, ⟨4, 1, .w1c, 0⟩, ⟨5, 1, .w1c, 0⟩, ⟨6, 1, .w1c, 0⟩]⟩
]

/-- Every register of the block, in placement order. -/
def regs : List RegDef := regs0

end Sys2Proof.Machine.LDG

namespace Sys2Proof.Machine.TWN

def regs0 : List RegDef := [
  -- TWN.CFG
  ⟨0xD00000, 4, 1, .whole, .none, [⟨0, 8, .rw, 4⟩, ⟨8, 8, .rw, 0xA⟩, ⟨16, 8, .rw, 0x10⟩, ⟨24, 1, .rw, 1⟩]⟩,
  -- TWN.CTL
  ⟨0xD00040, 4, 1, .whole, .none, [⟨0, 1, .wo, 0⟩, ⟨1, 1, .wo, 0⟩, ⟨2, 1, .wo, 0⟩, ⟨8, 8, .wo, 0⟩]⟩,
  -- TWN.STAT
  ⟨0xD00080, 4, 1, .whole, .none, [⟨0, 3, .ro, 0⟩, ⟨3, 4, .ro, 0⟩, ⟨7, 1, .ro, 0⟩, ⟨8, 1, .ro, 0⟩, ⟨9, 1, .ro, 0⟩, ⟨10, 1, .ro, 0⟩, ⟨11, 1, .ro, 0⟩]⟩,
  -- TWN.CLAIM
  ⟨0xD000C0, 4, 1, .whole, .none, [⟨0, 32, .ro, 0⟩]⟩,
  -- TWN.PCLAIM
  ⟨0xD00100, 4, 1, .whole, .none, [⟨0, 32, .ro, 0⟩]⟩,
  -- TWN.HBAGE
  ⟨0xD00140, 4, 1, .whole, .none, [⟨0, 16, .ro, 0xFFFF⟩, ⟨16, 16, .ro, 0xFFFF⟩]⟩,
  -- TWN.DIV
  ⟨0xD00180, 4, 1, .whole, .none, [⟨0, 4, .ro, 0⟩, ⟨8, 24, .ro, 0⟩]⟩,
  -- TWN.JOINQ
  ⟨0xD001C0, 4, 64, .whole, .none, [⟨0, 32, .ro, 0⟩]⟩,
  -- TWN.TABSUM_LO
  ⟨0xD002C0, 8, 1, .lo, .none, [⟨0, 32, .ro, 0⟩]⟩,
  -- TWN.TABSUM_HI
  ⟨0xD002C4, 8, 1, .hi, .none, [⟨0, 32, .ro, 0⟩]⟩,
  -- TWN.CNT
  ⟨0xD00300, 4, 8, .whole, .none, [⟨0, 32, .rc, 0⟩]⟩,
  -- TWN.ERR
  ⟨0xD00340, 4, 1, .whole, .none, [⟨0, 1, .w1c, 0⟩, ⟨1, 1, .w1c, 0⟩, ⟨2, 1, .w1c, 0⟩, ⟨3, 1, .w1c, 0⟩, ⟨4, 1, .w1c, 0⟩, ⟨5, 1, .w1c, 0⟩, ⟨6, 1, .w1c, 0⟩]⟩
]

/-- Every register of the block, in placement order. -/
def regs : List RegDef := regs0

end Sys2Proof.Machine.TWN

namespace Sys2Proof.Machine.SLC

def regs0 : List RegDef := [
  -- SLC.MIREBASE
  ⟨0x1000000, 4, 16, .whole, .mire, [⟨0, 18, .rwl, 0⟩]⟩,
  -- SLC.MIRESIZE
  ⟨0x1000040, 4, 16, .whole, .mire, [⟨0, 18, .rwl, 0⟩]⟩,
  -- SLC.MIRECTL
  ⟨0x1000080, 4, 1, .whole, .none, [⟨0, 1, .wo, 0⟩, ⟨1, 1, .wo, 0⟩, ⟨2, 2, .ro, 0⟩, ⟨4, 4, .ro, 0⟩, ⟨8, 4, .ro, 0⟩, ⟨12, 1, .w1c, 0⟩]⟩,
  -- SLC.POOL
  ⟨0x10000C0, 4, 1, .whole, .none, [⟨0, 24, .ro, 0⟩]⟩,
  -- SLC.BANDS
  ⟨0x1000100, 4, 1, .whole, .none, [⟨0, 14, .ro, 0x2000⟩, ⟨14, 1, .ro, 0⟩]⟩,
  -- SLC.DICTSTAT
  ⟨0x1000140, 4, 16, .whole, .none, [⟨0, 16, .ro, 0⟩, ⟨16, 1, .ro, 0⟩, ⟨17, 1, .ro, 0⟩, ⟨18, 14, .ro, 0⟩]⟩,
  -- SLC.DICTADLER
  ⟨0x1000180, 4, 16, .whole, .none, [⟨0, 32, .ro, 1⟩]⟩,
  -- SLC.IENG
  ⟨0x10001C0, 4, 16, .whole, .none, [⟨0, 1, .ro, 0⟩, ⟨1, 2, .ro, 0⟩, ⟨3, 1, .ro, 0⟩, ⟨4, 13, .ro, 0⟩, ⟨17, 12, .ro, 0⟩, ⟨29, 3, .ro, 0⟩]⟩,
  -- SLC.DENG
  ⟨0x1000200, 4, 2, .whole, .none, [⟨0, 1, .ro, 0⟩, ⟨1, 1, .ro, 0⟩, ⟨2, 4, .ro, 0⟩]⟩,
  -- SLC.ERR
  ⟨0x1000240, 4, 1, .whole, .none, [⟨0, 1, .w1c, 0⟩, ⟨1, 1, .w1c, 0⟩, ⟨2, 1, .w1c, 0⟩, ⟨3, 1, .w1c, 0⟩, ⟨4, 1, .w1c, 0⟩, ⟨5, 1, .w1c, 0⟩, ⟨6, 1, .w1c, 0⟩]⟩,
  -- SLC.ERRBAND
  ⟨0x1000280, 4, 1, .whole, .none, [⟨0, 13, .ro, 0⟩, ⟨16, 4, .ro, 0⟩]⟩,
  -- SLC.CFG
  ⟨0x10002C0, 4, 1, .whole, .none, [⟨0, 1, .rw, 0⟩, ⟨1, 3, .rw, 1⟩]⟩
]

/-- Every register of the block, in placement order. -/
def regs : List RegDef := regs0

end Sys2Proof.Machine.SLC

namespace Sys2Proof.Machine.SDG

def regs0 : List RegDef := [
  -- SDG.CHCFG
  ⟨0x1400000, 4, 8, .whole, .lodeOfChannel, [⟨0, 1, .rwl, 0⟩]⟩,
  -- SDG.CHSTAT
  ⟨0x1400040, 4, 8, .whole, .none, [⟨0, 2, .ro, 2⟩, ⟨2, 1, .ro, 0⟩, ⟨3, 1, .ro, 0⟩]⟩,
  -- SDG.PENDLINE_LO
  ⟨0x1400080, 8, 8, .lo, .none, [⟨0, 32, .ro, 0⟩]⟩,
  -- SDG.PENDLINE_HI
  ⟨0x1400084, 8, 8, .hi, .none, [⟨0, 32, .ro, 0⟩]⟩,
  -- SDG.LASTLINE_LO
  ⟨0x14000C0, 8, 8, .lo, .none, [⟨0, 32, .ro, 0⟩]⟩,
  -- SDG.LASTLINE_HI
  ⟨0x14000C4, 8, 8, .hi, .none, [⟨0, 32, .ro, 0⟩]⟩,
  -- SDG.TAGCFG
  ⟨0x1400100, 4, 64, .whole, .sedgeBank, [⟨0, 2, .rwl, 0⟩, ⟨2, 2, .rwl, 0⟩, ⟨4, 1, .rwl, 0⟩, ⟨5, 2, .rwl, 0⟩, ⟨16, 12, .rwl, 0⟩]⟩,
  -- SDG.SCRMAP
  ⟨0x1400200, 4, 64, .whole, .sedgeBank, [⟨0, 5, .rwl, 0⟩, ⟨5, 1, .rwl, 0⟩, ⟨8, 8, .rwl, 0⟩, ⟨16, 8, .rwl, 0⟩]⟩,
  -- SDG.SLOTCFG
  ⟨0x1400300, 4, 32, .whole, .screenSlot, [⟨0, 8, .rwl, 0⟩, ⟨8, 8, .rwl, 0⟩, ⟨31, 1, .rwl, 0⟩]⟩,
  -- SDG.DEQ
  ⟨0x1400380, 4, 64, .whole, .lodeOfSpread, [⟨0, 12, .rwl, 0⟩]⟩,
  -- SDG.INKW
  ⟨0x1400480, 4, 16, .whole, .limiterWeights, [⟨0, 8, .rwl, 0x40⟩, ⟨8, 8, .rwl, 0x40⟩, ⟨16, 8, .rwl, 0x40⟩, ⟨24, 8, .rwl, 0x40⟩]⟩,
  -- SDG.INKCAP
  ⟨0x14004C0, 4, 8, .whole, .limiterCap, [⟨0, 24, .rwl, 0xFFFFFF⟩, ⟨24, 8, .rwl, 0⟩]⟩,
  -- SDG.INKSTAT
  ⟨0x1400500, 4, 4, .whole, .none, [⟨0, 1, .ro, 0⟩, ⟨1, 1, .ro, 0⟩]⟩,
  -- SDG.INKCNT
  ⟨0x1400540, 4, 4, .whole, .none, [⟨0, 32, .rc, 0⟩]⟩,
  -- SDG.INKOVR
  ⟨0x1400580, 4, 4, .whole, .none, [⟨0, 32, .rc, 0⟩]⟩,
  -- SDG.ERR
  ⟨0x14005C0, 4, 1, .whole, .none, [⟨0, 1, .w1c, 0⟩, ⟨1, 1, .w1c, 0⟩, ⟨2, 1, .w1c, 0⟩, ⟨3, 1, .w1c, 0⟩, ⟨4, 1, .w1c, 0⟩, ⟨5, 1, .w1c, 0⟩, ⟨8, 3, .ro, 0⟩]⟩,
  -- SDG.ERRADDR_LO
  ⟨0x1400600, 8, 1, .lo, .none, [⟨0, 32, .ro, 0⟩]⟩,
  -- SDG.ERRADDR_HI
  ⟨0x1400604, 8, 1, .hi, .none, [⟨0, 32, .ro, 0⟩]⟩
]

/-- Every register of the block, in placement order. -/
def regs : List RegDef := regs0

end Sys2Proof.Machine.SDG

namespace Sys2Proof.Machine.HMK

def regs0 : List RegDef := [
  -- HMK.SCHCFG
  ⟨0x1800000, 4, 8, .whole, .lodeOfChannel, [⟨0, 5, .rwl, 0⟩, ⟨5, 2, .rwl, 0⟩]⟩,
  -- HMK.SCHSLOT
  ⟨0x1800040, 4, 256, .whole, .lodeOfSchedule, [⟨0, 7, .rwl, 0⟩, ⟨8, 5, .rwl, 0⟩, ⟨16, 2, .rwl, 0⟩]⟩,
  -- HMK.CHCFG
  ⟨0x1800440, 4, 8, .whole, .lodeOfChannel, [⟨0, 1, .rwl, 1⟩, ⟨1, 1, .rwl, 1⟩, ⟨2, 1, .rwl, 0⟩, ⟨3, 1, .rwl, 0⟩, ⟨4, 1, .rwl, 0⟩, ⟨5, 1, .rwl, 0⟩]⟩,
  -- HMK.GAINMAP
  ⟨0x1800480, 4, 512, .whole, .lodeOfGain, [⟨0, 3, .ro, 0⟩, ⟨3, 3, .rwl, 1⟩, ⟨6, 3, .rwl, 2⟩, ⟨9, 3, .rwl, 3⟩, ⟨12, 3, .rwl, 4⟩, ⟨15, 3, .rwl, 5⟩, ⟨18, 3, .rwl, 6⟩, ⟨21, 3, .rwl, 7⟩]⟩,
  -- HMK.SPREAD
  ⟨0x1800C80, 4, 64, .whole, .lodeOfSpread, [⟨0, 3, .rwl, 0⟩, ⟨3, 3, .rwl, 0⟩, ⟨6, 3, .rwl, 0⟩, ⟨9, 3, .rwl, 0⟩, ⟨12, 3, .rwl, 0⟩, ⟨15, 3, .rwl, 0⟩, ⟨18, 3, .rwl, 0⟩, ⟨21, 3, .rwl, 0⟩]⟩,
  -- HMK.CFG
  ⟨0x1800D80, 4, 1, .whole, .none, [⟨0, 16, .rw, 0x100⟩]⟩,
  -- HMK.LASTLINE_LO
  ⟨0x1800DC0, 8, 8, .lo, .none, [⟨0, 32, .ro, 0⟩]⟩,
  -- HMK.LASTLINE_HI
  ⟨0x1800DC4, 8, 8, .hi, .none, [⟨0, 32, .ro, 0⟩]⟩,
  -- HMK.UPDSTAT
  ⟨0x1800E00, 4, 8, .whole, .none, [⟨0, 13, .ro, 0⟩]⟩,
  -- HMK.FBCNT
  ⟨0x1800E40, 4, 8, .whole, .none, [⟨0, 32, .rc, 0⟩]⟩,
  -- HMK.SUBCNT
  ⟨0x1800E80, 4, 8, .whole, .none, [⟨0, 32, .rc, 0⟩]⟩,
  -- HMK.SPRCNT
  ⟨0x1800EC0, 4, 8, .whole, .none, [⟨0, 32, .rc, 0⟩]⟩,
  -- HMK.LOSTCNT
  ⟨0x1800F00, 4, 8, .whole, .none, [⟨0, 32, .rc, 0⟩]⟩,
  -- HMK.RELOAD
  ⟨0x1800F40, 4, 1, .whole, .none, [⟨0, 7, .rw, 0⟩, ⟨8, 7, .rw, 0⟩, ⟨16, 1, .wo, 0⟩, ⟨17, 1, .ro, 0⟩, ⟨18, 1, .w1c, 0⟩]⟩,
  -- HMK.STAT
  ⟨0x1800F80, 4, 1, .whole, .none, [⟨0, 1, .ro, 0⟩, ⟨1, 1, .w1c, 0⟩]⟩,
  -- HMK.ERR
  ⟨0x1800FC0, 4, 1, .whole, .none, [⟨0, 1, .w1c, 0⟩, ⟨1, 1, .w1c, 0⟩, ⟨2, 1, .w1c, 0⟩, ⟨3, 1, .w1c, 0⟩, ⟨4, 1, .w1c, 0⟩, ⟨5, 1, .w1c, 0⟩]⟩,
  -- HMK.ERRNOZ
  ⟨0x1801000, 4, 1, .whole, .none, [⟨0, 23, .ro, 0⟩]⟩
]

/-- Every register of the block, in placement order. -/
def regs : List RegDef := regs0

end Sys2Proof.Machine.HMK

namespace Sys2Proof.Machine.LDE

def regs0 : List RegDef := [
  -- LDE.HTIDX
  ⟨0x1C00000, 4, 1, .whole, .none, [⟨0, 12, .rw, 0⟩, ⟨16, 1, .wo, 0⟩, ⟨17, 1, .wo, 0⟩]⟩,
  -- LDE.PGCFG
  ⟨0x1C00040, 4, 4, .whole, .lodesOfGroup, [⟨0, 8, .rwl, 0⟩, ⟨8, 8, .rwl, 0⟩, ⟨16, 2, .rwl, 1⟩, ⟨31, 1, .rwl, 0⟩]⟩,
  -- LDE.CHSPAN
  ⟨0x1C00080, 4, 8, .whole, .lodeOfChannel, [⟨0, 16, .rwl, 0⟩, ⟨16, 16, .rwl, 0xD000⟩]⟩,
  -- LDE.ROWCFG
  ⟨0x1C000C0, 4, 128, .whole, .lodeOfRow, [⟨0, 3, .rwl, 0⟩, ⟨8, 7, .rwl, 0⟩, ⟨15, 1, .rwl, 0⟩, ⟨31, 1, .rwl, 0⟩]⟩,
  -- LDE.ROWDLY
  ⟨0x1C002C0, 4, 128, .whole, .lodeOfRow, [⟨0, 20, .rwl, 0⟩, ⟨20, 8, .rwl, 0⟩]⟩,
  -- LDE.RATECAP
  ⟨0x1C004C0, 4, 4, .whole, .none, [⟨0, 20, .ro, 0⟩]⟩,
  -- LDE.GEOSTAT
  ⟨0x1C00500, 4, 1, .whole, .none, [⟨0, 2, .ro, 0⟩, ⟨4, 4, .ro, 0⟩, ⟨8, 12, .ro, 0⟩, ⟨24, 8, .ro, 0⟩]⟩,
  -- LDE.PGTIM
  ⟨0x1C00540, 4, 4, .whole, .lodesOfGroup, [⟨0, 3, .rwl, 0⟩, ⟨3, 3, .rwl, 3⟩, ⟨6, 4, .rwl, 2⟩, ⟨10, 8, .rwl, 0x10⟩]⟩,
  -- LDE.PGLEAD
  ⟨0x1C00580, 4, 4, .whole, .lodesOfGroup, [⟨0, 10, .rwl, 0x64⟩, ⟨10, 6, .rwl, 0xA⟩, ⟨16, 12, .rwl, 0x200⟩]⟩,
  -- LDE.MINRATE
  ⟨0x1C005C0, 4, 4, .whole, .lodesOfGroup, [⟨0, 20, .rwl, 0xC8⟩]⟩,
  -- LDE.TRIG_LO
  ⟨0x1C00600, 8, 4, .lo, .none, [⟨0, 32, .ro, 0⟩]⟩,
  -- LDE.TRIG_HI
  ⟨0x1C00604, 8, 4, .hi, .none, [⟨0, 32, .ro, 0⟩]⟩,
  -- LDE.TRGPER
  ⟨0x1C00640, 4, 4, .whole, .none, [⟨0, 32, .ro, 0⟩]⟩,
  -- LDE.PLACE
  ⟨0x1C00680, 4, 128, .whole, .lodeOfRow, [⟨0, 8, .rwl, 0⟩]⟩,
  -- LDE.DYKCFG
  ⟨0x1C00880, 4, 8, .whole, .lodeOfChannel, [⟨0, 9, .rwl, 0x32⟩, ⟨9, 2, .rwl, 3⟩]⟩,
  -- LDE.DYKDOWN
  ⟨0x1C008C0, 4, 8, .whole, .lodeOfChannel, [⟨0, 3, .ro, 0⟩, ⟨3, 3, .rwl, 0⟩, ⟨6, 3, .rwl, 1⟩, ⟨9, 3, .rwl, 2⟩, ⟨12, 3, .rwl, 3⟩, ⟨15, 3, .rwl, 4⟩, ⟨18, 3, .rwl, 5⟩, ⟨21, 3, .rwl, 6⟩]⟩,
  -- LDE.LATECNT
  ⟨0x1C00900, 4, 8, .whole, .none, [⟨0, 32, .rc, 0⟩]⟩,
  -- LDE.OVERCNT
  ⟨0x1C00940, 4, 8, .whole, .none, [⟨0, 32, .rc, 0⟩]⟩,
  -- LDE.PLACECNT
  ⟨0x1C00980, 4, 8, .whole, .none, [⟨0, 32, .rc, 0⟩]⟩,
  -- LDE.SPLITCNT
  ⟨0x1C009C0, 4, 8, .whole, .none, [⟨0, 32, .rc, 0⟩]⟩,
  -- LDE.CLAMPCNT
  ⟨0x1C00A00, 4, 8, .whole, .none, [⟨0, 32, .rc, 0⟩]⟩,
  -- LDE.ERR
  ⟨0x1C00A40, 4, 1, .whole, .none, [⟨0, 1, .w1c, 0⟩, ⟨1, 1, .w1c, 0⟩, ⟨2, 1, .w1c, 0⟩, ⟨3, 1, .w1c, 0⟩, ⟨4, 1, .w1c, 0⟩, ⟨5, 1, .w1c, 0⟩]⟩,
  -- LDE.ERRDG
  ⟨0x1C00A80, 4, 1, .whole, .none, [⟨0, 10, .ro, 0⟩, ⟨10, 3, .ro, 0⟩]⟩,
  -- LDE.ERRADDR_LO
  ⟨0x1C00AC0, 8, 1, .lo, .none, [⟨0, 32, .ro, 0⟩]⟩
]

def regs1 : List RegDef := [
  -- LDE.ERRADDR_HI
  ⟨0x1C00AC4, 8, 1, .hi, .none, [⟨0, 32, .ro, 0⟩]⟩,
  -- LDE.HTDATA
  ⟨0x1C00B00, 4, 4, .whole, .none, [⟨0, 32, .rw, 0⟩]⟩,
  -- LDE.GEOCTL
  ⟨0x1C00B40, 4, 1, .whole, .none, [⟨0, 1, .wo, 0⟩]⟩,
  -- LDE.GEOHASH
  ⟨0x1C00B80, 4, 1, .whole, .none, [⟨0, 32, .ro, 0⟩]⟩
]

/-- Every register of the block, in placement order. -/
def regs : List RegDef := regs0 ++ regs1

end Sys2Proof.Machine.LDE

namespace Sys2Proof.Machine.DLK

def regs0 : List RegDef := [
  -- DLK.CFG
  ⟨0x2000000, 4, 1, .whole, .none, [⟨0, 8, .rw, 0x64⟩, ⟨8, 8, .rw, 0x14⟩, ⟨16, 8, .rw, 0x10⟩, ⟨24, 8, .rw, 0xA⟩]⟩,
  -- DLK.DEGRADE
  ⟨0x2000040, 4, 1, .whole, .none, [⟨0, 16, .rw, 0x100⟩]⟩,
  -- DLK.HUBLANE
  ⟨0x2000080, 4, 40, .whole, .hub, [⟨0, 6, .rwl, 0⟩, ⟨8, 6, .rwl, 0⟩, ⟨16, 6, .rwl, 0⟩, ⟨24, 6, .rwl, 0⟩]⟩,
  -- DLK.HUBCTL
  ⟨0x2000140, 4, 40, .whole, .hub, [⟨0, 1, .rw, 0⟩, ⟨1, 2, .rwl, 0⟩, ⟨3, 1, .wo, 0⟩, ⟨4, 10, .rwl, 0x64⟩]⟩,
  -- DLK.HUBSTAT
  ⟨0x2000200, 4, 40, .whole, .none, [⟨0, 2, .ro, 0⟩, ⟨2, 4, .ro, 0⟩, ⟨6, 1, .ro, 0⟩, ⟨7, 1, .ro, 0⟩]⟩,
  -- DLK.HUBCLAIM
  ⟨0x20002C0, 4, 40, .whole, .none, [⟨0, 32, .ro, 0⟩]⟩,
  -- DLK.HUBAGE
  ⟨0x2000380, 4, 40, .whole, .none, [⟨0, 20, .ro, 0xFFFFF⟩]⟩,
  -- DLK.HUBCNT
  ⟨0x2000440, 4, 320, .whole, .none, [⟨0, 32, .rc, 0⟩]⟩,
  -- DLK.LANEDLY
  ⟨0x2000940, 4, 40, .whole, .none, [⟨0, 24, .ro, 0⟩]⟩,
  -- DLK.REPLAY
  ⟨0x2000A00, 4, 1, .whole, .none, [⟨0, 16, .ro, 0⟩, ⟨16, 16, .ro, 0⟩]⟩,
  -- DLK.ERR
  ⟨0x2000A40, 4, 1, .whole, .none, [⟨0, 1, .w1c, 0⟩, ⟨1, 1, .w1c, 0⟩, ⟨2, 1, .w1c, 0⟩, ⟨3, 1, .w1c, 0⟩, ⟨4, 1, .w1c, 0⟩, ⟨5, 1, .w1c, 0⟩, ⟨6, 1, .w1c, 0⟩, ⟨7, 1, .w1c, 0⟩]⟩,
  -- DLK.ERRHUB
  ⟨0x2000A80, 4, 1, .whole, .none, [⟨0, 6, .ro, 0⟩, ⟨8, 8, .ro, 0⟩]⟩
]

/-- Every register of the block, in placement order. -/
def regs : List RegDef := regs0

end Sys2Proof.Machine.DLK

namespace Sys2Proof.Machine.MER

def regs0 : List RegDef := [
  -- MER.CAMCFG
  ⟨0x2400000, 4, 2, .whole, .camera, [⟨0, 1, .rw, 0⟩, ⟨1, 2, .rwl, 0⟩, ⟨3, 3, .rwl, 0⟩, ⟨6, 2, .rwl, 2⟩, ⟨8, 2, .rwl, 0⟩, ⟨10, 3, .rwl, 3⟩, ⟨13, 3, .rwl, 0⟩, ⟨16, 16, .rwl, 0⟩]⟩,
  -- MER.CAMIMG
  ⟨0x2400040, 4, 2, .whole, .camera, [⟨0, 15, .rwl, 0x10⟩, ⟨16, 16, .rwl, 0x40⟩]⟩,
  -- MER.CAMGEO
  ⟨0x2400080, 4, 2, .whole, .camera, [⟨0, 16, .rwl, 0⟩, ⟨16, 16, .rwl, 0x4000⟩]⟩,
  -- MER.CAMDLY
  ⟨0x24000C0, 4, 2, .whole, .camera, [⟨0, 20, .rwl, 0⟩]⟩,
  -- MER.RBASE
  ⟨0x2400100, 4, 2, .whole, .camera, [⟨0, 16, .rwl, 0x34⟩, ⟨16, 3, .rwl, 0⟩, ⟨20, 4, .rwl, 0⟩]⟩,
  -- MER.CAMSTAT
  ⟨0x2400140, 4, 2, .whole, .none, [⟨0, 2, .ro, 0⟩, ⟨2, 4, .ro, 0⟩, ⟨6, 2, .ro, 0⟩]⟩,
  -- MER.CAMREG
  ⟨0x2400180, 4, 2, .whole, .none, [⟨0, 16, .ro, 0⟩, ⟨16, 9, .ro, 0⟩]⟩,
  -- MER.CAMCNT
  ⟨0x24001C0, 4, 16, .whole, .none, [⟨0, 32, .rc, 0⟩]⟩,
  -- MER.FIDCFG
  ⟨0x2400200, 4, 4, .whole, .none, [⟨0, 3, .rw, 0⟩, ⟨3, 2, .rw, 0⟩, ⟨5, 8, .rw, 0x10⟩, ⟨16, 16, .rw, 0x1000⟩]⟩,
  -- MER.FIDLINE
  ⟨0x2400240, 4, 4, .whole, .none, [⟨0, 32, .rw, 0⟩]⟩,
  -- MER.FIDPOS
  ⟨0x2400280, 4, 32, .whole, .none, [⟨0, 16, .rw, 0⟩]⟩,
  -- MER.WHITE
  ⟨0x2400300, 4, 4, .whole, .none, [⟨0, 10, .rw, 0x3FF⟩, ⟨10, 10, .rw, 0x3FF⟩, ⟨20, 10, .rw, 0x3FF⟩]⟩,
  -- MER.KPROJ
  ⟨0x2400340, 4, 8, .whole, .none, [⟨0, 8, .rw, 0⟩, ⟨8, 8, .rw, 0⟩, ⟨16, 8, .rw, 0⟩]⟩,
  -- MER.CMP
  ⟨0x2400380, 4, 4, .whole, .none, [⟨0, 10, .rw, 0x3FF⟩, ⟨10, 6, .rw, 4⟩, ⟨16, 10, .rw, 0x100⟩]⟩,
  -- MER.CMPB
  ⟨0x24003C0, 4, 4, .whole, .none, [⟨0, 8, .rw, 0x80⟩]⟩,
  -- MER.EVTH
  ⟨0x2400400, 4, 1, .whole, .none, [⟨0, 8, .rw, 0x40⟩, ⟨8, 8, .rw, 0x18⟩, ⟨16, 8, .rw, 0x18⟩, ⟨24, 8, .rw, 6⟩]⟩,
  -- MER.DRBASE_LO
  ⟨0x2400440, 8, 1, .lo, .none, [⟨0, 32, .rw, 0⟩]⟩,
  -- MER.DRBASE_HI
  ⟨0x2400444, 8, 1, .hi, .none, [⟨0, 32, .rw, 0⟩]⟩,
  -- MER.DRCFG
  ⟨0x2400480, 4, 1, .whole, .none, [⟨0, 1, .rw, 0⟩, ⟨1, 5, .rw, 6⟩]⟩,
  -- MER.DRHEAD
  ⟨0x24004C0, 4, 1, .whole, .none, [⟨0, 32, .ro, 0⟩]⟩,
  -- MER.DRTAIL
  ⟨0x2400500, 4, 1, .whole, .none, [⟨0, 32, .rw, 0⟩]⟩,
  -- MER.DRLOST
  ⟨0x2400540, 4, 1, .whole, .none, [⟨0, 32, .rc, 0⟩]⟩,
  -- MER.CCADDR
  ⟨0x2400580, 4, 2, .whole, .none, [⟨0, 32, .rw, 0⟩]⟩,
  -- MER.CCDATA
  ⟨0x24005C0, 4, 2, .whole, .none, [⟨0, 32, .rw, 0⟩]⟩
]

def regs1 : List RegDef := [
  -- MER.CCCTL
  ⟨0x2400600, 4, 2, .whole, .none, [⟨0, 1, .wo, 0⟩, ⟨1, 1, .rw, 0⟩, ⟨2, 1, .ro, 0⟩, ⟨4, 4, .ro, 0⟩]⟩,
  -- MER.TBL
  ⟨0x2400640, 4, 1, .whole, .none, [⟨0, 1, .rw, 0⟩]⟩,
  -- MER.ERR
  ⟨0x2400680, 4, 1, .whole, .none, [⟨0, 1, .w1c, 0⟩, ⟨1, 1, .w1c, 0⟩, ⟨2, 1, .w1c, 0⟩, ⟨3, 1, .w1c, 0⟩]⟩
]

/-- Every register of the block, in placement order. -/
def regs : List RegDef := regs0 ++ regs1

end Sys2Proof.Machine.MER

namespace Sys2Proof.Machine.MEM

def regs0 : List RegDef := [
  -- MEM.CHCFG
  ⟨0x2800000, 4, 4, .whole, .memory, [⟨0, 1, .rwl, 0⟩, ⟨1, 2, .rwl, 0⟩, ⟨3, 2, .rwl, 0⟩, ⟨5, 1, .rwl, 0⟩, ⟨6, 2, .rwl, 0⟩]⟩,
  -- MEM.SET
  ⟨0x2800040, 4, 4, .whole, .memory, [⟨0, 4, .rwl, 0⟩]⟩,
  -- MEM.CTL
  ⟨0x2800080, 4, 1, .whole, .none, [⟨0, 1, .wo, 0⟩]⟩,
  -- MEM.FREQ
  ⟨0x28000C0, 4, 1, .whole, .none, [⟨0, 2, .rw, 0⟩, ⟨2, 2, .ro, 0⟩, ⟨4, 1, .ro, 0⟩]⟩,
  -- MEM.STAT
  ⟨0x2800100, 4, 1, .whole, .none, [⟨0, 2, .ro, 0⟩, ⟨2, 1, .ro, 0⟩, ⟨3, 1, .ro, 0⟩, ⟨4, 4, .ro, 0⟩, ⟨8, 2, .ro, 0⟩]⟩,
  -- MEM.CAP
  ⟨0x2800140, 4, 1, .whole, .none, [⟨0, 10, .ro, 0⟩]⟩,
  -- MEM.TRSTAT
  ⟨0x2800180, 4, 4, .whole, .none, [⟨0, 4, .ro, 0⟩, ⟨4, 4, .ro, 0⟩]⟩,
  -- MEM.CFG
  ⟨0x28001C0, 4, 1, .whole, .none, [⟨0, 16, .rw, 0x64⟩, ⟨16, 16, .rw, 0⟩]⟩,
  -- MEM.REFCFG
  ⟨0x2800200, 4, 1, .whole, .none, [⟨0, 4, .rw, 0xA⟩]⟩,
  -- MEM.SCRUB
  ⟨0x2800240, 4, 1, .whole, .none, [⟨0, 1, .rw, 1⟩, ⟨1, 8, .rw, 0x18⟩]⟩,
  -- MEM.MIGCFG
  ⟨0x2800280, 4, 1, .whole, .none, [⟨0, 6, .rw, 8⟩]⟩,
  -- MEM.PWRCFG
  ⟨0x28002C0, 4, 1, .whole, .none, [⟨0, 16, .rw, 0x32⟩]⟩,
  -- MEM.RANKSTAT
  ⟨0x2800300, 4, 4, .whole, .none, [⟨0, 2, .ro, 0⟩, ⟨2, 2, .ro, 0⟩, ⟨4, 2, .ro, 0⟩, ⟨6, 2, .ro, 0⟩, ⟨8, 2, .ro, 0⟩]⟩,
  -- MEM.MIGPTR
  ⟨0x2800340, 4, 4, .whole, .none, [⟨0, 32, .ro, 0⟩]⟩,
  -- MEM.CECNT
  ⟨0x2800380, 4, 16, .whole, .none, [⟨0, 32, .rc, 0⟩]⟩,
  -- MEM.UECNT
  ⟨0x28003C0, 4, 4, .whole, .none, [⟨0, 32, .rc, 0⟩]⟩,
  -- MEM.ERRADDR_LO
  ⟨0x2800400, 8, 1, .lo, .none, [⟨0, 32, .ro, 0⟩]⟩,
  -- MEM.ERRADDR_HI
  ⟨0x2800404, 8, 1, .hi, .none, [⟨0, 32, .ro, 0⟩]⟩,
  -- MEM.ERRLOC
  ⟨0x2800440, 4, 1, .whole, .none, [⟨0, 2, .ro, 0⟩, ⟨2, 2, .ro, 0⟩, ⟨4, 1, .ro, 0⟩, ⟨5, 1, .ro, 0⟩]⟩,
  -- MEM.ERR
  ⟨0x2800480, 4, 1, .whole, .none, [⟨0, 1, .w1c, 0⟩, ⟨1, 1, .w1c, 0⟩, ⟨2, 1, .w1c, 0⟩, ⟨3, 1, .w1c, 0⟩]⟩
]

/-- Every register of the block, in placement order. -/
def regs : List RegDef := regs0

end Sys2Proof.Machine.MEM

namespace Sys2Proof.Machine.LAN

def regs0 : List RegDef := [
  -- LAN.CFG
  ⟨0x2C00000, 4, 1, .whole, .none, [⟨0, 16, .rw, 0x100⟩]⟩,
  -- LAN.QCFG
  ⟨0x2C00040, 4, 12, .whole, .quad, [⟨0, 1, .rw, 0⟩, ⟨1, 1, .rwl, 0⟩]⟩,
  -- LAN.QRATE
  ⟨0x2C00080, 4, 12, .whole, .none, [⟨0, 8, .rw, 0xB4⟩, ⟨8, 24, .rw, 0⟩]⟩,
  -- LAN.QSTAT
  ⟨0x2C000C0, 4, 12, .whole, .none, [⟨0, 1, .ro, 0⟩, ⟨1, 1, .ro, 0⟩, ⟨2, 1, .ro, 0⟩, ⟨3, 1, .w1c, 0⟩, ⟨4, 1, .w1c, 0⟩]⟩,
  -- LAN.LCFG
  ⟨0x2C00100, 4, 48, .whole, .lane, [⟨0, 1, .rw, 0⟩, ⟨1, 1, .rwl, 0⟩, ⟨2, 1, .rwl, 0⟩, ⟨3, 2, .rwl, 0⟩, ⟨5, 2, .rwl, 0⟩]⟩,
  -- LAN.TXEQ
  ⟨0x2C001C0, 4, 48, .whole, .none, [⟨0, 4, .rw, 4⟩, ⟨4, 5, .rw, 0xC⟩, ⟨9, 4, .rw, 0xC⟩]⟩,
  -- LAN.RXCFG
  ⟨0x2C00280, 4, 48, .whole, .lane, [⟨0, 2, .rwl, 0⟩, ⟨2, 4, .rwl, 8⟩, ⟨6, 8, .rwl, 0x40⟩]⟩,
  -- LAN.RXSTAT
  ⟨0x2C00340, 4, 48, .whole, .none, [⟨0, 4, .ro, 0⟩, ⟨4, 1, .ro, 0⟩, ⟨5, 3, .ro, 0⟩, ⟨8, 8, .ro, 0⟩]⟩,
  -- LAN.DFE
  ⟨0x2C00400, 4, 768, .whole, .none, [⟨0, 8, .ro, 0⟩]⟩,
  -- LAN.LSTAT
  ⟨0x2C01000, 4, 48, .whole, .none, [⟨0, 1, .ro, 0⟩, ⟨1, 1, .ro, 0⟩, ⟨2, 2, .ro, 2⟩, ⟨4, 2, .ro, 2⟩, ⟨6, 4, .ro, 0⟩, ⟨10, 1, .w1c, 0⟩]⟩,
  -- LAN.PWR
  ⟨0x2C010C0, 4, 48, .whole, .none, [⟨0, 2, .rw, 2⟩, ⟨2, 2, .rw, 2⟩]⟩,
  -- LAN.LOCKCNT
  ⟨0x2C01180, 4, 48, .whole, .none, [⟨0, 32, .rc, 0⟩]⟩,
  -- LAN.BLKERR
  ⟨0x2C01240, 4, 48, .whole, .none, [⟨0, 32, .rc, 0⟩]⟩,
  -- LAN.PRBSCFG
  ⟨0x2C01300, 4, 48, .whole, .lane, [⟨0, 3, .rwl, 4⟩, ⟨3, 1, .rwl, 0⟩, ⟨4, 1, .wo, 0⟩, ⟨5, 1, .ro, 0⟩]⟩,
  -- LAN.PRBSERR_LO
  ⟨0x2C013C0, 8, 48, .lo, .none, [⟨0, 32, .ro, 0⟩]⟩,
  -- LAN.PRBSERR_HI
  ⟨0x2C013C4, 8, 48, .hi, .none, [⟨0, 32, .ro, 0⟩]⟩,
  -- LAN.PRBSBITS_LO
  ⟨0x2C01540, 8, 48, .lo, .none, [⟨0, 32, .ro, 0⟩]⟩,
  -- LAN.PRBSBITS_HI
  ⟨0x2C01544, 8, 48, .hi, .none, [⟨0, 32, .ro, 0⟩]⟩,
  -- LAN.EYECTL
  ⟨0x2C016C0, 4, 48, .whole, .none, [⟨0, 6, .rw, 0⟩, ⟨6, 7, .rw, 0⟩, ⟨13, 2, .rw, 0⟩, ⟨15, 1, .wo, 0⟩, ⟨16, 1, .ro, 0⟩]⟩,
  -- LAN.EYERES
  ⟨0x2C01780, 4, 48, .whole, .none, [⟨0, 32, .ro, 0⟩]⟩
]

/-- Every register of the block, in placement order. -/
def regs : List RegDef := regs0

end Sys2Proof.Machine.LAN

namespace Sys2Proof.Machine.PCI

def regs0 : List RegDef := [
  -- PCI.FNCTL
  ⟨0x3000000, 4, 8, .whole, .none, [⟨0, 1, .rw, 1⟩, ⟨1, 1, .ro, 0⟩, ⟨2, 1, .ro, 0⟩]⟩,
  -- PCI.LINK
  ⟨0x3000040, 4, 1, .whole, .none, [⟨0, 4, .ro, 0⟩, ⟨4, 5, .ro, 0⟩, ⟨9, 2, .ro, 0⟩]⟩,
  -- PCI.QCFG
  ⟨0x3000080, 4, 64, .whole, .queue, [⟨0, 1, .rw, 0⟩, ⟨1, 3, .rwl, 0⟩, ⟨4, 4, .rwl, 0⟩, ⟨8, 5, .rwl, 4⟩, ⟨16, 8, .rwl, 0⟩]⟩,
  -- PCI.SQBASE_LO
  ⟨0x3000180, 8, 64, .lo, .queue, [⟨0, 32, .rwl, 0⟩]⟩,
  -- PCI.SQBASE_HI
  ⟨0x3000184, 8, 64, .hi, .queue, [⟨0, 32, .rwl, 0⟩]⟩,
  -- PCI.CQBASE_LO
  ⟨0x3000380, 8, 64, .lo, .queue, [⟨0, 32, .rwl, 0⟩]⟩,
  -- PCI.CQBASE_HI
  ⟨0x3000384, 8, 64, .hi, .queue, [⟨0, 32, .rwl, 0⟩]⟩,
  -- PCI.QSEQ
  ⟨0x3000580, 4, 64, .whole, .queue, [⟨0, 32, .rwl, 1⟩]⟩,
  -- PCI.SQDB
  ⟨0x3000680, 4, 64, .whole, .none, [⟨0, 16, .rw, 0⟩]⟩,
  -- PCI.CQDB
  ⟨0x3000780, 4, 64, .whole, .none, [⟨0, 16, .rw, 0⟩]⟩,
  -- PCI.QSTAT
  ⟨0x3000880, 4, 64, .whole, .none, [⟨0, 2, .ro, 0⟩, ⟨4, 4, .ro, 0⟩, ⟨8, 16, .ro, 0⟩, ⟨24, 1, .w1c, 0⟩, ⟨25, 1, .w1c, 0⟩]⟩,
  -- PCI.QCTL
  ⟨0x3000980, 4, 64, .whole, .none, [⟨0, 1, .wo, 0⟩]⟩,
  -- PCI.EVBASE_LO
  ⟨0x3000A80, 8, 8, .lo, .eventRing, [⟨0, 32, .rwl, 0⟩]⟩,
  -- PCI.EVBASE_HI
  ⟨0x3000A84, 8, 8, .hi, .eventRing, [⟨0, 32, .rwl, 0⟩]⟩,
  -- PCI.EVCFG
  ⟨0x3000AC0, 4, 8, .whole, .eventRing, [⟨0, 1, .rw, 0⟩, ⟨1, 5, .rwl, 6⟩, ⟨6, 8, .rwl, 0⟩]⟩,
  -- PCI.EVHEAD
  ⟨0x3000B00, 4, 8, .whole, .none, [⟨0, 32, .ro, 0⟩]⟩,
  -- PCI.EVTAIL
  ⟨0x3000B40, 4, 8, .whole, .none, [⟨0, 32, .rw, 0⟩]⟩,
  -- PCI.EVLOST
  ⟨0x3000B80, 4, 8, .whole, .none, [⟨0, 32, .rc, 0⟩]⟩,
  -- PCI.RDPOOL
  ⟨0x3000BC0, 4, 1, .whole, .none, [⟨0, 10, .ro, 0⟩]⟩,
  -- PCI.ERR
  ⟨0x3000C00, 4, 1, .whole, .none, [⟨0, 1, .w1c, 0⟩, ⟨1, 1, .w1c, 0⟩, ⟨2, 1, .w1c, 0⟩, ⟨3, 1, .w1c, 0⟩, ⟨4, 1, .w1c, 0⟩]⟩
]

/-- Every register of the block, in placement order. -/
def regs : List RegDef := regs0

end Sys2Proof.Machine.PCI

namespace Sys2Proof.Machine.ETH

def regs0 : List RegDef := [
  -- ETH.PCFG
  ⟨0x3100000, 4, 4, .whole, .ethPort, [⟨0, 1, .rw, 0⟩, ⟨1, 1, .rwl, 0⟩, ⟨2, 1, .rwl, 0⟩, ⟨3, 1, .rwl, 0⟩, ⟨4, 1, .rwl, 0⟩]⟩,
  -- ETH.PSTAT
  ⟨0x3100040, 4, 4, .whole, .none, [⟨0, 1, .ro, 0⟩]⟩,
  -- ETH.MAC_LO
  ⟨0x3100080, 8, 4, .lo, .none, [⟨0, 32, .rw, 0⟩]⟩,
  -- ETH.MAC_HI
  ⟨0x3100084, 8, 4, .hi, .none, [⟨0, 16, .rw, 0⟩]⟩,
  -- ETH.IPV4
  ⟨0x31000C0, 4, 4, .whole, .none, [⟨0, 32, .rw, 0⟩]⟩,
  -- ETH.QCFG
  ⟨0x3100100, 4, 64, .whole, .ethQueue, [⟨0, 1, .rw, 0⟩, ⟨1, 4, .rwl, 4⟩]⟩,
  -- ETH.QBASE_LO
  ⟨0x3100200, 8, 64, .lo, .ethQueue, [⟨0, 32, .rwl, 0⟩]⟩,
  -- ETH.QBASE_HI
  ⟨0x3100204, 8, 64, .hi, .ethQueue, [⟨0, 32, .rwl, 0⟩]⟩,
  -- ETH.QPTR
  ⟨0x3100400, 4, 64, .whole, .none, [⟨0, 16, .rw, 0⟩, ⟨16, 16, .ro, 0⟩]⟩,
  -- ETH.PMS
  ⟨0x3100500, 4, 1, .whole, .none, [⟨0, 16, .rw, 0xB9F0⟩, ⟨16, 2, .rw, 0⟩]⟩,
  -- ETH.PMSDEST
  ⟨0x3100540, 4, 1, .whole, .none, [⟨0, 32, .rw, 0⟩]⟩,
  -- ETH.PRESS
  ⟨0x3100580, 4, 1, .whole, .none, [⟨0, 32, .ro, 0⟩]⟩,
  -- ETH.CNT
  ⟨0x31005C0, 4, 32, .whole, .none, [⟨0, 32, .rc, 0⟩]⟩
]

/-- Every register of the block, in placement order. -/
def regs : List RegDef := regs0

end Sys2Proof.Machine.ETH

namespace Sys2Proof.Machine.TIM

def regs0 : List RegDef := [
  -- TIM.TDCTL
  ⟨0x3200000, 4, 2, .whole, .none, [⟨0, 1, .wo, 0⟩, ⟨8, 8, .rw, 0⟩, ⟨16, 1, .rw, 0⟩]⟩,
  -- TIM.TDSTAT
  ⟨0x3200040, 4, 2, .whole, .none, [⟨0, 2, .ro, 0⟩]⟩,
  -- TIM.RATE_LO
  ⟨0x3200080, 8, 2, .lo, .none, [⟨0, 32, .rw, 0xCCCCCCCD⟩]⟩,
  -- TIM.RATE_HI
  ⟨0x3200084, 8, 2, .hi, .none, [⟨0, 32, .rw, 0⟩]⟩,
  -- TIM.STEP_LO
  ⟨0x32000C0, 8, 2, .lo, .none, [⟨0, 32, .wo, 0⟩]⟩,
  -- TIM.STEP_HI
  ⟨0x32000C4, 8, 2, .hi, .none, [⟨0, 32, .wo, 0⟩]⟩,
  -- TIM.STEPFR
  ⟨0x3200100, 4, 2, .whole, .none, [⟨0, 16, .wo, 0⟩]⟩,
  -- TIM.OFFSET_LO
  ⟨0x3200140, 8, 2, .lo, .none, [⟨0, 32, .ro, 0⟩]⟩,
  -- TIM.OFFSET_HI
  ⟨0x3200144, 8, 2, .hi, .none, [⟨0, 32, .ro, 0⟩]⟩,
  -- TIM.OFFFR
  ⟨0x3200180, 4, 2, .whole, .none, [⟨0, 32, .ro, 0⟩]⟩,
  -- TIM.WORK
  ⟨0x32001C0, 4, 1, .whole, .none, [⟨0, 1, .rw, 0⟩, ⟨1, 1, .ro, 0⟩]⟩,
  -- TIM.SNAP
  ⟨0x3200200, 4, 1, .whole, .none, [⟨0, 1, .wo, 0⟩]⟩,
  -- TIM.SNSEC_LO
  ⟨0x3200240, 8, 3, .lo, .none, [⟨0, 32, .ro, 0⟩]⟩,
  -- TIM.SNSEC_HI
  ⟨0x3200244, 8, 3, .hi, .none, [⟨0, 32, .ro, 0⟩]⟩,
  -- TIM.SNNS
  ⟨0x3200280, 4, 3, .whole, .none, [⟨0, 32, .ro, 0⟩]⟩,
  -- TIM.SNFR
  ⟨0x32002C0, 4, 3, .whole, .none, [⟨0, 16, .ro, 0⟩]⟩,
  -- TIM.TOCFG
  ⟨0x3200300, 4, 16, .whole, .none, [⟨0, 1, .rw, 0⟩, ⟨1, 1, .ro, 0⟩, ⟨2, 5, .ro, 0⟩, ⟨16, 16, .rw, 1⟩]⟩,
  -- TIM.TOPER
  ⟨0x3200340, 4, 16, .whole, .none, [⟨0, 20, .rw, 0xF4240⟩]⟩,
  -- TIM.TINCFG
  ⟨0x3200380, 4, 8, .whole, .none, [⟨0, 2, .rw, 0⟩, ⟨2, 1, .wo, 0⟩, ⟨3, 1, .ro, 0⟩, ⟨4, 5, .ro, 0⟩]⟩,
  -- TIM.TINTS_LO
  ⟨0x32003C0, 8, 8, .lo, .none, [⟨0, 32, .ro, 0⟩]⟩,
  -- TIM.TINTS_HI
  ⟨0x32003C4, 8, 8, .hi, .none, [⟨0, 32, .ro, 0⟩]⟩,
  -- TIM.MKCFG
  ⟨0x3200400, 4, 4, .whole, .none, [⟨0, 2, .rw, 0⟩, ⟨2, 20, .rw, 0⟩, ⟨22, 10, .rw, 0xA⟩]⟩,
  -- TIM.MKDLY
  ⟨0x3200440, 4, 4, .whole, .none, [⟨0, 20, .rw, 0⟩]⟩,
  -- TIM.SPD
  ⟨0x3200480, 4, 1, .whole, .none, [⟨0, 20, .rw, 0xFFFFF⟩, ⟨20, 2, .rw, 0⟩]⟩
]

def regs1 : List RegDef := [
  -- TIM.SPDSTAT
  ⟨0x32004C0, 4, 1, .whole, .none, [⟨0, 20, .ro, 0xFFFFF⟩, ⟨20, 10, .ro, 0x3CC⟩]⟩,
  -- TIM.ERR
  ⟨0x3200500, 4, 1, .whole, .none, [⟨0, 1, .w1c, 0⟩, ⟨1, 1, .w1c, 0⟩, ⟨2, 1, .w1c, 0⟩, ⟨3, 1, .w1c, 0⟩, ⟨4, 1, .w1c, 0⟩, ⟨5, 1, .w1c, 0⟩]⟩,
  -- TIM.FRC_LO
  ⟨0x3200540, 8, 1, .lo, .none, [⟨0, 32, .ro, 0⟩]⟩,
  -- TIM.FRC_HI
  ⟨0x3200544, 8, 1, .hi, .none, [⟨0, 32, .ro, 0⟩]⟩
]

/-- Every register of the block, in placement order. -/
def regs : List RegDef := regs0 ++ regs1

end Sys2Proof.Machine.TIM

namespace Sys2Proof.Machine.ENC

def regs0 : List RegDef := [
  -- ENC.CFG
  ⟨0x3400000, 4, 12, .whole, .encoder, [⟨0, 1, .rw, 0⟩, ⟨1, 3, .rwl, 0⟩, ⟨4, 1, .rwl, 0⟩, ⟨5, 8, .rwl, 0xF⟩, ⟨13, 2, .rwl, 0⟩, ⟨15, 1, .rwl, 0⟩]⟩,
  -- ENC.CPR
  ⟨0x3400040, 4, 12, .whole, .encoder, [⟨0, 32, .rwl, 0⟩]⟩,
  -- ENC.IDXPOS
  ⟨0x3400080, 4, 12, .whole, .encoder, [⟨0, 32, .rwl, 0⟩]⟩,
  -- ENC.IDXTOL
  ⟨0x34000C0, 4, 12, .whole, .none, [⟨0, 16, .rw, 0⟩]⟩,
  -- ENC.SER
  ⟨0x3400100, 4, 12, .whole, .encoder, [⟨0, 6, .rwl, 0xD⟩, ⟨6, 6, .rwl, 0⟩, ⟨12, 1, .rwl, 1⟩, ⟨13, 4, .rwl, 4⟩, ⟨17, 4, .rwl, 3⟩]⟩,
  -- ENC.SERPER
  ⟨0x3400140, 4, 12, .whole, .encoder, [⟨0, 16, .rwl, 0x14⟩, ⟨16, 8, .rwl, 0x14⟩]⟩,
  -- ENC.SPDCFG
  ⟨0x3400180, 4, 12, .whole, .none, [⟨0, 16, .rw, 0xA⟩]⟩,
  -- ENC.LOSS
  ⟨0x34001C0, 4, 12, .whole, .none, [⟨0, 8, .rw, 0x10⟩, ⟨8, 8, .rw, 0x40⟩, ⟨16, 16, .rw, 0⟩]⟩,
  -- ENC.POS_LO
  ⟨0x3400200, 8, 12, .lo, .none, [⟨0, 32, .ro, 0⟩]⟩,
  -- ENC.POS_HI
  ⟨0x3400204, 8, 12, .hi, .none, [⟨0, 32, .ro, 0⟩]⟩,
  -- ENC.CNT
  ⟨0x3400280, 4, 12, .whole, .none, [⟨0, 32, .ro, 0⟩]⟩,
  -- ENC.REV
  ⟨0x34002C0, 4, 12, .whole, .none, [⟨0, 32, .ro, 0⟩]⟩,
  -- ENC.SPEED_LO
  ⟨0x3400300, 8, 12, .lo, .none, [⟨0, 32, .ro, 0⟩]⟩,
  -- ENC.SPEED_HI
  ⟨0x3400304, 8, 12, .hi, .none, [⟨0, 32, .ro, 0⟩]⟩,
  -- ENC.IDXCAP
  ⟨0x3400380, 4, 12, .whole, .none, [⟨0, 32, .ro, 0⟩]⟩,
  -- ENC.IDXERR
  ⟨0x34003C0, 4, 12, .whole, .none, [⟨0, 32, .ro, 0⟩]⟩,
  -- ENC.CORR_LO
  ⟨0x3400400, 8, 12, .lo, .none, [⟨0, 32, .ro, 0⟩]⟩,
  -- ENC.CORR_HI
  ⟨0x3400404, 8, 12, .hi, .none, [⟨0, 32, .ro, 0⟩]⟩,
  -- ENC.IDXCNT
  ⟨0x3400480, 4, 12, .whole, .none, [⟨0, 32, .rc, 0⟩]⟩,
  -- ENC.ILLCNT
  ⟨0x34004C0, 4, 12, .whole, .none, [⟨0, 32, .rc, 0⟩]⟩,
  -- ENC.CRCCNT
  ⟨0x3400500, 4, 12, .whole, .none, [⟨0, 32, .rc, 0⟩]⟩,
  -- ENC.CTL
  ⟨0x3400540, 4, 12, .whole, .none, [⟨0, 1, .wo, 0⟩]⟩,
  -- ENC.STAT
  ⟨0x3400580, 4, 12, .whole, .none, [⟨0, 2, .ro, 0⟩, ⟨2, 1, .ro, 0⟩, ⟨3, 1, .ro, 0⟩, ⟨4, 1, .ro, 0⟩, ⟨5, 1, .w1c, 0⟩, ⟨6, 1, .w1c, 0⟩, ⟨7, 1, .w1c, 0⟩]⟩,
  -- ENC.LTGCFG
  ⟨0x34005C0, 4, 8, .whole, .generator, [⟨0, 1, .rw, 0⟩, ⟨1, 4, .rwl, 0⟩, ⟨5, 1, .rwl, 0⟩]⟩
]

def regs1 : List RegDef := [
  -- ENC.LTGSP_LO
  ⟨0x3400600, 8, 8, .lo, .generator, [⟨0, 32, .rwl, 0⟩]⟩,
  -- ENC.LTGSP_HI
  ⟨0x3400604, 8, 8, .hi, .generator, [⟨0, 32, .rwl, 0⟩]⟩,
  -- ENC.LTGORG_LO
  ⟨0x3400640, 8, 8, .lo, .generator, [⟨0, 32, .rwl, 0⟩]⟩,
  -- ENC.LTGORG_HI
  ⟨0x3400644, 8, 8, .hi, .generator, [⟨0, 32, .rwl, 0⟩]⟩,
  -- ENC.LTGLN_LO
  ⟨0x3400680, 8, 8, .lo, .generator, [⟨0, 32, .rwl, 0⟩]⟩,
  -- ENC.LTGLN_HI
  ⟨0x3400684, 8, 8, .hi, .generator, [⟨0, 32, .rwl, 0⟩]⟩,
  -- ENC.LTGREM
  ⟨0x34006C0, 4, 8, .whole, .none, [⟨0, 32, .ro, 0⟩]⟩,
  -- ENC.ERR
  ⟨0x3400700, 4, 1, .whole, .none, [⟨0, 1, .w1c, 0⟩, ⟨1, 1, .w1c, 0⟩, ⟨2, 1, .w1c, 0⟩, ⟨3, 1, .w1c, 0⟩, ⟨4, 1, .w1c, 0⟩]⟩
]

/-- Every register of the block, in placement order. -/
def regs : List RegDef := regs0 ++ regs1

end Sys2Proof.Machine.ENC

namespace Sys2Proof.Machine.AXS

def regs0 : List RegDef := [
  -- AXS.CFG
  ⟨0x3600000, 4, 16, .whole, .axis, [⟨0, 1, .rw, 0⟩, ⟨1, 1, .rwl, 0⟩, ⟨2, 4, .rwl, 0⟩, ⟨6, 4, .rwl, 0⟩, ⟨10, 1, .rwl, 0⟩, ⟨11, 1, .rwl, 0⟩, ⟨12, 1, .rwl, 0⟩, ⟨13, 1, .rwl, 0⟩, ⟨14, 1, .rwl, 1⟩]⟩,
  -- AXS.PULSE
  ⟨0x3600040, 4, 16, .whole, .axis, [⟨0, 8, .rwl, 0x14⟩, ⟨8, 8, .rwl, 0x28⟩]⟩,
  -- AXS.STAT
  ⟨0x3600080, 4, 16, .whole, .none, [⟨0, 2, .ro, 0⟩, ⟨2, 1, .ro, 1⟩, ⟨3, 1, .w1c, 0⟩, ⟨4, 1, .w1c, 0⟩, ⟨5, 1, .w1c, 0⟩, ⟨6, 1, .w1c, 0⟩, ⟨7, 1, .w1c, 0⟩, ⟨8, 4, .ro, 0⟩]⟩,
  -- AXS.CTL
  ⟨0x36000C0, 4, 16, .whole, .none, [⟨0, 1, .wo, 0⟩, ⟨1, 1, .wo, 0⟩, ⟨2, 1, .wo, 0⟩]⟩,
  -- AXS.HOME_LO
  ⟨0x3600100, 8, 16, .lo, .none, [⟨0, 32, .rw, 0⟩]⟩,
  -- AXS.HOME_HI
  ⟨0x3600104, 8, 16, .hi, .none, [⟨0, 32, .rw, 0⟩]⟩,
  -- AXS.SOFTLO_LO
  ⟨0x3600180, 8, 16, .lo, .none, [⟨0, 32, .rw, 0⟩]⟩,
  -- AXS.SOFTLO_HI
  ⟨0x3600184, 8, 16, .hi, .none, [⟨0, 32, .rw, 0⟩]⟩,
  -- AXS.SOFTHI_LO
  ⟨0x3600200, 8, 16, .lo, .none, [⟨0, 32, .rw, 0⟩]⟩,
  -- AXS.SOFTHI_HI
  ⟨0x3600204, 8, 16, .hi, .none, [⟨0, 32, .rw, 0⟩]⟩,
  -- AXS.XCMD_LO
  ⟨0x3600280, 8, 16, .lo, .none, [⟨0, 32, .ro, 0⟩]⟩,
  -- AXS.XCMD_HI
  ⟨0x3600284, 8, 16, .hi, .none, [⟨0, 32, .ro, 0⟩]⟩,
  -- AXS.TGT_LO
  ⟨0x3600300, 8, 16, .lo, .none, [⟨0, 32, .ro, 0⟩]⟩,
  -- AXS.TGT_HI
  ⟨0x3600304, 8, 16, .hi, .none, [⟨0, 32, .ro, 0⟩]⟩,
  -- AXS.VCMD
  ⟨0x3600380, 4, 16, .whole, .none, [⟨0, 32, .ro, 0⟩]⟩,
  -- AXS.FBCPS
  ⟨0x36003C0, 4, 16, .whole, .axis, [⟨0, 32, .rwl, 0⟩]⟩,
  -- AXS.FOLLOWERR
  ⟨0x3600400, 4, 16, .whole, .none, [⟨0, 32, .rw, 0xFFFFFFFF⟩]⟩,
  -- AXS.STCFG
  ⟨0x3600440, 4, 8, .whole, .axis, [⟨0, 2, .rwl, 0⟩]⟩,
  -- AXS.STCUR
  ⟨0x3600480, 4, 8, .whole, .axis, [⟨0, 10, .rwl, 0x200⟩, ⟨10, 10, .rwl, 0x100⟩, ⟨20, 10, .rwl, 0x80⟩]⟩,
  -- AXS.STCHOP
  ⟨0x36004C0, 4, 8, .whole, .axis, [⟨0, 7, .rwl, 0x20⟩, ⟨7, 8, .rwl, 0x32⟩, ⟨15, 8, .rwl, 0x19⟩, ⟨23, 8, .rwl, 0x28⟩, ⟨31, 1, .rwl, 1⟩]⟩,
  -- AXS.STLOAD
  ⟨0x3600500, 4, 8, .whole, .axis, [⟨0, 16, .rwl, 0x64⟩, ⟨16, 10, .rwl, 0x3FF⟩]⟩,
  -- AXS.STLVL
  ⟨0x3600540, 4, 8, .whole, .axis, [⟨0, 10, .rwl, 0x100⟩, ⟨10, 10, .rwl, 0x300⟩]⟩,
  -- AXS.STSTAT
  ⟨0x3600580, 4, 8, .whole, .none, [⟨0, 10, .ro, 0⟩, ⟨10, 10, .ro, 0⟩, ⟨20, 8, .ro, 0⟩]⟩,
  -- AXS.STOFSB
  ⟨0x36005C0, 4, 8, .whole, .none, [⟨0, 8, .ro, 0⟩]⟩
]

def regs1 : List RegDef := [
  -- AXS.TBLIDX
  ⟨0x3600600, 4, 1, .whole, .none, [⟨0, 8, .rw, 0⟩, ⟨8, 1, .rw, 0⟩, ⟨9, 3, .rw, 0⟩, ⟨16, 1, .wo, 0⟩, ⟨17, 1, .wo, 0⟩]⟩,
  -- AXS.TBLDATA
  ⟨0x3600640, 4, 1, .whole, .none, [⟨0, 10, .rw, 0⟩]⟩
]

/-- Every register of the block, in placement order. -/
def regs : List RegDef := regs0 ++ regs1

end Sys2Proof.Machine.AXS

namespace Sys2Proof.Machine.LOP

def regs0 : List RegDef := [
  -- LOP.CFG
  ⟨0x3800000, 4, 24, .whole, .loop, [⟨0, 2, .rwl, 0⟩, ⟨2, 5, .rwl, 0⟩, ⟨7, 5, .rwl, 0⟩, ⟨12, 2, .rwl, 0⟩, ⟨14, 5, .rwl, 0⟩]⟩,
  -- LOP.PERIOD
  ⟨0x3800080, 4, 24, .whole, .loop, [⟨0, 20, .rwl, 0x3E8⟩, ⟨20, 1, .rwl, 0⟩]⟩,
  -- LOP.KP
  ⟨0x3800100, 4, 48, .whole, .loopBank, [⟨0, 32, .rwl, 0⟩]⟩,
  -- LOP.KI
  ⟨0x38001C0, 4, 48, .whole, .loopBank, [⟨0, 32, .rwl, 0⟩]⟩,
  -- LOP.KD
  ⟨0x3800280, 4, 48, .whole, .loopBank, [⟨0, 32, .rwl, 0⟩]⟩,
  -- LOP.KFF
  ⟨0x3800340, 4, 48, .whole, .loopBank, [⟨0, 32, .rwl, 0⟩]⟩,
  -- LOP.IMAX
  ⟨0x3800400, 4, 48, .whole, .loopBank, [⟨0, 32, .rwl, 0x7FFFFFFF⟩]⟩,
  -- LOP.SLEW
  ⟨0x38004C0, 4, 48, .whole, .loopBank, [⟨0, 32, .rwl, 0x7FFFFFFF⟩]⟩,
  -- LOP.OUTMIN
  ⟨0x3800580, 4, 48, .whole, .loopBank, [⟨0, 32, .rwl, 0⟩]⟩,
  -- LOP.OUTMAX
  ⟨0x3800640, 4, 48, .whole, .loopBank, [⟨0, 32, .rwl, 0x10000⟩]⟩,
  -- LOP.BQ1
  ⟨0x3800700, 4, 120, .whole, .loopBiquad, [⟨0, 32, .rwl, 0⟩]⟩,
  -- LOP.BQ2
  ⟨0x3800900, 4, 120, .whole, .loopBiquad, [⟨0, 32, .rwl, 0⟩]⟩,
  -- LOP.SAFE
  ⟨0x3800B00, 4, 24, .whole, .loop, [⟨0, 32, .rwl, 0⟩]⟩,
  -- LOP.SP
  ⟨0x3800B80, 4, 24, .whole, .none, [⟨0, 32, .ro, 0⟩]⟩,
  -- LOP.Y
  ⟨0x3800C00, 4, 24, .whole, .none, [⟨0, 32, .ro, 0⟩]⟩,
  -- LOP.OUT
  ⟨0x3800C80, 4, 24, .whole, .none, [⟨0, 32, .ro, 0⟩]⟩,
  -- LOP.IACC
  ⟨0x3800D00, 4, 24, .whole, .none, [⟨0, 32, .ro, 0⟩]⟩,
  -- LOP.STAT
  ⟨0x3800D80, 4, 24, .whole, .none, [⟨0, 4, .ro, 0⟩, ⟨4, 11, .w1c, 0⟩, ⟨15, 1, .w1c, 0⟩, ⟨16, 1, .w1c, 0⟩, ⟨17, 1, .w1c, 0⟩, ⟨18, 1, .ro, 0⟩]⟩,
  -- LOP.INJ
  ⟨0x3800E00, 4, 24, .whole, .none, [⟨0, 2, .rw, 0⟩, ⟨2, 1, .rw, 0⟩, ⟨3, 1, .wo, 0⟩, ⟨4, 1, .ro, 0⟩, ⟨16, 16, .rw, 0⟩]⟩,
  -- LOP.INJAMP
  ⟨0x3800E80, 4, 24, .whole, .none, [⟨0, 32, .rw, 0⟩]⟩,
  -- LOP.INJLEN
  ⟨0x3800F00, 4, 24, .whole, .none, [⟨0, 32, .rw, 0⟩]⟩,
  -- LOP.INJF0
  ⟨0x3800F80, 4, 24, .whole, .none, [⟨0, 32, .rw, 0⟩]⟩,
  -- LOP.INJF1
  ⟨0x3801000, 4, 24, .whole, .none, [⟨0, 32, .rw, 0⟩]⟩,
  -- LOP.PWMPER
  ⟨0x3801080, 4, 24, .whole, .none, [⟨0, 20, .rw, 0x4E20⟩]⟩
]

def regs1 : List RegDef := [
  -- LOP.PWMDUTY
  ⟨0x3801100, 4, 24, .whole, .none, [⟨0, 20, .rw, 0⟩]⟩,
  -- LOP.CAPCTL
  ⟨0x3801180, 4, 2, .whole, .none, [⟨0, 1, .wo, 0⟩, ⟨1, 1, .ro, 0⟩, ⟨2, 1, .ro, 0⟩]⟩
]

/-- Every register of the block, in placement order. -/
def regs : List RegDef := regs0 ++ regs1

end Sys2Proof.Machine.LOP

namespace Sys2Proof.Machine.SNS

def regs0 : List RegDef := [
  -- SNS.PCFG
  ⟨0x3A00000, 4, 8, .whole, .sensorPort, [⟨0, 1, .rw, 0⟩, ⟨1, 2, .rwl, 0⟩, ⟨3, 8, .rwl, 1⟩, ⟨11, 2, .rwl, 0⟩, ⟨13, 8, .rwl, 0x14⟩]⟩,
  -- SNS.PPER
  ⟨0x3A00040, 4, 8, .whole, .sensorPort, [⟨0, 16, .rwl, 0x64⟩, ⟨16, 8, .rwl, 0xA⟩, ⟨24, 4, .rwl, 3⟩]⟩,
  -- SNS.CTL
  ⟨0x3A00080, 4, 8, .whole, .none, [⟨0, 1, .wo, 0⟩]⟩,
  -- SNS.PSTAT
  ⟨0x3A000C0, 4, 8, .whole, .none, [⟨0, 4, .ro, 0⟩]⟩,
  -- SNS.CRCCNT
  ⟨0x3A00100, 4, 8, .whole, .none, [⟨0, 32, .rc, 0⟩]⟩,
  -- SNS.SCFG
  ⟨0x3A00140, 4, 32, .whole, .sensorSlot, [⟨0, 5, .rwl, 0xF⟩, ⟨5, 5, .rwl, 0⟩, ⟨10, 5, .rwl, 0xF⟩, ⟨15, 1, .rwl, 0⟩, ⟨16, 1, .rwl, 0⟩, ⟨17, 1, .rwl, 0⟩, ⟨18, 5, .rwl, 0⟩]⟩,
  -- SNS.STX
  ⟨0x3A001C0, 4, 32, .whole, .sensorSlot, [⟨0, 32, .rwl, 0⟩]⟩,
  -- SNS.SCHK
  ⟨0x3A00240, 4, 32, .whole, .sensorSlot, [⟨0, 16, .rwl, 0⟩, ⟨16, 16, .rwl, 0⟩]⟩,
  -- SNS.SGAIN
  ⟨0x3A002C0, 4, 32, .whole, .sensorSlot, [⟨0, 32, .rwl, 0x10000⟩]⟩,
  -- SNS.SOFF
  ⟨0x3A00340, 4, 32, .whole, .sensorSlot, [⟨0, 32, .rwl, 0⟩]⟩,
  -- SNS.SVAL
  ⟨0x3A003C0, 4, 32, .whole, .none, [⟨0, 32, .ro, 0⟩]⟩,
  -- SNS.ERR
  ⟨0x3A00440, 4, 1, .whole, .none, [⟨0, 1, .w1c, 0⟩]⟩
]

/-- Every register of the block, in placement order. -/
def regs : List RegDef := regs0

end Sys2Proof.Machine.SNS

namespace Sys2Proof.Machine.PIN

def regs0 : List RegDef := [
  -- PIN.BANKCFG
  ⟨0x3C00000, 4, 8, .whole, .pinBank, [⟨0, 1, .rw, 0⟩, ⟨1, 1, .rwl, 0⟩]⟩,
  -- PIN.GPIODIR
  ⟨0x3C00040, 4, 1, .whole, .none, [⟨0, 32, .rw, 0⟩]⟩,
  -- PIN.GPIOOUT
  ⟨0x3C00080, 4, 1, .whole, .none, [⟨0, 32, .rw, 0⟩]⟩,
  -- PIN.GPIOIN
  ⟨0x3C000C0, 4, 1, .whole, .none, [⟨0, 32, .ro, 0⟩]⟩,
  -- PIN.GPIOEVT
  ⟨0x3C00100, 4, 1, .whole, .none, [⟨0, 32, .w1c, 0⟩]⟩
]

/-- Every register of the block, in placement order. -/
def regs : List RegDef := regs0

end Sys2Proof.Machine.PIN

namespace Sys2Proof.Machine.SEC

def regs0 : List RegDef := [
  -- SEC.BOOTSTAT
  ⟨0x3E00000, 4, 1, .whole, .none, [⟨0, 2, .ro, 0⟩, ⟨2, 4, .ro, 0⟩, ⟨6, 1, .ro, 0⟩, ⟨7, 2, .ro, 0⟩]⟩,
  -- SEC.DLADDR_LO
  ⟨0x3E00040, 8, 1, .lo, .none, [⟨0, 32, .rw, 0⟩]⟩,
  -- SEC.DLADDR_HI
  ⟨0x3E00044, 8, 1, .hi, .none, [⟨0, 32, .rw, 0⟩]⟩,
  -- SEC.DLLEN
  ⟨0x3E00080, 4, 1, .whole, .none, [⟨0, 32, .rw, 0⟩]⟩,
  -- SEC.DLCTL
  ⟨0x3E000C0, 4, 1, .whole, .none, [⟨0, 1, .wo, 0⟩, ⟨1, 1, .ro, 0⟩]⟩,
  -- SEC.KEYSTAT
  ⟨0x3E00100, 4, 4, .whole, .none, [⟨0, 1, .ro, 0⟩, ⟨1, 1, .ro, 0⟩, ⟨2, 1, .ro, 0⟩]⟩,
  -- SEC.FUSEDATA
  ⟨0x3E00140, 4, 12, .whole, .none, [⟨0, 32, .rw, 0⟩]⟩,
  -- SEC.FUSECTL
  ⟨0x3E00180, 4, 1, .whole, .none, [⟨0, 2, .wo, 0⟩, ⟨2, 2, .wo, 0⟩, ⟨4, 1, .wo, 0⟩, ⟨5, 1, .ro, 0⟩, ⟨6, 2, .ro, 0⟩, ⟨8, 8, .wo, 0⟩]⟩,
  -- SEC.DBGCTL
  ⟨0x3E001C0, 4, 1, .whole, .none, [⟨0, 1, .wo, 0⟩, ⟨1, 1, .wo, 0⟩, ⟨2, 1, .ro, 0⟩, ⟨3, 2, .ro, 0⟩, ⟨5, 1, .ro, 0⟩]⟩,
  -- SEC.DBGCHAL
  ⟨0x3E00200, 4, 12, .whole, .none, [⟨0, 32, .ro, 0⟩]⟩,
  -- SEC.DBGRESP
  ⟨0x3E00240, 4, 48, .whole, .none, [⟨0, 32, .wo, 0⟩]⟩
]

/-- Every register of the block, in placement order. -/
def regs : List RegDef := regs0

end Sys2Proof.Machine.SEC

namespace Sys2Proof.Machine

/-- The registers of the block that holds a home offset (R466, Table: register blocks). -/
def blockRegs (off : Nat) : List RegDef :=
  if off < 0x100000 then GLB.regs
  else if off < 0x200000 then PWR.regs
  else if off < 0x300000 then THM.regs
  else if off < 0x400000 then CRS.regs
  else if off < 0x800000 then CWY.regs
  else if off < 0xC00000 then RDC.regs
  else if off < 0xD00000 then LDG.regs
  else if off < 0x1000000 then TWN.regs
  else if off < 0x1400000 then SLC.regs
  else if off < 0x1800000 then SDG.regs
  else if off < 0x1C00000 then HMK.regs
  else if off < 0x2000000 then LDE.regs
  else if off < 0x2400000 then DLK.regs
  else if off < 0x2800000 then MER.regs
  else if off < 0x2C00000 then MEM.regs
  else if off < 0x3000000 then LAN.regs
  else if off < 0x3100000 then PCI.regs
  else if off < 0x3200000 then ETH.regs
  else if off < 0x3400000 then TIM.regs
  else if off < 0x3600000 then ENC.regs
  else if off < 0x3800000 then AXS.regs
  else if off < 0x3A00000 then LOP.regs
  else if off < 0x3C00000 then SNS.regs
  else if off < 0x3E00000 then PIN.regs
  else if off < 0x4000000 then SEC.regs
  else []

end Sys2Proof.Machine
end

