-- ==== Sys2Proof/Config.lean ====
section
/-!
DEFINITION. What an implementation fixes and the values the spec leaves open. Every constant here is opaque: it has no
body, so nothing can be proved of the value it takes.
-/

namespace Sys2Proof.Config

/-- The Vendor ID, which GLB.ID and every function's configuration space hold ("fixed", R443). -/
opaque vendorId : BitVec 16

/-- The fused device number of GLB.UID ("fused", R443). -/
opaque uid : BitVec 64

/-- The state of a lane's scrambler at a time of the free-running counter: it depends on the idle blocks sent before (R131). -/
opaque scramblerState : Nat → Nat → BitVec 58

/-- The offset at which a hub's telemetry report is kept, taken within the USER region; R154 leaves it open. -/
opaque telemetryAddr : Nat → Nat

/-- The bytes a deflate engine proposes for its `n`-th use; R63 leaves them open. -/
opaque deflateBytes : Nat → List (BitVec 8)

/-- Bytes that are free: those of the `n`-th transfer whose data the spec leaves open. -/
opaque freeBytes : Nat → List (BitVec 8)

/-- The values that are free: the `n`-th value the model has had to leave open. -/
opaque freeValue : Nat → Nat

/-- The seed of a channel's 32-bit generator of neighbour refreshes, from the FRC at power-on (R325). -/
opaque neighbourSeed : Nat → Nat → BitVec 32

/-- The next state of that generator; R325 names no polynomial. -/
opaque neighbourNext : BitVec 32 → BitVec 32

end Sys2Proof.Config
end

