-- ==== Sys2Proof/Machine/StateCore.lean ====
section
/-!
DEFINITION. State of the Brofer cores, of the engine operations they issue, and of the host interface (R184 to R270).
-/

namespace Sys2Proof.Machine

/-- Why a thread or core executes nothing although it is running (R207, R195, R234). -/
inductive Stall where
  | none
  /-- a host-window load awaits its completion (R201) -/
  | hostLoad (rd : GReg) (addr size : Nat) (sext : Bool)
  /-- FENCE HOST awaits its zero-length read (R203) -/
  | hostFence
  /-- an X operation awaits the zero-length read that its implied FENCE HOST needs (R206) -/
  | storeFence
  /-- a tagged operation found no tag (R220) -/
  | noTag
  /-- a request to SDRAM before training has first completed (R335), an engine's read of a disabled function (R263), or an access
  behind stores that wait for a disabled function (R203, R207) -/
  | memory
  /-- WAITTAG on one tag (R223) -/
  | waitTag (rd : GReg) (key serial : Nat)
  /-- WAITTAG with 0 (R223) -/
  | waitAll (rd : GReg)
  /-- WAITPOS; the FRC at which its timeout runs out, where it has one (R234) -/
  | waitPos (rd : GReg) (target selector : Word) (deadline : Option Nat)
  /-- WAITTIME (R234) -/
  | waitTime (rd : GReg) (target : Word)
  /-- WFE; the FRC at which its count ends, where it has one (R195) -/
  | wfe (deadline : Option Nat)
  /-- EXIT awaits the issued operations (R208, R211) -/
  | exit (result : Reg32)
  deriving DecidableEq, Repr

/-- One Causeway thread or Reed core: its registers (R184 to R186) and what it waits for. Its STATE, CODE, bound queue,
fault registers and debug registers stand in the register file. -/
structure Core where
  g : SMap Word
  pc : Word
  /-- the jumping instruction that led to `pc`, recorded by a FETCH fault (R194) -/
  jumpFrom : Word
  sat : Bool
  ovf : Bool
  hwin : BitVec 17
  hostfn : Nat
  args : List Word
  qseq : Reg32
  eflags : Reg32
  pbase : Nat
  plen : Nat
  event : BitVec 4
  evmask : Word
  /-- TIMER as last written, and the FRC at which it was (s18) -/
  timer : Word
  timerFrc : Nat
  stall : Stall
  /-- one instruction is being stepped (R214) -/
  stepping : Bool
  /-- the next instruction runs whatever breakpoint names it, after RESUME or STEP (R214) -/
  bpSkip : Bool
  /-- a write of CLEAR held until the completion is posted (Table: CWY.TCTL[t]) -/
  clearHeld : Bool
  /-- the FRC when the core's power domain last woke, from which CYCLE counts (s4) -/
  wokeFrc : Nat
  /-- it has stored to the host window since a zero-length read of its last completed (R203, R206) -/
  stored : Bool
  deriving DecidableEq, Repr

/-- One operation issued and not yet complete (R220 to R223). -/
structure Op where
  pool : Nat
  index : Nat
  serial : Nat
  issuer : CoreId
  /-- the function by which the issuer is judged (R226); 8 for a Reed core -/
  fn : Nat
  sub : Nat
  /-- completion record address, if it asks for a record (R222) -/
  record : Option Nat
  /-- the submission entry whose program issued it: queue and fetch number (R230) -/
  queue : Nat
  entry : Nat
  /-- the rest of its matching key (R303): the entry's QSEQ, and its ordinal among the program's operations of its sub-operation -/
  qseq : Nat
  ordinal : Nat
  /-- the host window and function by which it reaches host memory (R201) -/
  hwin : Nat
  hostfn : Nat
  desc : List Byte
  /-- the G0 an arming FARM has passed checks 1 to 7 with, while it waits (R233) -/
  g0 : Option Nat
  deriving DecidableEq, Repr

/-- The last completed operation of a tag: its SERIAL and its code word (R222, R223). -/
structure TagResult where
  serial : Nat
  code : Word
  deriving DecidableEq, Repr

/-- A fetched submission entry (R254). -/
structure Entry where
  paddr : Nat
  plen : Nat
  entry : Nat
  qseq : Nat
  flags : Nat
  pcrc : Nat
  args : List Word
  /-- the number of the fetch in its queue since enable -/
  number : Nat
  /-- where its program block lies in program memory -/
  base : Nat
  /-- it has its place in program memory, or waits for room there (R256) -/
  placed : Bool
  /-- false while the program block is being read -/
  started : Bool
  /-- the working time in ns at which it ended, while its function is disabled and its completion is held (R263) -/
  ended : Option Nat
  deriving DecidableEq, Repr

/-- One queue pair beyond its registers (R252 to R259). -/
structure Queue where
  /-- submission entries fetched since enable -/
  fetched : Nat
  /-- completions written or promised a slot since enable, and completions the host has consumed -/
  written : Nat
  promised : Nat
  consumed : Nat
  entry : Option Entry
  disablePending : Bool
  resumeHeld : Bool
  deriving DecidableEq, Repr

/-- A device event: code, AUX and VALUE (R260). -/
structure Event where
  code : Nat
  aux : Nat
  value : Nat
  deriving DecidableEq, Repr

/-- One PCI Express function beyond its registers (R249, R261 to R266). -/
structure Fn where
  d3 : Bool
  config : FnConfig
  /-- events held while the function is disabled, oldest first -/
  held : List Event
  /-- events lost since the last EVENT_LOST entry -/
  lost : Nat
  /-- BAND_RELEASED reports waiting for room, in the order of release -/
  releases : List Event
  /-- frames given a disposition by the FLR in progress -/
  flrFrames : Nat
  deriving DecidableEq, Repr

/-- One MSI-X vector: its table entry and its pending bit (R262). -/
structure Vector where
  addr : Nat
  data : Reg32
  masked : Bool
  pending : Bool
  deriving DecidableEq, Repr

/-- A program block cached in Causeway program memory (R256). -/
structure Block where
  fn : Nat
  paddr : Nat
  plen : Nat
  pcrc : Nat
  base : Nat
  deriving DecidableEq, Repr

/-- A completed BLOAD: its tag index, its code and handle, and whether the handle still names the band it loaded. -/
structure Loaded where
  index : Nat
  code : Nat
  handle : Nat
  held : Bool
  deriving DecidableEq, Repr

/-- A posted write that waits while its function is disabled (R201): the core that stored it, where one did. -/
structure HeldWrite where
  core : Option Nat
  fn : Nat
  addr : Nat
  bytes : List Byte
  deriving DecidableEq, Repr

/-- The Brofer cores, the operations outstanding and the host interface. -/
structure HostState where
  /-- threads 0 to 15, then reed0 to reed31 at 16 to 47 -/
  cores : SMap Core
  ops : List Op
  serials : SMap Nat
  results : SMap TagResult
  /-- completed BLOADs by SERIAL, which a BSTAGE in FORM 1 may still name (R231) -/
  bloads : SMap Loaded
  /-- operations a thread's program has issued, by thread × 2,048 + sub-operation (R303) -/
  ordinals : SMap Nat
  /-- Causeway threads that wait for a tag, in the order in which they stalled (R220) -/
  tagWaiters : List Nat
  queues : SMap Queue
  fns : SMap Fn
  vectors : SMap Vector
  blocks : List Block
  /-- tags that have freed and been given to a core that waited for one, by core (R220) -/
  granted : SMap Nat
  /-- posted writes that wait while their function is disabled (R201) -/
  heldWrites : List HeldWrite
  /-- Causeway threads whose completion is held while their function is disabled, in the order in which they ended (R263) -/
  heldEnds : List Nat
  /-- outstanding reads whose requester has gone: they keep their pool entries until they complete or time out (R264) -/
  stale : List ReadOwner
  /-- the queue each Causeway thread last served (R257) -/
  lastServed : SMap Nat
  deriving DecidableEq, Repr

end Sys2Proof.Machine
end

