-- ==== Sys2Proof/Machine/StateOut.lean ====
section
/-!
DEFINITION. What the M9600 sends: the requests, messages, link frames and pin levels that leave it. The model records
them in the order in which they leave; host memory, the hubs, the partner and the press stand outside the model.
-/

namespace Sys2Proof.Machine

/-- What a twin message carries (Table: twin message types). -/
inductive TwinBody where
  /-- HELLO; `printing` tells whether the sender holds ledger authority with a frame ARMED or FIRING -/
  | hello (unit preferred profile id claim geohash tabsum : Nat) (settings : List Nat) (printing : Bool)
  | heartbeat (claim state : Nat) (triggers : List Nat)
  /-- group, trigger number and Tm in 2^-16 ns -/
  | trig (group n tm : Nat)
  | record (bytes : List Byte)
  | ringAck (group fsn : Nat)
  | change (key : TwinKey) (desc : List Byte) (ge : Nat)
  | result (key : TwinKey) (code value : Word) (geohash tabsum : Nat)
  | entry (queue qseq blockCrc argCrc : Nat)
  /-- hub, stream entries and report entries of an ACK -/
  | hubpoint (hub : Nat) (streams : List PointEntry) (reports : List ReportEntry)
  /-- request or answer; the trigger, and the next SEQ of each stream by hub × 128 + slot -/
  | resync (answer : Bool) (trigger : Nat) (streams : List (Nat × Nat))
  | diverge (cause detail : Nat)
  | resetReq (claim : Nat)
  | stateCopy (part : CopyPart)
  /-- boot image bytes at an offset; a request is one with no bytes -/
  | image (offset : Nat) (bytes : List Byte)
  | request (key : TwinKey) (desc : List Byte)
  deriving DecidableEq, Repr

/-- One thing sent. -/
inductive Out where
  /-- a message on the twin link, with its TSEQ and TACK -/
  | twin (tseq tack : Nat) (m : TwinBody)
  /-- a link frame: lane, byte 2 of its start block, header and payload, CRC-32C and PAD (R132 to R134) -/
  | link (lane start : Nat) (bytes : List Byte) (crc pad : Nat)
  /-- a heartbeat word on HB_TX (R297) -/
  | hbWord (w : Word)
  /-- a posted memory write of a function -/
  | hostWrite (fn addr : Nat) (bytes : List Byte)
  /-- a memory read request of a function -/
  | hostRead (fn addr len : Nat)
  /-- an MSI-X message: the table entry's address and data -/
  | msi (fn addr : Nat) (data : Reg32)
  /-- a level driven on a timed output TOUTn (R359) -/
  | tout (output : Nat) (high : Bool)
  /-- a level driven on a marker output MARKn (R361) -/
  | mark (marker : Nat) (high : Bool)
  /-- an Ethernet frame without FCS, on a port (R364) -/
  | ethernet (port : Nat) (bytes : List Byte)
  /-- a press message: Ethernet port, destination IPv4 address, and the UDP payload (R366) -/
  | press (port : Nat) (dest : Reg32) (bytes : List Byte)
  /-- a trigger packet on a camera's master upconnection, for a measured trigger (R161) -/
  | cameraTrigger (camera n : Nat)
  /-- a 4-byte read or write of a camera register by reed8 (R163) -/
  | cameraCommand (camera : Nat) (write : Bool) (addr data : Reg32)
  /-- STEP pulses of one sample, in ns from its start, with the level of DIR (R394) -/
  | steps (axis : Nat) (back : Bool) (times : List Nat)
  /-- one chopper cycle of a coil: its sign, and its thresholds in 1/1,024 of full scale (R396) -/
  | coil (stepper coil : Nat) (negative : Bool) (upper lower : Int)
  /-- both bridge enables of a stepper channel go low (R391) -/
  | coilsOff (stepper : Nat)
  /-- the bridge enable of one coil goes low: its target is 0 (R396) -/
  | coilOff (stepper coil : Nat)
  /-- a period of a PWM: clocks high and clocks in all (R406) -/
  | pwm (n high period : Nat)
  /-- a word shifted out on a sensor slot (R409) -/
  | spi (slot word : Nat)
  /-- the SPDLIM duty of a 1 kHz period, in 1/1,024 (R367) -/
  | spdlim (duty : Nat)
  /-- a register read over the management I2C port (R460) -/
  | i2c (data : Reg32)
  /-- the completion of a host function's read of its BAR0: the data, or none for an Unsupported Request (R470) -/
  | readDone (fn : Nat) (data : Option Reg32)
  deriving DecidableEq, Repr

end Sys2Proof.Machine
end

