-- ==== Sys2Proof/Machine/StateDlk.lean ====
section
/-!
DEFINITION. State of the Dusiane Link beyond the DLK registers (R131 to R157): streams, replay buffers, control streams,
bring-up and lanes. A stream is keyed by hub × 128 + head slot.
-/

namespace Sys2Proof.Machine

/-- The three points of a stream: the next SEQ to build, and the hub's HELD and DONE (R137, R143). -/
structure Stream where
  next : Nat
  held : Nat
  done : Nat
  deriving DecidableEq, Repr

/-- What a link frame in replay carries. -/
inductive Cargo where
  /-- ledger key of the owning frame, row, group line, sub-phase, sub-phases - 1, first nozzle, levels; VOID has none -/
  | data (frame row line phase nph start : Nat) (levels : List Nat) (void : Bool)
  /-- OP and parameters of a control operation -/
  | ctrl (op : Nat) (params : List Byte)
  deriving DecidableEq, Repr

/-- A link frame kept until the hub's HELD covers it (R146). -/
structure LinkFrame where
  hub : Nat
  slot : Nat
  seq : Nat
  /-- fire-at time in 2^-16 ns; of a WAVE_SWITCH, its effective time -/
  fireAt : Nat
  cargo : Cargo
  /-- it waits to be placed on a lane -/
  queued : Bool
  /-- it has been sent before -/
  sent : Bool
  /-- set position that last carried it -/
  lane : Option Nat
  deriving DecidableEq, Repr

/-- A control operation that awaits its response (R152). -/
structure Ctrl where
  seq : Nat
  op : Nat
  /-- the operation ISSUE_HUBCTRL it serves, none for bring-up -/
  key : Option Nat
  /-- where its response goes, and how many bytes at most (R236) -/
  dest : Nat
  outmax : Nat
  /-- the FRC at which it was sent -/
  sentFrc : Nat
  deriving DecidableEq, Repr

/-- One hub's link beyond its registers. -/
structure Hub where
  /-- SEQ of the last control frame built, and the HELD point of the control stream -/
  ctrlSeq : Nat
  ctrlHeld : Nat
  waiting : List Ctrl
  /-- bring-up control operations answered OK, 0 to 5 (Table: hub link states) -/
  step : Nat
  /-- a CONFIG failure keeps it DOWN (R157) -/
  failed : Bool
  /-- a TIME exchange has completed in this bring-up, and a TIME frame carrying its D has been sent -/
  timed : Bool
  told : Bool
  /-- the FRC of the last ACK and of the last upstream frame, none before the first, and of the entry into CONFIG -/
  ackFrc : Option Nat
  upFrc : Option Nat
  configFrc : Option Nat
  /-- the FRC of the last resend by ACK timeout -/
  resendFrc : Option Nat
  /-- the FIRED time of its ACKs, in ns (R147) -/
  fired : Nat
  /-- the FRC of the last HUBPOINT of the partner for it (R305, R311) -/
  partnerFrc : Option Nat
  deriving DecidableEq, Repr

/-- A hub at power-on. -/
def Hub.fresh : Hub :=
  { ctrlSeq := 0, ctrlHeld := 0, waiting := [], step := 0, failed := false, timed := false, told := false, ackFrc := none,
    upFrc := none, configFrc := none, resendFrc := none, fired := 0, partnerFrc := none }

/-- One H lane as the Dusiane Link uses it. -/
structure LinkLane where
  /-- SYNC-IDLEs sent, and the states of the PRBS31 sequences sent and expected (R155) -/
  syncSeq : Nat
  prbsOut : Nat
  prbsIn : Option Nat
  /-- the FRC since which it is clean (R155) -/
  cleanFrom : Option Nat
  /-- its loss of lock has been seen and its removal is due (R156) -/
  lost : Bool
  /-- the hub has it clean, as its LANE_UP says -/
  hubClean : Bool
  /-- the TIME exchange: its count, t1 of the exchange open, and D in 2^-16 ns (R151) -/
  timeSeq : Nat
  t1 : Option Nat
  delay : Option Nat
  /-- the FRC, in thousandths of a tick, at which the frames queued on it have left -/
  busyUntil : Nat
  deriving DecidableEq, Repr

/-- The Dusiane Link. -/
structure DlkState where
  hubs : SMap Hub
  streams : SMap Stream
  /-- frames in the replay buffers, oldest first -/
  replay : List LinkFrame
  lanes : SMap LinkLane
  /-- SEQs stamped from a trigger of the standby's own (R302): stream and SEQ -/
  fallbackSeqs : List (Nat × Nat)
  deriving DecidableEq, Repr

/-- The Dusiane Link at power-on. -/
def DlkState.reset : DlkState := { hubs := [], streams := [], replay := [], lanes := [], fallbackSeqs := [] }

end Sys2Proof.Machine
end

