-- ==== Sys2Proof/Machine/StateFeedback.lean ====
section
/-!
DEFINITION. State of position and speed feedback beyond the ENC registers (R369 to R383).
-/

namespace Sys2Proof.Machine

/-- The last accepted transition of a channel: its FRC stamp, its sign, and whether it was a counted edge (R372). -/
structure Transition where
  frc : Nat
  sign : Int
  counted : Bool
  deriving DecidableEq, Repr

/-- A counted edge for the PERIOD method: its stamp, its sign, and Δ from its predecessor where that was a counted edge of
the same direction (R376). -/
structure Edge where
  frc : Nat
  sign : Int
  delta : Option Nat
  deriving DecidableEq, Repr

/-- One feedback channel. -/
structure Channel where
  /-- the extended position (R374) -/
  x : Int
  /-- the accepted levels of A, B and Z -/
  levels : Nat
  last : Option Transition
  edge : Option Edge
  /-- X at the start of the 10 µs window, and the counted edges in it (R376) -/
  windowX : Int
  windowEdges : Nat
  /-- an index has been captured since the last counted edge (R375) -/
  indexed : Bool
  /-- stamps of illegal transitions of the last millisecond (R381) -/
  illegal : List Nat
  /-- the previous good serial reading and its stamp, and the failed readings in a row (R373) -/
  reading : Option (Nat × Nat)
  failed : Nat
  /-- the FRC at which the cause of LOST or FROZEN was last present (R382), and at which the count last changed (R381) -/
  badFrc : Nat
  movedFrc : Nat
  /-- the FRC at which no consumer's effort was last above the threshold (R381) -/
  quietFrc : Nat
  /-- the FRC at which it last entered RUN -/
  since : Nat
  deriving DecidableEq, Repr

/-- One line-trigger generator: the next trigger not yet hit, ABS in 2^-32 counts, and the FRC at which it was enabled. -/
structure Generator where
  next : Nat
  absorbed : Int
  since : Nat
  deriving DecidableEq, Repr

/-- Position and speed feedback. -/
structure FeedbackState where
  channels : SMap Channel
  generators : SMap Generator
  deriving DecidableEq, Repr

def FeedbackState.reset : FeedbackState := { channels := [], generators := [] }

end Sys2Proof.Machine
end

