-- ==== Sys2Proof/Machine/StateLane.lean ====
section
/-!
DEFINITION. State of the serial lanes and their quads beyond the LAN registers (R340 to R354).
-/

namespace Sys2Proof.Machine

/-- A quad beyond its registers. -/
structure QuadState where
  /-- the FRC at which the PLL, switched on, is locked (R341) -/
  lockAt : Option Nat
  /-- the last LAN.QRATE value written during a change or while training steps end (R342, R347) -/
  want : Option Reg32
  /-- receivers whose training step is still to end before the change (R347) -/
  waits : List Nat
  /-- the PLL runs at the new rate, and QUAD_RATE is due when the receivers have locked (R342) -/
  due : Bool
  /-- the PLL stands because all eight sides sleep (R353) -/
  asleep : Bool
  deriving DecidableEq, Repr

/-- The lanes: quads by number, and the receivers that reacquire lock from held equaliser values (R350, R353). -/
structure LaneState where
  quads : SMap QuadState
  reacquiring : List Nat
  deriving DecidableEq, Repr

/-- No quad runs. -/
def LaneState.reset : LaneState := ⟨[], []⟩

end Sys2Proof.Machine
end

