-- ==== Sys2Proof/Machine/StateLedger.lean ====
section
/-!
DEFINITION. State of the page ledger (R271 to R293), of the geometry (R20 to R42) and of band intake and Sluice
(R43 to R68), beyond their registers.
-/

namespace Sys2Proof.Machine

/-- One entry of the head table: its four words, reserved bits 0 (R24, R116). -/
structure Head where
  w0 : Reg32
  w1 : Reg32
  w2 : Reg32
  w3 : Reg32
  deriving DecidableEq, Repr

/-- One staging of a frame (R231): the band and the fields of it that the frame's content rests on (R280). -/
structure Staging where
  band : Nat
  crc : Nat
  ulen : Nat
  first : Nat
  plane : Nat
  ch : Nat
  /-- the verdict of the inflation serving the frame: none while it is open (R59) -/
  verdict : Option Bool
  deriving DecidableEq, Repr

/-- A spoil mark: its reason and the working time at which it was set (R273). -/
structure SpoilMark where
  reason : Nat
  time : Nat
  deriving DecidableEq, Repr

/-- Which flushing read a frame awaits (R272, R281). -/
inductive Flush where
  | none
  | accepted
  | firing
  | disposition
  deriving DecidableEq, Repr

/-- One SEQ built for a frame (R147): its stream (hub × 128 + slot), its row and trigger, its fire-at time, and whether it is
settled: fired, declared late or given up (R274, R275). -/
structure OpenSeq where
  stream : Nat
  seq : Nat
  row : Nat
  trigger : Nat
  fireAt : Nat
  settled : Bool
  deriving DecidableEq, Repr

/-- One frame of the ledger: its record (R278) and what its disposition waits on (R272 to R276). -/
structure Frame where
  fsn : Nat
  group : Nat
  jobref : Nat
  tAccept : Nat
  tFirst : Nat
  tDisp : Nat
  pos : Nat
  crc64 : Nat
  lines : Nat
  linkback : Nat
  /-- STATE of the record, 1 ACCEPTED to 7 WITHDRAWN -/
  state : Nat
  released : Bool
  degraded : Bool
  reprint : Bool
  reason : Nat
  /-- G0, once fixed at arming (R34) -/
  g0 : Option Nat
  stagings : List Staging
  mark : Option SpoilMark
  /-- lines of the frame that have entered the Hummock logic, by channel -/
  entered : SMap Nat
  /-- row-lines that have entered the Hummock logic and are neither stamped, suppressed nor blanked -/
  openRows : Nat
  /-- the SEQs built for it (R274, R275) -/
  openSeqs : List OpenSeq
  /-- lines not yet in the Hummock logic fire blank (R285, R266) -/
  blank : Bool
  /-- the stripes placed in it: first and last group line, and the operation MARK that placed it (R243, R288) -/
  stripes : List (Nat × Nat × Option Nat)
  flush : Flush
  /-- the awaited flushing read has returned the right FSN, or has failed and is to be repeated (R281) -/
  flushDone : Bool
  flushBad : Bool
  /-- the condition of its disposition holds and T_DISP is fixed (R276) -/
  met : Bool
  /-- its 64 bytes in the rings, as last written (R277, R278) -/
  record : List Byte
  /-- the group's mirror lag was 0 when that record was written (R290) -/
  mirrored : Bool
  /-- the operation FACCEPT that waits for it to be durable -/
  op : Option Nat
  /-- its disposition record has been written (R276) -/
  recorded : Bool
  /-- in a pair, both of the partner's rings hold its last record (R306) -/
  partnerHas : Bool
  /-- in a pair, the standby holds the active's FIRING record (R306) -/
  firingHeld : Bool
  deriving DecidableEq, Repr

/-- The open GO_BACK run of a group and the frames of it that still lack a reprint (R285, R286). -/
structure Run where
  first : Nat
  last : Nat
  lacking : List Nat
  deriving DecidableEq, Repr

/-- The ledger of all four groups beyond the LDG registers. -/
structure LedgerState where
  /-- frames by FSN × 4 + group, from the oldest not forgotten -/
  frames : SMap Frame
  runs : SMap Run
  /-- FSNs whose last record is in the rings and not yet visible in the mirror, oldest first, per group (R265, R283) -/
  lag : SMap (List Nat)
  /-- ledger operations waiting in the group's order, by key, with what each needs to run (R227) -/
  order : SMap (List Nat)
  /-- ring bases that Moss holds, LEDGER_A then LEDGER_B, in 2 MiB units, once a lock has succeeded (R50, R283) -/
  mossBases : Option (Nat × Nat)
  /-- a warm reset has come since a lock last succeeded, so that the next lock must name the same ring bases (R50) -/
  mossHeld : Bool
  /-- MIRROR_FAULT has been raised for the slot being retried (R281) -/
  faultRaised : SMap Bool
  deriving DecidableEq, Repr

/-- Where a band stands (R48, R54, R61). -/
inductive BandStatus where
  /-- it has its entry and waits for blocks (R48, R53) -/
  | waiting
  | reading
  | verifying
  | valid
  | bad
  /-- its references have ended and its BAND_RELEASED report waits for room -/
  | reporting
  deriving DecidableEq, Repr

/-- A refetch in progress: its new blocks and the attempts that have failed (R61). -/
structure Refetch where
  blocks : List Nat
  failures : Nat
  done : Bool
  stored : Nat
  comp : Nat
  deriving DecidableEq, Repr

/-- One band-table entry (R44, R47, R48, R54). -/
structure Band where
  status : BandStatus
  fn : Nat
  src : Nat
  clen : Nat
  ulen : Nat
  plane : Nat
  comp : Nat
  ch : Nat
  recomp : Bool
  verify : Bool
  level : Nat
  dict : Nat
  dicten : Bool
  lines : Nat
  first : Nat
  crc : Nat
  cookie : Nat
  count : Nat
  cdpi : Nat
  blocks : List Nat
  /-- bytes stored, and how they are stored: 0 as they are, 1 DEFLATE, 2 ZLIB -/
  stored : Nat
  storedComp : Nat
  storedRaw : Bool
  /-- reads not yet issued, and reads outstanding: offset and length -/
  todo : List (Nat × Nat)
  outstanding : List (Nat × Nat)
  /-- source bytes received for a deflate engine, by offset -/
  buffer : SMap (List Byte)
  /-- output bytes its verification has decoded, and whether that is suspended (R60) -/
  verified : Nat
  suspended : Bool
  /-- the BLOAD that is loading it -/
  op : Option Nat
  /-- the entry that owns its load reference: queue and fetch number -/
  loadRef : Option (Nat × Nat)
  /-- frames that hold a frame reference, by FSN × 4 + group; one entry per BSTAGE -/
  frameRefs : List Nat
  refetch : Option Refetch
  /-- an uncorrectable error was reported while its BLOAD ran (R61) -/
  reported : Bool
  deriving DecidableEq, Repr

/-- An inflation in progress: the band for one frame, its next line, and the fault it has met (R56 to R62). -/
structure Inflation where
  frame : Nat
  band : Nat
  next : Nat
  fault : Nat
  deriving DecidableEq, Repr

/-- A decoded line held ahead of Sedge by an inflate engine (R56). -/
structure LeadLine where
  frame : Nat
  band : Nat
  line : Nat
  plane : Nat
  bytes : List Byte
  /-- it was zeroed or withheld because of poison (R62) -/
  poisoned : Bool
  deriving DecidableEq, Repr

/-- A Sluice job in progress, by the key of its operation (R64 to R66). -/
structure Job where
  op : Nat
  src : Nat
  dest : Nat
  slen : Nat
  outmax : Nat
  kind : Nat
  wrap : Nat
  level : Nat
  dict : Nat
  dicten : Bool
  flushk : Nat
  blocks : List Nat
  /-- the inflate engine it runs on, how much output it has produced, and whether it is suspended because that engine's lead has
  fallen (R60) -/
  engine : Option Nat
  progress : Nat
  suspended : Bool
  /-- it waits for blocks or for a slot that is LOADING -/
  waiting : Bool
  deriving DecidableEq, Repr

/-- What a deflate engine compresses: a band, by handle, or a job, by the key of its operation (R63). -/
inductive DeflateWork where
  | band (h : Nat)
  | job (key : Nat)
  deriving DecidableEq, Repr

/-- Band intake, the Mire page store and Sluice beyond the SLC registers. -/
structure IntakeState where
  /-- the head table (R24) -/
  heads : SMap Head
  /-- validation in progress (R40): the geometry as it stood is the present one, since a change abandons it -/
  bands : SMap Band
  /-- BLOADs that wait for blocks or an entry, in issue order, by key (R53) -/
  waiting : List Nat
  /-- waiting BLOADs that have found no entry free, by key, as they stood when they were issued (R47, R53) -/
  described : SMap Band
  /-- what each deflate engine is compressing (R63) -/
  deflate : SMap DeflateWork
  /-- a lock check is running (R50) -/
  locking : Bool
  inflations : List Inflation
  /-- decoded lines ahead of Sedge, by engine, oldest first -/
  leads : SMap (List LeadLine)
  jobs : List Job
  deriving DecidableEq, Repr

end Sys2Proof.Machine
end

