-- ==== Sys2Proof/Machine/StateMem.lean ====
section
/-!
DEFINITION. State of the memory controller beyond the MEM registers (R316 to R338).
-/

namespace Sys2Proof.Machine

/-- The memory controller. -/
structure MemState where
  /-- the physical rank of each logical rank, by channel × 4 + logical rank (R320) -/
  ranks : SMap Nat
  /-- the next ECC word of each channel's scrub, as a channel-local burst number (R329) -/
  scrub : SMap Nat
  /-- the set point being trained, and the one a frequency change in progress goes to (R332, R333) -/
  training : Option Nat
  change : Option Nat
  /-- training was started by a request for another set point, so its end is a frequency change -/
  forFreq : Bool
  /-- the last request written while a change or training is in progress -/
  next : Option Nat
  /-- ranks for which MEM_NO_SPARE has been raised, as channel × 4 + rank (R331) -/
  noSpare : List Nat
  /-- the FRC of each rank's last refresh and of its last MR4 read, and the ranks whose MR4 reports the doubled rate (R324) -/
  refreshed : SMap Nat
  polled : SMap Nat
  hot : List Nat
  /-- the generator of each channel that has drawn a neighbour refresh since power-on (R325) -/
  draws : SMap (BitVec 32)
  /-- the open row of each bank that has one, by bank number (R319) -/
  openRows : SMap Nat
  /-- the FRC at which each row was last refreshed as a neighbour, by 2^17 × bank number + row (R325) -/
  rowsRefreshed : SMap Nat
  /-- the FRC of the last request to SDRAM (R336) -/
  lastAccess : Nat
  /-- ranks whose migration a warm reset has abandoned, as channel × 4 + rank: their retirement starts again (R330) -/
  retiring : List Nat
  /-- SDRAM has been left in self-refresh by a warm reset or a TRIP, and not been trained since (R338, R431) -/
  left : Bool
  deriving DecidableEq, Repr

/-- The memory controller at power-on. -/
def MemState.reset : MemState :=
  { ranks := [], scrub := [], training := none, change := none, forFreq := false, next := none, noSpare := [],
    refreshed := [], polled := [], hot := [], draws := [], openRows := [], rowsRefreshed := [], lastAccess := 0,
    retiring := [], left := false }

end Sys2Proof.Machine
end

