-- ==== Sys2Proof/Machine/StateLode.lean ====
section
/-!
DEFINITION. State of the Lodes, the hold and the Dykes beyond the LDE registers (R110 to R130).
-/

namespace Sys2Proof.Machine

/-- A row-line in the hold: the segment of one strike of one line on one row (R118). -/
structure HeldLine where
  frame : Nat
  row : Nat
  line : Nat
  strike : Nat
  /-- the level of each position of the span -/
  levels : List Nat
  /-- it was built from poisoned data and, in a pair, is withheld (R62, R118) -/
  withheld : Bool
  /-- it fires blank, as VOID (R285, R266) -/
  void : Bool
  /-- an uncorrectable memory error has met it in the hold (R118) -/
  poison : Bool
  deriving DecidableEq, Repr

/-- What the Lode stamped for a trigger: its predicted time and period, and the row-lines stamped (R114, R117). -/
structure Stamp where
  group : Nat
  trigger : Nat
  predicted : Nat
  period : Nat
  /-- channel, frame and group line of each row segment stamped -/
  segments : List (Nat × Nat × Nat)
  deriving DecidableEq, Repr

/-- A decided fire slot of a drive group in one channel's Dyke (R127): its sub-phase count, and the energies of its drops by
fire instant in 2^-16 ns. -/
structure Slot where
  channel : Nat
  dgroup : Nat
  trigger : Nat
  nsub : Nat
  drops : List (Int × Nat)
  deriving DecidableEq, Repr

/-- Lodes, hold and Dykes. -/
structure LodeState where
  /-- measured triggers of each group, newest first: number and Tm in 2^-16 ns (R110) -/
  tm : SMap (List (Nat × Nat))
  /-- the FRC stamp of the transition that hit each group's last trigger (R234) -/
  hitFrc : SMap Nat
  hold : List HeldLine
  /-- row-lines found late before their segments have reached the hold, by frame, row, line and strike (R121) -/
  late : List (Nat × Nat × Nat × Nat)
  stamps : List Stamp
  slots : List Slot
  /-- energies of the blocks of 64 slots, by block number, for channel × 1,024 + drive group (R129) -/
  windows : SMap (SMap Nat)
  /-- C_d by drive group, fixed at validation (R125) -/
  shares : SMap Nat
  deriving DecidableEq, Repr

/-- The Lodes at power-on: nothing measured, nothing held. -/
def LodeState.reset : LodeState :=
  { tm := [], hitFrc := [], hold := [], late := [], stamps := [], slots := [], windows := [], shares := [] }

end Sys2Proof.Machine
end

