-- ==== Sys2Proof/Machine/StatePrint.lean ====
section
/-!
DEFINITION. State of the Sedge pipelines, the ink limiter and the Hummock logic beyond their registers (R69 to R109).
-/

namespace Sys2Proof.Machine

/-- A line inside Sedge (R69): fixed at its entry are its frame, its lines, its bank and its pixels before the limiter. -/
structure SedgeLine where
  frame : Nat
  /-- group line and frame line -/
  line : Nat
  fline : Nat
  direct : Bool
  /-- it meets no usable bank and is screened to level 0 (R87) -/
  blankScreen : Bool
  bank : Nat
  /-- coverage of each position before the limiter, or the DIRECT levels -/
  cover : List Nat
  /-- screen index of each position (R75) -/
  screen : List Nat
  /-- levels, once the limiter and screening have acted -/
  levels : Option (List Nat)
  /-- built from poisoned or failed band data in a pair, and so withheld (R62, R305) -/
  withheld : Bool
  deriving DecidableEq, Repr

/-- An update of the Hummock map (R102 to R106). -/
structure Update where
  ge : Nat
  a : Nat
  n : Nat
  state : Option Nat
  gclass : Option Nat
  lock : Option Nat
  /-- 0 HOST, 1 MERE, 2 TWIN -/
  source : Nat
  /-- nozzles skipped, and those whose record was poisoned (R104) -/
  skipped : List Nat
  poisonedNoz : List Nat
  /-- the operation that completes when it applies, for a Ge 0 update that waits for a reload -/
  op : Option Nat
  deriving DecidableEq, Repr

/-- Sedge and the Hummock logic. -/
structure PrintState where
  /-- frame lines admitted and not yet in Sedge, by channel: frame and frame line (R113) -/
  admitted : SMap (List (Nat × Nat))
  /-- the next group line each channel admits -/
  nextLine : SMap Nat
  /-- lines in each Sedge pipeline, oldest first, and those that have left it -/
  sedge : SMap (List SedgeLine)
  left : SMap (List SedgeLine)
  /-- Ge of each group's pending limiter bank (R85) -/
  limiterGe : SMap Nat
  /-- the first line that each group's limiter bank in force took (R86) -/
  limiterFrom : SMap Nat
  /-- deferred updates of each channel in the order of Ge and acceptance; kept in PD_CORE (R105, R108) -/
  updates : SMap (List Update)
  /-- Ge 0 updates that wait for a reload to end (R107) -/
  afterReload : List Update
  /-- the first and the last row of the reload that runs (R107) -/
  reloadRows : Nat × Nat
  /-- row segments on their way to the hold, by channel -/
  segments : SMap (List HeldLine)
  deriving DecidableEq, Repr

/-- The print path at power-on: empty. -/
def PrintState.reset : PrintState :=
  { admitted := [], nextLine := [], sedge := [], left := [], limiterGe := [], limiterFrom := [], updates := [], afterReload := [], reloadRows := (0, 0),
    segments := [] }

end Sys2Proof.Machine
end

