-- ==== Sys2Proof/Machine/StateMere.lean ====
section
/-!
DEFINITION. State of Mere in-line inspection beyond the MER registers (R159 to R183).
-/

namespace Sys2Proof.Machine

/-- A prediction block being accumulated by the tap (R168, R176). -/
structure Tap where
  block : Nat
  /-- the frame that owns the block's first line: FSN and G0 -/
  owner : Option (Nat × Nat)
  /-- summed drop volumes, by pixel × 8 + channel -/
  vols : SMap Nat
  /-- drops of each pixel, and the one nozzle that fired them, none where several did -/
  drops : SMap (Nat × Option Nat)
  unsound : Bool
  deriving DecidableEq, Repr

/-- A camera line received and not yet compared: its trigger and its raw bytes. -/
structure CamLine where
  trigger : Nat
  raw : List Byte
  deriving DecidableEq, Repr

/-- A defect in progress (R172): the columns flagged in the last line with the length of the run of each, its first line, its
extent, and the run length at which it was last reported. -/
structure Streak where
  light : Bool
  cols : SMap Nat
  fsn : Option Nat
  gline : Nat
  first : Nat
  last : Nat
  lines : Nat
  longest : Nat
  peak : Nat
  reported : Nat
  deriving DecidableEq, Repr

/-- A fiducial being searched: its position, the trigger of its expected centre, and over its window Σd, Σd × position in
1/512 position, and Σd × trigger (R166). -/
structure Fiducial where
  pos : Nat
  trigger : Int
  weight : Nat
  sumPos : Int
  sumTrig : Int
  deriving DecidableEq, Repr

/-- The registration of one frame. -/
structure Search where
  fsn : Nat
  g0 : Nat
  marks : List Fiducial
  /-- the last trigger of the search window -/
  until_ : Int
  deriving DecidableEq, Repr

/-- One camera. -/
structure Camera where
  /-- triggers sent since the stream started that are not yet matched, and how many precede them (R162) -/
  sent : List Nat
  matched : Nat
  /-- Tm of the last trigger sent, in 2^-16 ns (R161) -/
  lastSent : Option Nat
  /-- images whose header has been received since the stream started -/
  images : Nat
  lines : List CamLine
  taps : List Tap
  streaks : List Streak
  band : Option Streak
  /-- the registrations in progress, one per frame whose window is being imaged -/
  searches : List Search
  /-- frames whose lines the tap has met and which are still to be registered: FSN and G0 -/
  frames : List (Nat × Nat)
  /-- frames whose lines the tap has met, registered or not, while they are in the ledger -/
  met : List (Nat × Nat)
  /-- whether the mailbox command in progress is a write -/
  cmdWrite : Bool
  /-- the FRC at which the mailbox command in progress was sent (R163) -/
  cmdFrc : Nat
  deriving DecidableEq, Repr

/-- An announced strip (R175). -/
structure Strip where
  number : Nat
  fsn : Nat
  chmask : Nat
  len : Nat
  slev : Nat
  q : Nat
  /-- G0 of its frame, once the tap has met it -/
  g0 : Option Nat
  /-- cameras that have compared a line past its sections -/
  imaged : List Nat
  deriving DecidableEq, Repr

/-- A section notice on its way to the firmware of a Reed core (R177). -/
structure Notice where
  reed : Nat
  group : Nat
  number : Nat
  channel : Nat
  /-- e and q of the section, G0 and FSN of its frame, and the section's first group line -/
  e : Nat
  q : Nat
  qsize : Nat
  g0 : Nat
  fsn : Nat
  gline : Nat
  deriving DecidableEq, Repr

/-- An update the firmware has issued for a section and which is to be retried or awaits the active of a pair (R178, R303). -/
structure Issued where
  notice : Notice
  update : Update
  /-- the queue and QSEQ of its matching key, and the FRC at which it was last issued -/
  queue : Nat
  qseq : Nat
  frc : Nat
  deriving DecidableEq, Repr

/-- Mere. -/
structure MereState where
  cameras : SMap Camera
  /-- the last strip of each group -/
  strips : SMap Strip
  /-- strips announced so far -/
  stripCount : Nat
  /-- strips are refused since an FLR of PF5 (R182) -/
  stripHeld : Bool
  /-- defect records that wait on chip (R173) -/
  queue : List (List Byte)
  /-- the FRC at which DEFECT was last raised -/
  lastEvent : Option Nat
  notices : List Notice
  /-- updates refused with QUEUE_FULL (R178), and those sent to the active as REQUESTs (R303) -/
  retries : List Issued
  requests : List Issued
  /-- updates issued so far, which numbers their REQUESTs -/
  issued : Nat
  deriving DecidableEq, Repr

/-- Mere at power-on. -/
def MereState.reset : MereState :=
  { cameras := [], strips := [], stripCount := 0, stripHeld := false, queue := [], lastEvent := none, notices := [],
    retries := [], requests := [], issued := 0 }

end Sys2Proof.Machine
end

