-- ==== Sys2Proof/Machine/StateMotion.lean ====
section
/-!
DEFINITION. State of the axes, the stepper channels, the loop engines, the capture engines and the sensor ports beyond
their registers (R384 to R412).
-/

namespace Sys2Proof.Machine

/-- A stop under way to the target (R387): x, the distance to it, v and a where it began, and the samples since. -/
structure Brake where
  x : Int
  e : Int
  v : Int
  a : Int
  samples : Nat
  deriving DecidableEq, Repr

/-- One axis. x, v and a are in 2^-16 of their units (R386). -/
structure Axis where
  x : Int
  v : Int
  a : Int
  /-- the target in force, in 2^-16 microstep -/
  target : Int
  /-- the limits in force: VMAX, AMAX, DMAX, JMAX -/
  vmax : Nat
  amax : Nat
  dmax : Nat
  jmax : Nat
  /-- the AXMOVE in progress -/
  op : Option Nat
  /-- the last sample left room before the stop had to begin; and the stop in progress -/
  near : Bool
  brake : Option Brake
  /-- a LIMITS has changed the move, and the move has passed its target since (R389) -/
  limited : Bool
  passed : Bool
  /-- the feedback origin in counts (R392) -/
  origin : Int
  /-- level of AXn_DIR: true while the last pulses went backward -/
  back : Bool
  /-- its feedback channel has become LOST or FROZEN since its last sample (R405) -/
  blind : Bool
  deriving DecidableEq, Repr

/-- One stepper channel: OFS of the coils A and B, and the on-phase shares of the last 256 chopper cycles in 2^-16, newest
first (R397, R398). -/
structure Stepper where
  ofsA : Int
  ofsB : Int
  shares : List Nat
  deriving DecidableEq, Repr

/-- The last two inputs and outputs of a biquad (R400). -/
structure Biquad where
  x1 : Int
  x2 : Int
  z1 : Int
  z2 : Int
  deriving DecidableEq, Repr

/-- A LOOPSET that awaits its sample (R241). -/
structure PendLoopset where
  at_ : Nat
  mode : Nat
  keep : Bool
  setpoint : Int
  late : Bool
  /-- the operation it completes; none once that has been cancelled (R264) -/
  op : Option Nat
  deriving DecidableEq, Repr

/-- One loop engine. Its r, y, u, i and mode stand in its registers. -/
structure Loop where
  bq1 : Biquad
  bq2 : Biquad
  /-- rs of the last sample -/
  rs : Int
  /-- the source channel's extended position when the loop last closed (R400) -/
  origin : Int
  /-- samples of the injection done, its phase in 2^-64 turn, and the PRBS15 register (R407) -/
  injected : Nat
  phase : Nat
  lfsr : Nat
  pending : List PendLoopset
  /-- the FRC of the last sample (R401) -/
  sampled : Option Nat
  deriving DecidableEq, Repr

/-- A capture in progress (R408). -/
structure Capture where
  op : Nat
  loop : Nat
  decim : Nat
  trig : Nat
  level : Int
  offset : Nat
  count : Nat
  pre : Nat
  /-- samples until the next record, records written, and the record and time of the trigger -/
  skip : Nat
  written : Nat
  trigger : Option (Nat × Nat)
  deriving DecidableEq, Repr

/-- One sensor slot: failed CRCs in a row, periods without an accepted word, and whether one has been accepted since CLR. -/
structure SensorSlot where
  failed : Nat
  periods : Nat
  accepted : Bool
  deriving DecidableEq, Repr

/-- Axes, loops, captures and sensor ports. -/
structure MotionState where
  axes : SMap Axis
  steppers : SMap Stepper
  /-- entries of the user tables that differ from the built-in one, by ((channel × 2) + table) × 256 + entry (R395) -/
  tables : SMap Nat
  loops : SMap Loop
  captures : SMap Capture
  /-- high clocks and period of each PWM in force (R406) -/
  pwm : SMap (Nat × Nat)
  slots : SMap SensorSlot
  /-- ports whose CLR awaits an accepted word on each slot (R411) -/
  clearing : List Nat
  deriving DecidableEq, Repr

/-- Motion at reset. -/
def MotionState.reset : MotionState :=
  { axes := [], steppers := [], tables := [], loops := [], captures := [], pwm := [], slots := [], clearing := [] }

end Sys2Proof.Machine
end

