-- ==== Sys2Proof/Machine/StatePower.lean ====
section
/-!
DEFINITION. State of the power controllers, the wake controller, the clocks, the thermal monitor, reset, boot and the
key slots beyond their registers (R413 to R443, R450 to R465).
-/

namespace Sys2Proof.Machine

/-- What drives FAULT_OUT until the next reset (R451). -/
inductive FaultDrive where
  | mismatch | clockLost | trip | bootFail
  deriving DecidableEq, Repr

/-- A reset in progress. -/
inductive ResetLine where
  | none | warm | powerOn
  deriving DecidableEq, Repr

/-- One thermal sensor beyond its register (R422, R428). -/
structure Sensor where
  /-- the FRC of the sample since which its reading has not changed, and its zone partner's extremes since then, the lower
  above the higher before the first sample -/
  since : Nat
  mateLow : Int
  mateHigh : Int
  /-- sample periods without a result -/
  missed : Nat
  /-- the FRC of the sample since which it has read at or above 125 °C -/
  hot : Option Nat
  deriving DecidableEq, Repr

/-- One thermal zone beyond its register (R421, R428): the FRC of the first sample of each dwell, by level. -/
structure Zone where
  above : SMap Nat
  below : SMap Nat
  /-- since when neither of its sensors has been usable -/
  blind : Option Nat
  deriving DecidableEq, Repr

/-- Power, clocks and temperature. -/
structure PowerState where
  /-- tripped: from TRIP until a reset releases it (R428) -/
  tripped : Bool
  /-- the reset that stands between its assertion and its release (R431, R432) -/
  line : ResetLine
  /-- the cause of a warm reset that waits for cooling or for a fuse operation (R433) -/
  heldReset : Option Nat
  faults : List FaultDrive
  /-- RSTOUT_N is driven low (R432) -/
  rstoutLow : Bool
  /-- the FRC at which deep sleep began (R417) -/
  deep : Option Nat
  /-- the crystal has given 1,024 cycles (R456) -/
  xtal : Bool
  /-- PLLs that have lost lock and not regained it (R419) -/
  pllDown : List Nat
  /-- domains with a queued wake: held under R19, past isolation in ENTERING (R415), or in deep sleep (R417) -/
  queued : List Nat
  /-- engine operations that wait for a held domain, in issue order, with the host memory their descriptors name (R19) -/
  deferred : List (Nat × HostReply)
  /-- PD_MAPS has lost its contents since it last woke (R83, R108) -/
  mapsGone : Bool
  /-- VDD_CORE as the internal monitor is presented it, in mV (R455) -/
  vdd : Nat
  sensors : SMap Sensor
  zones : SMap Zone
  /-- since when every zone has read below 122 °C, and below THROTTLE less 5 °C (R428, R420) -/
  cool : Option Nat
  quiet : Option Nat
  /-- zones made to skip at the next sample by a write of 0 to PRINT_FLOOR (R426) -/
  skipDue : List Nat
  /-- levels of the GPIO inputs last accepted, bit n for GPIOn (R465) -/
  gpio : Nat
  deriving DecidableEq, Repr

/-- Where the boot ROM's container comes from (R436, R438). -/
inductive BootStage where
  /-- the ROM has not started, or the container has booted -/
  | none
  | primary | alternate
  /-- waiting for a GO, and reading over PF0 -/
  | hostIdle | hostRead
  | partner
  deriving DecidableEq, Repr

/-- One key slot of the fuses (R439): the hash, as bytes; none where no hash is held. REVOKED and DBG stand in
SEC.KEYSTAT. -/
abbrev KeyHash := List Byte

/-- A fuse operation in progress: OP, slot, DBG, and the hash that FUSEDATA held when it began (R439). -/
structure FuseOp where
  revoke : Bool
  slot : Nat
  dbg : Bool
  hash : KeyHash
  deriving DecidableEq, Repr

/-- Reset, boot and security. -/
structure BootState where
  stage : BootStage
  /-- the container from which the unit booted, which it serves to its partner (R313) -/
  image : List Byte
  /-- image bytes received from the partner, by offset -/
  parts : SMap (List Byte)
  /-- BOOT_FAIL is due on PF0 once it has an event ring (R438) -/
  failDue : Bool
  /-- hashes by key slot -/
  hashes : SMap KeyHash
  fuse : Option FuseOp
  /-- a challenge has been loaded since the last submission (R441) -/
  challenged : Bool
  /-- failed responses since power-on reset (R441) -/
  fails : Nat
  /-- Reed cores whose image is being loaded, with the STATE each had before (R213) -/
  loading : SMap Nat
  /-- the container each Reed core was loaded from (R213, Table: effects of disabling and FLR) -/
  images : SMap (List Byte)
  /-- the last offset a management I2C transaction gave (R460) -/
  i2cOffset : Nat
  deriving DecidableEq, Repr

/-- Power, clocks and temperature at power-on. The monitor is presented 0.75 V until a command says otherwise. -/
def PowerState.reset : PowerState :=
  { tripped := false, line := .none, heldReset := none, faults := [], rstoutLow := true, deep := none, xtal := false,
    pllDown := [], queued := [], deferred := [], mapsGone := true, vdd := 750, sensors := [], zones := [], cool := none, quiet := none,
    skipDue := [], gpio := 0 }

/-- Reset, boot and security at power-on, with no key slot programmed. -/
def BootState.reset : BootState :=
  { stage := .none, image := [], parts := [], failDue := false, hashes := [], fuse := none, challenged := false,
    fails := 0, loading := [], images := [], i2cOffset := 0 }

end Sys2Proof.Machine
end

