-- ==== Sys2Proof/Machine/StateTime.lean ====
section
/-!
DEFINITION. State of the time unit, the timed outputs and captures, the markers, and the network ports beyond their
registers (R355 to R368).
-/

namespace Sys2Proof.Machine

/-- One pending TRIG of an output (R242). -/
structure PendTrig where
  time : Nat
  action : Nat
  width : Nat
  /-- the operation's key, to complete it -/
  op : Nat
  deriving DecidableEq, Repr

/-- A pulse in progress on an output: when it ends in working time, the operation it completes, and whether it began late (R242). -/
structure Pulse where
  ends : Nat
  op : Nat
  late : Bool
  deriving DecidableEq, Repr

/-- One mark of a marker, pending or high (R361). -/
structure Mark where
  /-- the trigger at which it rises, and the trigger of the point it ends WIDTH after -/
  trigger : Nat
  last : Nat
  /-- when it rises and falls in working time, in ns, once those triggers are measured -/
  rise : Option Nat
  fall : Option Nat
  /-- the operations MARK that complete with it -/
  ops : List Nat
  late : Bool
  deriving DecidableEq, Repr

/-- Time unit and network ports. -/
structure TimeState where
  /-- W minus the followed domain's time when the last switch was made, in 2^-32 ns, and the FRC of that instant (R358) -/
  corr : Int
  corrFrc : Nat
  /-- REFCLK_SYS is lost, so the FRC stands (R419) -/
  stopped : Bool
  trigs : SMap (List PendTrig)
  pulses : SMap (List Pulse)
  /-- of a PERIOD output: the multiple of PERIOD at which it last rose, and the working time up to which its multiples are
  done with (R359) -/
  rose : SMap (Option Nat × Nat)
  /-- stamps held by each input: the FRC and whether the edge rises (R360) -/
  stamps : SMap (List (Nat × Bool))
  /-- pending marks of each marker in trigger order, and the mark that is high -/
  marks : SMap (List Mark)
  markHigh : SMap Mark
  /-- sequence number of the press messages sent (R366) -/
  pmsSeq : Nat
  /-- the limits last sent to the press, per group, with their cause bits (R366) -/
  limits : SMap (Nat × Nat)
  /-- the lane request of each group (R367) -/
  laneReq : SMap Nat
  /-- the level of the SPDLIM output at the last period start (R367): low until the first period -/
  spdlimOn : Bool
  deriving DecidableEq, Repr

end Sys2Proof.Machine
end

