-- ==== Sys2Proof/Machine/StateTwin.lean ====
section
/-!
DEFINITION. State of twin operation beyond the TWN registers (R294 to R315).
-/

namespace Sys2Proof.Machine


/-- An operation of the standby that awaits the RESULT of the active, and the FRC at which it was issued (R303). -/
structure Match where
  key : TwinKey
  op : Nat
  since : Nat
  deriving DecidableEq, Repr

/-- Twin operation. -/
structure TwinState where
  /-- the epoch, kept in Moss (R283, R299) -/
  epoch : Nat
  /-- TSEQ of the last message sent, and the highest TSEQ applied in order (R296) -/
  sent : Nat
  applied : Nat
  /-- messages sent and not yet acknowledged, oldest first -/
  unacked : List (Nat × TwinBody)
  /-- the FRC at which each path last delivered, none before the first (R298) -/
  linkAt : Option Nat
  backupAt : Option Nat
  /-- both paths have been silent and the partner is declared lost (R298) -/
  lost : Bool
  partnerState : Nat
  /-- operations awaiting a RESULT, and results that came before their operation -/
  awaiting : List Match
  early : List (TwinKey × Word × Word)
  /-- ENTRY hashes of the unit's own entries and of the partner's, by queue and QSEQ (R309) -/
  entries : List (Nat × Nat × Nat × Nat)
  partnerEntries : List (Nat × Nat × Nat × Nat)
  /-- a standby's own measurements that await the active's, by group × 2^64 + n: Tm, the hitting FRC and the FRC at which they
  were made (R302) -/
  own : SMap (Nat × Nat × Nat)
  /-- triggers the standby stamped from its own measurement (R302) -/
  fallback : List Nat
  /-- the join step reached, 0 when no join is in progress (Table: joining a printing partner) -/
  joinStep : Nat
  /-- streams that have stopped at an affected row-line, by hub × 128 + slot (R139, R305) -/
  resyncs : List Nat
  /-- streams that have asked the partner for their SEQ: the trigger they named, and the frames built for them from it on -/
  rejoins : SMap (Nat × Nat)
  /-- a raise of the claim was refused and is retried (R300) -/
  raisePending : Bool
  deriving DecidableEq, Repr

/-- Twin operation after power-on: no epoch, nothing sent. -/
def TwinState.reset : TwinState :=
  { epoch := 0, sent := 0, applied := 0, unacked := [], linkAt := none, backupAt := none, lost := false,
    partnerState := 0, awaiting := [], early := [], entries := [], partnerEntries := [],
    own := [], fallback := [], joinStep := 0, resyncs := [], rejoins := [], raisePending := false }

end Sys2Proof.Machine
end

