-- ==== Sys2Proof/Machine/State.lean ====
section
/-!
DEFINITION. The state of the M9600, the reasons a step can stop, and the state after power-on reset.
-/

namespace Sys2Proof.Machine

/-- The whole state of the M9600. -/
structure State where
  /-- commands waiting, first in, first out -/
  pending : List Instr
  /-- every register of the register tables that differs from its reset value, by home offset -/
  regs : SMap Reg32
  /-- staged low halves and snapshots of pairs (R11), by requester and offset -/
  stage : SMap Reg32
  snaps : SMap Reg32
  /-- device memory: every byte that differs from 0, by device address -/
  mem : List Host.Cell
  /-- poisoned 64-byte ECC words, by address / 64 -/
  poison : List Nat
  /-- the free-running counter (R355) -/
  frc : Nat
  /-- how many free values have been taken (the model's own) -/
  fresh : Nat
  /-- what has been sent (the model's own record of the outside) -/
  outs : List Out
  host : HostState
  time : TimeState
  ledger : LedgerState
  intake : IntakeState
  twin : TwinState
  lode : LodeState
  print : PrintState
  dlk : DlkState
  feedback : FeedbackState
  mere : MereState
  memctl : MemState
  lane : LaneState
  motion : MotionState
  power : PowerState
  boot : BootState
  deriving DecidableEq, Repr

/-- Why a step stops with a fault. Every error the spec names is a flag, a fault code of a core or an event, and the machine
goes on. -/
inductive Fault where
  /-- raised by no command; safe -/
  | never
  deriving DecidableEq, Repr

/-- Why a command is refused. -/
inductive Refusal where
  /-- raised by exec for a command that has no meaning yet; safe -/
  | notModelled (mnemonic : String)
  deriving DecidableEq, Repr

/-- The cores, queues and functions at reset: nothing runs, nothing is outstanding. -/
def HostState.reset : HostState :=
  { cores := [], ops := [], serials := [], results := [], bloads := [], ordinals := [], tagWaiters := [], queues := [], fns := [], vectors := [],
    blocks := [], granted := [], heldWrites := [], heldEnds := [], stale := [], lastServed := [] }

/-- The time unit and ports at reset: W follows TD0 with no correction, and nothing is pending. -/
def TimeState.reset : TimeState :=
  { corr := 0, corrFrc := 0, stopped := false, trigs := [], pulses := [], rose := [], stamps := [], marks := [],
    markHigh := [], pmsSeq := 0, limits := [], laneReq := [], spdlimOn := false }

/-- The ledger at reset: no frame, no run, nothing in Moss. -/
def LedgerState.reset : LedgerState :=
  { frames := [], runs := [], lag := [], order := [], mossBases := none, mossHeld := false, faultRaised := [] }

/-- Band intake at reset: no head, no band, no job. -/
def IntakeState.reset : IntakeState :=
  { heads := [], bands := [], waiting := [], described := [], deflate := [], locking := false, inflations := [], leads := [], jobs := [] }

/-- The machine right after power-on reset. -/
def State.reset : State :=
  { pending := [], regs := [], stage := [], snaps := [], mem := [], poison := [], frc := 0, fresh := 0, outs := [],
    host := HostState.reset, time := TimeState.reset,
    ledger := LedgerState.reset, intake := IntakeState.reset,
    twin := TwinState.reset, lode := LodeState.reset,
    print := PrintState.reset, dlk := DlkState.reset,
    feedback := FeedbackState.reset, mere := MereState.reset,
    memctl := MemState.reset, lane := LaneState.reset, motion := MotionState.reset, power := PowerState.reset, boot := BootState.reset }

end Sys2Proof.Machine
end

