-- ==== Sys2Proof/Machine/Ops.lean ====
section
/-!
DEFINITION. The named operations over registers, device memory, what the M9600 sends, and free values. A block has no
exception entry: an error is a flag of a register and an event, both raised here.
-/

namespace Sys2Proof.Machine

/-! Free values. -/

/-- What a command answers. -/
abbrev Result := Host.Outcome State Fault Refusal

/-- Takes the next free value: nothing constrains it. -/
def free (s : State) : Nat × State := (Config.freeValue s.fresh, { s with fresh := s.fresh + 1 })

/-! What is sent. -/

/-- Records something sent. -/
def send (s : State) (o : Out) : State := { s with outs := s.outs ++ [o] }

/-! The register file (R7 to R9). -/

/-- The element of a register array that stands at an offset. -/
def RegDef.index (d : RegDef) (off : Nat) : Nat := (off - d.base) / d.stride

/-- Whether a register array has an element at an offset (R468). -/
def RegDef.covers (d : RegDef) (off : Nat) : Bool :=
  decide (d.base ≤ off) && (off - d.base) % d.stride == 0 && decide (d.index off < d.count)

/-- The register at a home offset, where the register tables name one (R466 to R469). -/
def findReg (off : Nat) : Option RegDef := (blockRegs off).find? (fun d => d.covers off)

/-- Resets that depend on the element or on the implementation, beside the number its table row holds. -/
def specialReset (off : Nat) (i : Nat) (n : Nat) : Nat :=
  if HMK.SPREAD.base ≤ off ∧ off < HMK.SPREAD.base + 256 then
    (upto 8).foldl (fun a d => a + 8 ^ d * Nat.max (i % 8) d) 0
  else if (LOP.BQ1.base ≤ off ∧ off < LOP.BQ1.base + 480) ∨ (LOP.BQ2.base ≤ off ∧ off < LOP.BQ2.base + 480) then
    (if i % 5 = 0 then 0x10000 else 0)
  else if TIM.TDCTL.base ≤ off ∧ off < TIM.TDCTL.base + 8 then n + 256 * i
  else if LAN.QCFG.base ≤ off ∧ off < LAN.QCFG.base + 48 then n + (if 10 ≤ i then 2 else 0)
  else if off = PWR.DOM.base + 40 then n + 65536
  else if off = GLB.ID.base then n + Config.vendorId.toNat
  else if off = GLB.UID.base then Config.uid.toNat % 2 ^ 32
  else if off = GLB.UID.base + 4 then Config.uid.toNat / 2 ^ 32
  else n

/-- The reset value of the register at an offset (the Reset columns of the register tables); 0 in unimplemented space. -/
def regDefault (off : Nat) : Reg32 :=
  match findReg off with
  | none => 0
  | some d => BitVec.ofNat 32
      (specialReset off (d.index off) (d.fields.foldl (fun a f => a + 2 ^ f.lo * f.reset) 0))

/-- The live value of the register at an offset, with no side effect. -/
def regRaw (s : State) (off : Nat) : Reg32 := (mfind s.regs off).getD (regDefault off)

/-- The register file with a register given a value; a value equal to the reset value is not listed. -/
def regsPut (m : SMap Reg32) (off : Nat) (v : Reg32) : SMap Reg32 :=
  if v = regDefault off then mdel m off else mput m off v

/-- Gives a register a value. -/
def regPut (s : State) (off : Nat) (v : Reg32) : State := { s with regs := regsPut s.regs off v }

/-- The offset of a field's register, element `i`. -/
def Fld.off (f : Fld) (i : Nat) : Nat := f.base + f.stride * i

/-- The value of a field, element `i`. -/
def getF (s : State) (f : Fld) (i : Nat := 0) : Nat := bits (regRaw s (f.off i)).toNat f.lo f.width

/-- Gives a field a value; a value too wide loses its high bits. -/
def setF (s : State) (f : Fld) (v : Nat) (i : Nat := 0) : State :=
  regPut s (f.off i) (BitVec.ofNat 32 (setBits (regRaw s (f.off i)).toNat f.lo f.width v))

/-- Whether a one-bit field is 1. -/
def flag (s : State) (f : Fld) (i : Nat := 0) : Bool := getF s f i == 1

/-- Whether bit `b` of a field is 1. -/
def flagBit (s : State) (f : Fld) (b : Nat) (i : Nat := 0) : Bool := bit (getF s f i) b

/-- Whether the outputs of a bank of balls are driven and its inputs reach their blocks; bank 0 always (R450). -/
def bankOn (s : State) (b : Nat) : Bool := b == 0 || flag s PIN.BANKCFG_EN b

/-- Sends something over the balls of a bank, which drives nothing while its EN is 0 (R450). -/
def sendPin (s : State) (b : Nat) (o : Out) : State := { s with outs := if bankOn s b then s.outs ++ [o] else s.outs }

/-- Sets one bit of a field. -/
def setFlagBit (s : State) (f : Fld) (b : Nat) (v : Bool) (i : Nat := 0) : State :=
  setF s f (setBits (getF s f i) b 1 (bnat v)) i

/-- The 64-bit value of a pair, element `i` (R11). -/
def getP (s : State) (p : Pair) (i : Nat := 0) : Nat :=
  (regRaw s (p.base + p.stride * i)).toNat + 2 ^ 32 * (regRaw s (p.base + p.stride * i + 4)).toNat

/-- Gives a pair a 64-bit value. -/
def setP (s : State) (p : Pair) (v : Nat) (i : Nat := 0) : State :=
  regPut (regPut s (p.base + p.stride * i) (BitVec.ofNat 32 v)) (p.base + p.stride * i + 4)
    (BitVec.ofNat 32 (v / 2 ^ 32))

/-- Increments a saturating 32-bit counter. -/
def incF (s : State) (f : Fld) (i : Nat := 0) : State := setF s f (satInc (getF s f i)) i

/-- Adds to a saturating 32-bit counter. -/
def addF (s : State) (f : Fld) (n : Nat) (i : Nat := 0) : State := setF s f (satAdd (getF s f i) n) i

/-- Returns a register to its reset value. -/
def regReset (s : State) (off : Nat) : State := { s with regs := mdel s.regs off }

/-- Returns every register from an offset up to another to its reset value. -/
def regResetRange (s : State) (lo hi : Nat) : State :=
  { s with regs := s.regs.filter (fun e => decide (e.1 < lo) || decide (hi ≤ e.1)) }

/-! Device memory (R197) and its ECC words (R326). -/

/-- The byte at a device address; a byte nothing has written reads 0. -/
def memByte (s : State) (a : Nat) : Byte := (mfind s.mem a).getD 0

/-- Device memory with one byte written; a byte of 0 is not listed. -/
def memPut (m : List Host.Cell) (a : Nat) (b : Byte) : List Host.Cell := if b = 0 then mdel m a else mput m a b

/-- Device memory with bytes written from an address up. -/
def memPuts (m : List Host.Cell) : Nat → List Byte → List Host.Cell
  | _, [] => m
  | a, b :: r => memPuts (memPut m a b) (a + 1) r

/-- Whether memory is in its one form: addresses strictly rising, no entry equal to 0. -/
def Memory.wf (m : List Host.Cell) : Bool := mrising 0 m && m.all (fun c => decide (c.2 ≠ 0))

/-- Whether the register file is in its one form: offsets strictly rising, no entry equal to its reset value. -/
def Regs.wf (m : SMap Reg32) : Bool := mrising 0 m && m.all (fun c => decide (c.2 ≠ regDefault c.1))

/-- `n` bytes from a device address. -/
def loadBytes (s : State) (a n : Nat) : List Byte := (upto n).map (fun i => memByte s (a + i))

/-- The little-endian number of `n` bytes at a device address. -/
def loadNat (s : State) (a n : Nat) : Nat := ofBytes (loadBytes s a n)

/-- Writes bytes to device memory. -/
def putBytes (s : State) (a : Nat) (bs : List Byte) : State := { s with mem := memPuts s.mem a bs }

/-- Whether any ECC word of a range is poisoned. -/
def poisoned (s : State) (a n : Nat) : Bool :=
  s.poison.any (fun w => decide (64 * w < a + n) && decide (a < 64 * w + 64) && decide (0 < n))

/-- Whether a range covers part of a poisoned ECC word but not all of it (R192). -/
def partlyPoisoned (s : State) (a n : Nat) : Bool :=
  s.poison.any (fun w => decide (64 * w < a + n) && decide (a < 64 * w + 64) &&
    !(decide (a ≤ 64 * w) && decide (64 * w + 64 ≤ a + n)))

/-- Clears the poison of every ECC word that a range covers whole (R192). -/
def clearPoison (s : State) (a n : Nat) : State :=
  { s with poison := s.poison.filter (fun w => !(decide (a ≤ 64 * w) && decide (64 * w + 64 ≤ a + n))) }

/-- Zeroes a range of device memory and clears its poison. -/
def zeroRange (s : State) (a n : Nat) : State :=
  clearPoison { s with mem := s.mem.filter (fun c => decide (c.1 < a) || decide (a + n ≤ c.1)) } a n

/-! Host memory and events (R260 to R263). -/

/-- The configuration space at its reset values: payloads of 128 bytes and read requests of 512. -/
def FnConfig.reset : FnConfig :=
  { payload := 0, readRequest := 2, tag10 := false, ecrcGenerate := false, ecrcCheck := false, timeoutRange := 0,
    timeoutOff := false, masked := false }

/-- A function at reset: in D0 with nothing held. -/
def Fn.fresh : Fn := { d3 := false, config := FnConfig.reset, held := [], lost := 0, releases := [], flrFrames := 0 }

/-- The part of a function beyond its registers. -/
def fnOf (s : State) (f : Nat) : Fn := mget s.host.fns f Fn.fresh

/-- Changes the part of a function beyond its registers. -/
def setFn (s : State) (f : Nat) (v : Fn) : State := { s with host := { s.host with fns := mput s.host.fns f v } }

/-- Whether a function is disabled: Bus Master Enable clear, PCI.FNCTL.EN 0, or D3hot (R263, R249). -/
def fnDisabled (s : State) (f : Nat) : Bool :=
  !(flag s PCI.FNCTL_BME f) || !(flag s PCI.FNCTL_EN f) || (fnOf s f).d3

/-- A posted write of a function, by the core that stores where one does; one of a disabled function waits (R201, R263). -/
def hostWriteBy (s : State) (core : Option Nat) (fn addr : Nat) (bs : List Byte) : State :=
  if fnDisabled s fn then { s with host := { s.host with heldWrites := s.host.heldWrites ++ [⟨core, fn, addr, bs⟩] } }
  else send s (.hostWrite fn addr bs)

/-- A posted write of an engine. -/
def hostWrite (s : State) (fn addr : Nat) (bs : List Byte) : State := hostWriteBy s none fn addr bs

/-- A vector's table entry; at reset it is masked with nothing pending. -/
def vectorOf (s : State) (f v : Nat) : Vector := mget s.host.vectors (256 * f + v) ⟨0, 0, true, false⟩

/-- Changes a vector's table entry. -/
def setVector (s : State) (f v : Nat) (e : Vector) : State :=
  { s with host := { s.host with vectors := mput s.host.vectors (256 * f + v) e } }

/-- Signals a vector: its message is sent, or its pending bit set while it or its function is masked (R262). -/
def signalVector (s : State) (f v : Nat) : State :=
  let e := vectorOf s f v
  if e.masked || (fnOf s f).config.masked then setVector s f v { e with pending := true } else send s (.msi f e.addr e.data)

/-- Event ring entries of a function: LOG below 6 acts as 6 and above 16 as 16. -/
def evSize (s : State) (f : Nat) : Nat := 2 ^ (Nat.min 16 (Nat.max 6 (getF s PCI.EVCFG_LOG f)))

/-- Whether a function's event ring is enabled and has room (R260). -/
def evRoom (s : State) (f : Nat) : Bool :=
  flag s PCI.EVCFG_EN f &&
    decide ((getF s PCI.EVHEAD f + 2 ^ 32 - getF s PCI.EVTAIL f) % 2 ^ 32 < evSize s f)

/-- The 16 bytes of an event entry (Table: event entry). -/
def eventBytes (e : Event) (phase : Nat) : List Byte :=
  toBytes 4 (e.code % 65536 + 65536 * phase) ++ toBytes 4 e.aux ++ toBytes 8 e.value

/-- Writes one entry to a function's event ring and signals its vector (R260, R262). -/
def putEvent (s : State) (f : Nat) (e : Event) : State :=
  let head := getF s PCI.EVHEAD f
  let size := evSize s f
  let phase := if head / size % 2 = 0 then 1 else 0
  let base := getP s PCI.EVBASE f / 4096 * 4096
  let s := hostWrite s f (base + 16 * (head % size)) (eventBytes e phase)
  signalVector (setF s PCI.EVHEAD (head + 1) f) f (getF s PCI.EVCFG_VEC f)

/-- Counts an event as lost (R261). -/
def loseEvent (s : State) (f : Nat) : State :=
  let s := incF s PCI.EVLOST f
  setFn s f { fnOf s f with lost := satInc (fnOf s f).lost }

/-- Writes the EVENT_LOST entry that is due, where the ring has room (R261). -/
def putLost (s : State) (f : Nat) : State :=
  if 0 < (fnOf s f).lost ∧ evRoom s f then
    let s' := putEvent s f ⟨6, (fnOf s f).lost, 0⟩
    setFn s' f { fnOf s' f with lost := 0 }
  else s

/-- Delivers an event to an enabled function's ring, or loses it: a program event is only counted (R261). -/
def deliverEvent (s : State) (f : Nat) (e : Event) : State :=
  let s := putLost s f
  if evRoom s f then putEvent s f e
  else if 0x8000 ≤ e.code then incF s PCI.EVLOST f
  else setF (loseEvent s f) PCI.ERR_EVLOST 1

/-- Raises a device event on a function (R260 to R263). -/
def raiseEvent (s : State) (f code aux value : Nat) : State :=
  let e : Event := ⟨code, aux, value⟩
  if fnDisabled s f then
    (if (fnOf s f).held.length < 256 then setFn s f { fnOf s f with held := (fnOf s f).held ++ [e] }
     else setF (loseEvent s f) PCI.ERR_EVLOST 1)
  else deliverEvent s f e

/-- Whether a disabled function's ring is enabled and has room beyond the events held for it. -/
def heldRoom (s : State) (f : Nat) : Bool :=
  flag s PCI.EVCFG_EN f && decide ((fnOf s f).held.length < 256) &&
    decide ((getF s PCI.EVHEAD f + 2 ^ 32 - getF s PCI.EVTAIL f) % 2 ^ 32 + (fnOf s f).held.length < evSize s f)

/-- Raises a program event (R245): the result is 0 when written, or held for a disabled function whose ring has room for it, and
1 when lost (R261, R263). -/
def raiseProgramEvent (s : State) (f code value : Nat) : Nat × State :=
  let e : Event := ⟨code, 0, value⟩
  let lose (s : State) : Nat × State := (1, incF s PCI.EVLOST f)
  if fnDisabled s f then
    (if heldRoom s f then (0, setFn s f { fnOf s f with held := (fnOf s f).held ++ [e] }) else lose s)
  else
    let s := putLost s f
    if evRoom s f then (0, putEvent s f e) else lose s

/-! The free-running counter and working time are in Time.lean; the cores are in Cores.lean. -/

end Sys2Proof.Machine
end

