-- ==== Sys2Proof/Machine/Channels.lean ====
section
/-!
DEFINITION. The channels of SDRAM: interleave sets, the address decode, activates and the neighbour refreshes they draw
(R317 to R319, R325); and an engine's write to device memory.
-/

namespace Sys2Proof.Machine

/-- Size of a rank in GiB (MEM.CHCFG.DENS): 16, 24 or 32 GiB (R317). -/
def rankGib (s : State) (m : Nat) : Nat := nth [16, 24, 32] (getF s MEM.CHCFG_DENS m)

/-- Usable capacity of a channel in GiB (R317). -/
def channelGib (s : State) (m : Nat) : Nat :=
  if flag s MEM.CHCFG_EN m then (getF s MEM.CHCFG_RANKS m + 1 - getF s MEM.CHCFG_SPARE m) * rankGib s m else 0

/-- The channels of an interleave set. -/
def setChannels (s : State) (k : Nat) : List Nat := (upto 4).filter (fun m => flagBit s MEM.SET_CHMASK m k)

/-- Capacity of a set in GiB. -/
def setGib (s : State) (k : Nat) : Nat := ((setChannels s k).map (channelGib s)).foldl (· + ·) 0

/-- First device address of a set, in GiB (R318). -/
def setBase (s : State) (k : Nat) : Nat := ((upto k).map (setGib s)).foldl (· + ·) 0

/-- The channel and the channel-local address of a device address; none beyond the sets (R318). -/
def channelAddr (s : State) (d : Nat) : Option (Nat × Nat) :=
  ((upto 4).find? (fun k => decide (setBase s k * 2 ^ 30 ≤ d) && decide (d < (setBase s k + setGib s k) * 2 ^ 30))).bind (fun k =>
    let cs := setChannels s k
    let o := d - setBase s k * 2 ^ 30
    cs[o / 4096 % cs.length]?.map (fun m => (m, o / 4096 / cs.length * 4096 + o % 4096)))

/-- The physical rank of a logical rank (R320). -/
def physRank (s : State) (m l : Nat) : Nat := mget s.memctl.ranks (4 * m + l) 0

/-- Status of a physical rank: 0 IN_SERVICE, 1 SPARE, 2 MIGRATING, 3 RETIRED. -/
def rankStat (s : State) (m i : Nat) : Nat := bits (regRaw s (MEM.RANKSTAT.off m)).toNat (2 * i) 2

/-- The spare of a channel that serves no logical rank. -/
def spareOf (s : State) (m : Nat) : Option Nat := (upto 4).find? (fun i => rankStat s m i == 1)

/-- Whether a rank of a channel is being migrated. -/
def migrating (s : State) (m : Nat) : Bool := (upto 4).any (fun i => rankStat s m i == 2)

/-- The physical rank that an access to a channel-local address goes to: the spare below MEM.MIGPTR of a rank that is being
migrated (R330). -/
def rankAt (s : State) (m a : Nat) : Nat :=
  let r := rankGib s m * 2 ^ 30
  if migrating s m ∧ a / r = getF s MEM.RANKSTAT_LOG m ∧ a % r < 4096 * getF s MEM.MIGPTR m then (spareOf s m).getD 0
  else physRank s m (a / r)

/-- The bank a channel-local address lies in: channel, physical rank, subchannel, bank group and bank, as one number (R319). -/
def bankAt (s : State) (m a : Nat) : Nat :=
  let r := rankGib s m * 2 ^ 30
  64 * (4 * m + rankAt s m a) + 32 * (a % r / 64 % 2) + 4 * (a % r / 512 % 8) + a % r / 4096 % 4

/-- The row of its bank that a channel-local address lies in (R319). -/
def rowAt (s : State) (m a : Nat) : Nat := a % (rankGib s m * 2 ^ 30) / 2 ^ 18

/-- The rows of a bank: R / 256 KiB. -/
def bankRows (s : State) (m : Nat) : Nat := rankGib s m * 2 ^ 12

/-- k of R325: MEM.REFCFG.NRK, from 6 to 16. -/
def neighbourExp (s : State) : Nat := Nat.min 16 (Nat.max 6 (getF s MEM.REFCFG_NRK))

/-- The state of a channel's generator; the first draw since power-on finds it seeded from the FRC. -/
def neighbourGenerator (s : State) (m : Nat) : BitVec 32 :=
  match mfind s.memctl.draws m with
  | some g => g
  | none => Config.neighbourSeed s.frc m

/-- The rows a neighbour refresh of row r goes through: those of r − 2, r − 1, r + 1 and r + 2 inside the bank. -/
def neighbours (r rows : Nat) : List Nat :=
  ((if 2 ≤ r then [r - 2] else []) ++ (if 1 ≤ r then [r - 1] else []) ++ [r + 1, r + 2]).filter (fun n => decide (n < rows))

/-- A row is activated, and a neighbour refresh of it drawn with probability 2^−k (R325); it leaves the bank precharged. -/
def activate (s : State) (m bank row : Nat) : State :=
  let g := Config.neighbourNext (neighbourGenerator s m)
  let c := { s.memctl with draws := mput s.memctl.draws m g }
  if g.toNat % 2 ^ neighbourExp s = 0 then
    { s with memctl := { c with
      openRows := mdel c.openRows bank
      rowsRefreshed := (neighbours row (bankRows s m)).foldl (fun t n => mput t (2 ^ 17 * bank + n) s.frc) c.rowsRefreshed } }
  else { s with memctl := { c with openRows := mput c.openRows bank row } }

/-- A burst of a channel is accessed: its row is activated where its bank does not have it open. -/
def accessBurst (s : State) (m a : Nat) : State :=
  let bank := bankAt s m a
  if mfind s.memctl.openRows bank = some (rowAt s m a) then s else activate s m bank (rowAt s m a)

/-- The bursts of a range of SDRAM are accessed in ascending order. A request ends self-refresh (R337). -/
def accessRange (s : State) (a n : Nat) : State :=
  let s := { s with memctl := { s.memctl with lastAccess := s.frc } }
  let s := if flag s MEM.STAT_SELFREF then setF s MEM.STAT_SELFREF 0 else s
  forEach (upto ((a % 64 + n + 63) / 64)) s (fun s i =>
    match channelAddr s (a / 64 * 64 + 64 * i) with
    | some (m, l) => accessBurst s m l
    | none => s)

/-- Every bank is precharged, at self-refresh, a frequency change or training (R333, R336). -/
def prechargeAll (s : State) : State := { s with memctl := { s.memctl with openRows := [] } }

/-- An engine's write to device memory: whole ECC words lose their poison, and what falls in part of a poisoned one is discarded
(R327). -/
def engineWrite (s : State) (a : Nat) (bs : List Byte) : State :=
  let s := clearPoison (accessRange s a bs.length) a bs.length
  if poisoned s a bs.length then
    forEach (bs.zip (upto bs.length)) s (fun s e => if s.poison.contains ((a + e.2) / 64) then s else putBytes s (a + e.2) [e.1])
  else putBytes s a bs

end Sys2Proof.Machine
end

