-- ==== Sys2Proof/Machine/Clocks.lean ====
section
/-!
DEFINITION. The PLLs (R18, R418, R419): which run, which blocks stand without theirs, and the one place where a command
ends, which leaves CRS.PLLSTAT showing the PLLs that run.
-/

namespace Sys2Proof.Machine

/-! The PLLs of Table: PLLs as CRS.CLKERR numbers them; the lanes have their own. -/

def pllControl : Nat := 0
def pllPipeline : Nat := 1
def pllTime : Nat := 2
def pllMotion : Nat := 3
def pllMemory : Nat := 4
def pllPcie : Nat := 5
def pllLanes : Nat := 6

def setPower (s : State) (p : PowerState) : State := { s with power := p }

/-- STATE of a domain: 0 OFF, 1 WAKING, 2 ON, 3 GATED, 4 ENTERING, 5 RETAIN. -/
def domState (s : State) (d : Nat) : Nat := getF s PWR.DSTAT_STATE d
def setDom (s : State) (d v : Nat) : State := setF s PWR.DSTAT_STATE v d

/-- Whether a domain is ON or GATED: its clock is supplied. -/
def domSupplied (s : State) (d : Nat) : Bool := domState s d == 2 || domState s d == 3

/-- Whether GLB.PROFILE.STATE reads CONFIRMED (R18). -/
def confirmed (s : State) : Bool := getF s GLB.PROFILE_STATE == 1

/-- Whether a PLL's condition to run holds (Table: PLLs, R418). The time PLL runs whenever the unit is not in deep sleep;
at reset the counter has not counted yet and its PLL shows no lock. -/
def pllWanted (s : State) (k : Nat) : Bool :=
  match k with
  | 0 => domSupplied s 1
  | 1 => confirmed s && [7, 8, 9, 10, 11].any (domSupplied s)
  | 2 => s.power.deep.isNone && s.frc != 0
  | 3 => domSupplied s 12
  | 4 => domSupplied s 3
  | _ => domSupplied s 2

/-- Whether a PLL runs locked: it is wanted, has not lost lock, and TRIP has not stopped the unit (R418, R419, R428). -/
def pllRuns (s : State) (k : Nat) : Bool := pllWanted s k && !s.power.pllDown.contains k && !s.power.tripped

/-- The value of CRS.PLLSTAT.LOCK: bit `k` is 1 while PLL `k` runs. -/
def pllLock (s : State) : Nat :=
  bnat (pllRuns s 0) + 2 * bnat (pllRuns s 1) + 4 * bnat (pllRuns s 2) + 8 * bnat (pllRuns s 3) +
    16 * bnat (pllRuns s 4) + 32 * bnat (pllRuns s 5)

/-- The end of every command: CRS.PLLSTAT shows the PLLs that run. -/
def showPlls (s : State) : State := setF s CRS.PLLSTAT_LOCK (pllLock s)

/-- Whether the blocks clocked by a PLL stand: tripped, in a reset, or with the PLL out of lock (R419, R428, R432). -/
def stands (s : State) (pll : Nat) : Bool := s.power.tripped || s.power.line != .none || s.power.pllDown.contains pll

/-- What a command does to a block on a PLL: nothing while the block stands. -/
def whenUp (pll : Nat) (s t : State) : State := if stands s pll then s else showPlls t

end Sys2Proof.Machine
end

