-- ==== Sys2Proof/Machine/Geometry.lean ====
section
/-!
DEFINITION. The print geometry: groups, channels, rows and heads as the registers and the head table hold them, their
validation and what it yields (R20 to R42).
-/

namespace Sys2Proof.Machine

/-- Positions of a row (R21). -/
def rowWidth : Nat := 53248

/-- Whether the strap selects the throughput profile (R18). -/
def throughput (s : State) : Bool := flag s GLB.PROFILE_STRAP

/-- Whether GLB.PROFILE.STATE reads MISMATCH (R19). -/
def mismatched (s : State) : Bool := getF s GLB.PROFILE_STATE == 2

/-- Hubs the profile has: 32, or 40 in the throughput profile. -/
def hubLimit (s : State) : Nat := if throughput s then 40 else 32

/-- The profile's line-rate cap (R15). -/
def profileCap (s : State) : Nat := if throughput s then 480000 else 360000

/-- Whether a print group takes part in printing (R37). -/
def groupOn (s : State) (g : Nat) : Bool := flag s LDE.PGCFG_ENABLE g

/-- The channels CHMASK gives a group. -/
def groupChannels (s : State) (g : Nat) : List Nat := (upto 8).filter (fun c => flagBit s LDE.PGCFG_CHMASK c g)

/-- The enabled groups that name a channel. -/
def groupsOf (s : State) (c : Nat) : List Nat :=
  (upto 4).filter (fun g => groupOn s g && flagBit s LDE.PGCFG_CHMASK c g)

/-- The print group of a channel, where an enabled group names it. -/
def groupOf (s : State) (c : Nat) : Option Nat := (groupsOf s c).head?

/-- A group's addressability along the web (R27). -/
def lpiOf (s : State) (g : Nat) : Nat := 600 * 2 ^ getF s LDE.PGCFG_LPI g

/-- A channel's contone resolution in a group (R28). -/
def cdpiIn (s : State) (g c : Nat) : Nat := if flagBit s LDE.PGCFG_CDPI c g then 1200 else 600

/-- Contone positions across one contone pixel (R28). -/
def hIn (s : State) (g c : Nat) : Nat := 1200 / cdpiIn s g c

/-- Contone lines along one contone pixel (R28). -/
def vIn (s : State) (g c : Nat) : Nat := lpiOf s g / cdpiIn s g c

/-- First position of a channel's span. -/
def spanFirst (s : State) (c : Nat) : Nat := getF s LDE.CHSPAN_FIRST c

/-- Positions of a channel's span. -/
def spanCount (s : State) (c : Nat) : Nat := getF s LDE.CHSPAN_COUNT c

/-! Heads (R24, R116). -/

def Head.valid (h : Head) : Bool := bit h.w0.toNat 31
def Head.first (h : Head) : Nat := bits h.w0.toNat 0 16
def Head.row (h : Head) : Nat := bits h.w0.toNat 16 7
def Head.len (h : Head) : Nat := bits h.w1.toNat 0 14
def Head.dgroup (h : Head) : Nat := bits h.w1.toNat 16 10
def Head.hub (h : Head) : Nat := bits h.w2.toNat 0 6
def Head.slot (h : Head) : Nat := bits h.w2.toNat 8 7
/-- TDLY in 0.1 ns (R116). -/
def Head.tdly (h : Head) : Int := signed (bits h.w3.toNat 0 16) 16
/-- SDLY in 1/256 line (R116). -/
def Head.sdly (h : Head) : Int := signed (bits h.w3.toNat 16 8) 8
/-- The position after the head's last. -/
def Head.stop (h : Head) : Nat := h.first + h.len
/-- Whether the head covers a position. -/
def Head.covers (h : Head) (p : Nat) : Bool := decide (h.first ≤ p) && decide (p < h.stop)

/-- An entry of the head table; an unlisted entry holds 0 in every word (R476). -/
def headAt (s : State) (i : Nat) : Head := mget s.intake.heads i ⟨0, 0, 0, 0⟩

/-- The valid heads in ascending index. -/
def heads (s : State) : List (Nat × Head) := s.intake.heads.filter (fun e => e.2.valid)

/-- The valid heads of a row. -/
def rowHeads (s : State) (r : Nat) : List (Nat × Head) := (heads s).filter (fun e => e.2.row == r)

/-- Whether a row exists. -/
def rowOn (s : State) (r : Nat) : Bool := flag s LDE.ROWCFG_ENABLE r

/-- The channel of a row. -/
def rowChannel (s : State) (r : Nat) : Nat := getF s LDE.ROWCFG_CH r

/-- The partner of a row of a pair. -/
def rowPartner (s : State) (r : Nat) : Option Nat := if flag s LDE.ROWCFG_PEN r then some (getF s LDE.ROWCFG_PARTNER r) else none

/-- The enabled rows of a channel. -/
def channelRows (s : State) (c : Nat) : List Nat := (upto 128).filter (fun r => rowOn s r && rowChannel s r == c)

/-- The lower-numbered row of a row's pair, which names the pair. -/
def pairOf (s : State) (r : Nat) : Nat := match rowPartner s r with | some q => Nat.min r q | none => r

/-! The row schedule (R30 to R33). -/

/-- M, the lines of a channel's cycle. -/
def cycleLines (s : State) (c : Nat) : Nat := getF s HMK.SCHCFG_MLINES c + 1

/-- S, the strikes of each line. -/
def strikesOf (s : State) (c : Nat) : Nat := getF s HMK.SCHCFG_STRIKES c + 1

/-- The row, cycle line and strike of slot `j`. -/
def slotAt (s : State) (c j : Nat) : Nat × Nat × Nat :=
  let i := 32 * c + j
  (getF s HMK.SCHSLOT_ROW i, getF s HMK.SCHSLOT_LINE i, getF s HMK.SCHSLOT_STRIKE i)

/-- The slots of a channel's schedule. -/
def slotsOf (s : State) (c : Nat) : List (Nat × Nat × Nat) :=
  (upto (cycleLines s c * strikesOf s c)).map (fun j => slotAt s c j)

/-- Smallest cyclic distance between two different cycle lines of a list; `m` where there is one line (R33). -/
def minDistance (m : Nat) (ls : List Nat) : Nat :=
  ls.foldl (fun a x => ls.foldl (fun b y => if x = y then b else Nat.min b ((y + m - x) % m)) a) m

/-- The smallest distance of a row pair (R33). -/
def pairDistance (s : State) (c p : Nat) : Nat :=
  minDistance (cycleLines s c) (((slotsOf s c).filter (fun t => pairOf s t.1 == p)).map (fun t => t.2.1))

/-- The smallest cyclic distance between the lines one row serves, as R126 takes d_r. -/
def rowDistance (s : State) (c r : Nat) : Nat := pairDistance s c (pairOf s r)

/-- A channel's schedule cap in lines/s (R33). -/
def scheduleCap (s : State) (c : Nat) : Nat :=
  160000 * ((slotsOf s c).map (fun t => pairDistance s c (pairOf s t.1))).foldl Nat.min (cycleLines s c)

/-- A group's line-rate cap (R33). -/
def groupCap (s : State) (g : Nat) : Nat :=
  ((groupChannels s g).map (scheduleCap s)).foldl Nat.min (profileCap s)

/-! The Lodes (R37). -/

/-- Whether a frame of a group is ARMED or FIRING. -/
def groupPrinting (s : State) (g : Nat) : Bool :=
  s.ledger.frames.any (fun e => e.2.group == g && !e.2.released && (e.2.state == 3 || e.2.state == 4))

/-- Whether the Lode of a channel runs: a frame of a group that names the channel is ARMED or FIRING (R37). -/
def lodeRuns (s : State) (c : Nat) : Bool :=
  (upto 4).any (fun g => flagBit s LDE.PGCFG_CHMASK c g && groupPrinting s g)

/-! Validation (R39, R40, R477). -/

/-- The channels of enabled groups, ascending. -/
def printChannels (s : State) : List Nat := (upto 8).filter (fun c => !(groupsOf s c).isEmpty)

/-- Check 1: an enabled group with no channel, or with a channel of a lower enabled group. -/
def geoGroups (s : State) : Option Nat :=
  (upto 4).find? (fun g => groupOn s g && ((groupChannels s g).isEmpty ||
    (groupChannels s g).any (fun c => (groupsOf s c).any (fun g' => decide (g' < g)))))

/-- Check 2: a reserved LPI, by group, or a CDPI above the LPI, by channel; the lower index where there are both (R477). -/
def geoRes (s : State) : Option Nat :=
  let reserved := (upto 4).find? (fun g => groupOn s g && getF s LDE.PGCFG_LPI g == 3)
  let above := (printChannels s).find? (fun c => (groupsOf s c).any (fun g => decide (lpiOf s g < cdpiIn s g c)))
  match reserved, above with
  | some g, some c => some (Nat.min g c)
  | none, c => c
  | g, none => g

/-- Check 3: a span outside its ranges. -/
def geoSpan (s : State) : Option Nat :=
  (printChannels s).find? (fun c =>
    let n := spanCount s c
    let unit := if (groupsOf s c).any (fun g => cdpiIn s g c == 600) then 32 else 16
    !(decide (16 ≤ n) && decide (n ≤ rowWidth) && n % unit == 0 && decide (spanFirst s c + n ≤ rowWidth)))

/-- Check 4: a channel with 0 or more than 32 enabled rows. -/
def geoRowCount (s : State) : Option Nat :=
  (printChannels s).find? (fun c => (channelRows s c).isEmpty || decide (32 < (channelRows s c).length))

/-- The rows R39 checks. -/
def pairRows (s : State) : List Nat :=
  (upto 128).filter (fun r => rowOn s r && (rowPartner s r).isSome && !(groupsOf s (rowChannel s r)).isEmpty)

/-- Check 5: a row whose pair breaks R39. -/
def geoPartner (s : State) : Option Nat :=
  (pairRows s).find? (fun r => match rowPartner s r with
    | none => false
    | some q => !(rowOn s q && rowChannel s q == rowChannel s r && rowPartner s q == some r && q != r))

/-- Check 6: a head out of range, in a disabled row or overlapping a lower-numbered head of its row. -/
def geoHead (s : State) : Option Nat :=
  ((heads s).find? (fun e =>
    decide (e.2.len < 256) || decide (8192 < e.2.len) || decide (rowWidth < e.2.stop) || !rowOn s e.2.row ||
    (rowHeads s e.2.row).any (fun f => decide (f.1 < e.1) && decide (f.2.first < e.2.stop) &&
      decide (e.2.first < f.2.stop)))).map (fun e => e.1)

/-- Check 7: a schedule that breaks R30. -/
def geoSched (s : State) : Option Nat :=
  (printChannels s).find? (fun c =>
    let m := cycleLines s c
    let k := strikesOf s c
    let l := slotsOf s c
    decide (32 < m * k) ||
    (upto m).any (fun x => (upto k).any (fun y => (l.filter (fun t => t.2.1 == x && t.2.2 == y)).length != 1)) ||
    l.any (fun t => !(rowOn s t.1 && rowChannel s t.1 == c)) ||
    (upto m).any (fun x =>
      let ps := (l.filter (fun t => t.2.1 == x)).map (fun t => pairOf s t.1)
      ps.eraseDups.length != ps.length))

/-- Whether heads cover every position from `a` to before `b`; `n` bounds the walk from head to head. -/
def coveredFrom (hs : List (Nat × Head)) : Nat → Nat → Nat → Bool
  | 0, a, b => decide (b ≤ a)
  | n + 1, a, b =>
    if b ≤ a then true
    else match hs.find? (fun e => e.2.covers a) with
      | none => false
      | some e => coveredFrom hs n e.2.stop b

/-- The heads of a row and of its partner. -/
def pairHeads (s : State) (r : Nat) : List (Nat × Head) :=
  (heads s).filter (fun e => e.2.row == r || rowPartner s r == some e.2.row)

/-- Check 8: a span position that neither a scheduled row nor its partner covers. -/
def geoCover (s : State) : Option Nat :=
  (printChannels s).find? (fun c => (slotsOf s c).any (fun t =>
    !coveredFrom (pairHeads s t.1) ((pairHeads s t.1).length + 1) (spanFirst s c) (spanFirst s c + spanCount s c)))

/-- Whether the first head comes in at a seam with the second (R95). -/
def incoming (e f : Nat × Head) : Bool :=
  decide (f.2.first < e.2.first) || (e.2.first == f.2.first && decide (f.1 < e.1))

/-- Check 9: a seam of a row pair whose overlap width, as R95 counts it, is above 512, by its incoming head (R39). -/
def geoOverlap (s : State) : Option Nat :=
  ((heads s).find? (fun e => (pairRows s).contains e.2.row &&
    (heads s).any (fun f => rowPartner s e.2.row == some f.2.row && incoming e f &&
      decide (e.2.first < f.2.stop) && decide (512 < f.2.stop - e.2.first)))).map (fun e => e.1)

/-- Check 10: a hub beyond the profile's limit, with more than 128 heads, or with a slot named twice. -/
def geoHub (s : State) : Option Nat :=
  ((heads s).find? (fun e =>
    let same := (heads s).filter (fun f => f.2.hub == e.2.hub && decide (f.1 < e.1))
    decide (hubLimit s ≤ e.2.hub) || same.length == 128 || same.any (fun f => f.2.slot == e.2.slot))).map (fun e => e.1)

/-- Check 11: a head of a drive group on another hub than the group's lowest-numbered head. -/
def geoDgroup (s : State) : Option Nat :=
  ((heads s).find? (fun e => match (heads s).find? (fun f => f.2.dgroup == e.2.dgroup) with
    | none => false
    | some f => f.2.hub != e.2.hub)).map (fun e => e.1)

/-- The first failure of validation, CODE and INDEX; CODE 0 where there is none (R40). -/
def geoCheck (s : State) : Nat × Nat :=
  let checks := [geoGroups s, geoRes s, geoSpan s, geoRowCount s, geoPartner s, geoHead s, geoSched s, geoCover s,
    geoOverlap s, geoHub s, geoDgroup s]
  match (checks.zip (fromTo 1 11)).find? (fun p => p.1.isSome) with
  | some (some i, code) => (code, i)
  | _ => (0, 0)

/-- The home offsets of the geometry registers, ascending (R42). -/
def geoOffsets : List Nat :=
  (upto 8).map (HMK.SCHCFG.off ·) ++ (upto 256).map (HMK.SCHSLOT.off ·) ++ (upto 4).map (LDE.PGCFG.off ·) ++
  (upto 8).map (LDE.CHSPAN.off ·) ++ (upto 128).map (LDE.ROWCFG.off ·) ++ (upto 128).map (LDE.ROWDLY.off ·)

/-- Whether a home offset holds a geometry register (R40). -/
def isGeoOffset (off : Nat) : Bool :=
  (decide (HMK.SCHCFG.base ≤ off) && decide (off < HMK.SCHSLOT.base + 1024)) ||
  (decide (LDE.PGCFG.base ≤ off) && decide (off < LDE.RATECAP.base))

/-- GEOHASH over the geometry fields (R42). -/
def geoHash (s : State) : Nat :=
  crc32c ((geoOffsets.flatMap (fun o => toBytes 4 (regRaw s o).toNat)) ++
    (heads s).flatMap (fun e => toBytes 4 e.1 ++ toBytes 4 e.2.w0.toNat ++ toBytes 4 e.2.w1.toNat ++
      toBytes 4 e.2.w2.toNat ++ toBytes 4 e.2.w3.toNat))

/-- STATE becomes UNCHECKED, which abandons a validation in progress (R40). -/
def geoAbandon (s : State) : State := setF s LDE.GEOSTAT_STATE 0

/-- C_d of every drive group with a valid head: the channels in which it has one (R125). -/
def groupShares (s : State) : SMap Nat :=
  ((heads s).map (fun e => e.2.dgroup)).foldl (fun m d =>
    mput m d ((upto 8).filter (fun c => (heads s).any (fun e => e.2.dgroup == d && rowChannel s e.2.row == c))).length) []

/-- A validation ends: STATE, CODE, INDEX and, on VALID, RATECAP and GEOHASH (R40, R42). -/
def geoFinish (s : State) : State :=
  let r := geoCheck s
  if r.1 = 0 then
    let s := setF (setF (setF s LDE.GEOSTAT_STATE 2) LDE.GEOSTAT_CODE 0) LDE.GEOSTAT_INDEX 0
    let s := forEach ((upto 4).filter (groupOn s)) s (fun s g => setF s LDE.RATECAP_RATE (groupCap s g) g)
    let s := { s with lode := { s.lode with shares := groupShares s } }
    setF s LDE.GEOHASH (geoHash s)
  else setF (setF (setF s LDE.GEOSTAT_STATE 3) LDE.GEOSTAT_CODE r.1) LDE.GEOSTAT_INDEX r.2

/-- The fields an entry keeps of four words (R24, R116). -/
def Head.mask (h : Head) : Head :=
  ⟨h.w0 &&& 0x807FFFFF, h.w1 &&& 0x03FF3FFF, h.w2 &&& 0x00007F3F, h.w3 &&& 0x00FFFFFF⟩

/-- The entry HTDATA holds. -/
def htData (s : State) : Head :=
  (⟨regRaw s (LDE.HTDATA.off 0), regRaw s (LDE.HTDATA.off 1), regRaw s (LDE.HTDATA.off 2),
    regRaw s (LDE.HTDATA.off 3)⟩ : Head).mask

/-- Loads an entry into HTDATA (R25). -/
def htLoad (s : State) (i : Nat) : State :=
  let h := headAt s i
  regPut (regPut (regPut (regPut s (LDE.HTDATA.off 0) h.w0) (LDE.HTDATA.off 1) h.w1) (LDE.HTDATA.off 2) h.w2)
    (LDE.HTDATA.off 3) h.w3

/-- Stores an entry; an entry of zeros is not listed. -/
def htStore (s : State) (i : Nat) (h : Head) : State :=
  { s with intake := { s.intake with heads := if h = ⟨0, 0, 0, 0⟩ then mdel s.intake.heads i else mput s.intake.heads i h } }

end Sys2Proof.Machine
end

