-- ==== Sys2Proof/Machine/Bands.lean ====
section
/-!
DEFINITION. The band table: its entries, their references and their release (R47, R52 to R54, R261).
-/

namespace Sys2Proof.Machine

/-- A band-table entry. -/
def bandOf (s : State) (h : Nat) : Option Band := mfind s.intake.bands h

/-- Changes a band-table entry. -/
def setBand (s : State) (h : Nat) (b : Band) : State :=
  { s with intake := { s.intake with bands := mput s.intake.bands h b } }

/-- Frees a band-table entry. -/
def dropBand (s : State) (h : Nat) : State :=
  { s with
    intake := { s.intake with bands := mdel s.intake.bands h }
    host := { s.host with bloads := s.host.bloads.map (fun e => (e.1, { e.2 with held := e.2.held && e.2.handle != h })) } }

/-- Frees the entry of a band whose source reads are still outstanding: they keep their pool entries (R264). -/
def abandonBand (s : State) (h : Nat) : State :=
  match bandOf s h with
  | none => s
  | some b =>
    let away := b.outstanding.map (fun r => ReadOwner.band h r.1)
    dropBand { s with host := { s.host with stale := s.host.stale ++ away } } h

/-- Whether Mire is locked (R50). -/
def mireLocked (s : State) : Bool := getF s SLC.MIRECTL_STATE == 1

/-- First device address of a Mire region (R49). -/
def regionBase (s : State) (k : Nat) : Nat := getF s SLC.MIREBASE_BASE k * 2 ^ 21

/-- Bytes of a Mire region (R49). -/
def regionSize (s : State) (k : Nat) : Nat := getF s SLC.MIRESIZE_SIZE k * 2 ^ 21

/-- The Mire region that holds a device address, while Mire is locked. -/
def regionOf (s : State) (a : Nat) : Option Nat :=
  if mireLocked s then
    (upto 9).find? (fun k => decide (regionBase s k ≤ a) && decide (a < regionBase s k + regionSize s k))
  else none

/-- The 64 KiB blocks of the BAND region (R52). -/
def poolBlocks (s : State) : Nat := if mireLocked s then regionSize s 0 / 65536 else 0

/-- The blocks in use: by bands, by their refetches and by Sluice jobs. -/
def usedBlocks (s : State) : List Nat :=
  s.intake.bands.flatMap (fun e => e.2.blocks ++ (match e.2.refetch with | some r => r.blocks | none => [])) ++
  s.intake.jobs.flatMap (fun j => j.blocks)

/-- The free blocks of the BAND region, ascending. -/
def freeBlocks (s : State) : List Nat := (upto (poolBlocks s)).filter (fun b => !(usedBlocks s).contains b)

/-- Free blocks: the pool less those in use (SLC.POOL.FREE). -/
def freeBlockCount (s : State) : Nat := poolBlocks s - (usedBlocks s).length

/-- The first `n` free blocks; a block is tried no more often than there are blocks in use and wanted. -/
def takeBlocks (s : State) (n : Nat) : List Nat :=
  ((upto (Nat.min (poolBlocks s) ((usedBlocks s).length + n))).filter (fun b => !(usedBlocks s).contains b)).take n

/-- Device address of a byte of a list of blocks. -/
def blockByte (s : State) (blocks : List Nat) (i : Nat) : Nat :=
  regionBase s 0 + 65536 * nth blocks (i / 65536) + i % 65536

/-- Reads bytes through a list of blocks. -/
def blockLoad (s : State) (blocks : List Nat) (off n : Nat) : List Byte :=
  (upto n).map (fun i => memByte s (blockByte s blocks (off + i)))

/-- Writes a band's bytes to its blocks, each in whole ECC words, so that a block used again holds no poison of its last use. -/
def blockStore (s : State) : List Nat → List Byte → State
  | [], _ => s
  | b :: rest, bs =>
    let part := bs.take 65536
    if part = [] then s
    else
      let pad := List.replicate ((64 - part.length % 64) % 64) (0 : Byte)
      blockStore (engineWrite s (regionBase s 0 + 65536 * b) (part ++ pad)) rest (bs.drop 65536)

/-- The lowest free band-table index, where one is free. -/
def freeHandle (s : State) : Option Nat := (upto 8192).find? (fun h => (bandOf s h).isNone)

/-- The engine that decodes a plane of a channel (R56). -/
def engineOf (c plane : Nat) : Nat := if plane = 0 then 2 * c else 2 * c + 1

def leadOf (s : State) (e : Nat) : List LeadLine := mget s.intake.leads e []

/-- Where work on an engine stands at the next 32 KiB of an output of `total` bytes, if it has not ended by then. -/
def nextPause (s : State) (done total : Nat) : Option Nat × State :=
  let pieces := (total - 1 - done) / 32768
  if pieces = 0 then (none, s) else (some (done + 32768 * (1 + (free s).1 % pieces)), (free s).2)

/-- A verification or a job suspends at the next 32 KiB of its output once its engine's lead has fallen below four lines (R60). -/
def suspendWork (s : State) (e : Nat) : State :=
  if 4 ≤ (leadOf s e).length then s
  else
    let s := forEach (s.intake.bands.filter (fun x => x.2.status == .verifying && !x.2.suspended && engineOf x.2.ch x.2.plane == e)) s
      (fun s x => match nextPause s x.2.verified x.2.ulen with
        | (some n, s) => setBand s x.1 { x.2 with verified := n, suspended := true }
        | (none, s) => s)
    forEach (s.intake.jobs.filter (fun j => j.engine == some e && !j.suspended)) s (fun s j =>
      match nextPause s j.progress j.outmax with
      | (some n, s) => { s with intake := { s.intake with
          jobs := s.intake.jobs.map (fun x => if x.op = j.op then { x with progress := n, suspended := true } else x) } }
      | (none, s) => s)

/-- Whether a band is valid: loaded, not BAD and still referenced (R231). -/
def bandValid (s : State) (h : Nat) : Bool :=
  match bandOf s h with
  | some b => b.status == .valid
  | none => false

/-- Writes the BAND_RELEASED reports that a function's event ring has room for, in the order of release, and frees their
entries (R54, R261). -/
def writeReleases (s : State) (f : Nat) : State :=
  forEach (fnOf s f).releases s (fun s _ =>
    match (fnOf s f).releases with
    | [] => s
    | e :: rest =>
      if fnDisabled s f then s
      else
        let s := putLost s f
        if evRoom s f then
          let s := putEvent s f e
          dropBand (setFn s f { fnOf s f with releases := rest }) e.aux
        else s)

/-- A band's last reference has ended: its blocks are freed and its report is written or waits (R54). Without a report the
entry is freed at once. -/
def releaseBand (s : State) (h : Nat) (report : Bool) : State :=
  match bandOf s h with
  | none => s
  | some b =>
    if report then
      let s := setBand s h { b with blocks := [], refetch := none, status := .reporting }
      let s := setFn s b.fn { fnOf s b.fn with releases := (fnOf s b.fn).releases ++ [⟨7, h, b.cookie⟩] }
      writeReleases s b.fn
    else dropBand s h

/-- Releases a band that has no reference left and whose BLOAD has ended. -/
def checkRelease (s : State) (h : Nat) (report : Bool) : State :=
  match bandOf s h with
  | none => s
  | some b =>
    if b.loadRef = none ∧ b.frameRefs = [] ∧ (b.status = .valid ∨ b.status = .bad) then releaseBand s h report else s

/-- Ends the load references of an entry whose completion is posted (R54). -/
def endLoadRefs (s : State) (q n : Nat) : State :=
  forEach s.intake.bands s (fun s e =>
    match bandOf s e.1 with
    | some b => if b.loadRef = some (q, n) then checkRelease (setBand s e.1 { b with loadRef := none }) e.1 true else s
    | none => s)

/-- Ends the frame references of a frame (R54). -/
def endFrameRefs (s : State) (key : Nat) (report : Bool) : State :=
  forEach s.intake.bands s (fun s e =>
    match bandOf s e.1 with
    | some b =>
      if b.frameRefs.contains key then
        checkRelease (setBand s e.1 { b with frameRefs := b.frameRefs.filter (fun k => k != key) }) e.1 report
      else s
    | none => s)

/-- Records the first faulted band since SLC.ERR last read all zero, and raises BAND_FAULT (R60). -/
def bandFault (s : State) (h code : Nat) (bitField : Fld) : State :=
  let s := if getF s SLC.ERR = 0 then setF (setF s SLC.ERRBAND_BAND h) SLC.ERRBAND_CODE code else s
  let s := setF s bitField 1
  match bandOf s h with
  | none => s
  | some b =>
    let s := raiseEvent s 0 8 (h + 65536 * code) b.cookie
    if b.fn = 0 then s else raiseEvent s b.fn 8 (h + 65536 * code) b.cookie

end Sys2Proof.Machine
end

