-- ==== Sys2Proof/Machine/Roles.lean ====
section
/-!
DEFINITION. The role of the unit in a pair, and the twin messages it sends (R296, R299, R301, R303).
-/

namespace Sys2Proof.Machine

/-! The role in a pair (R299, R301). -/

def twinState (s : State) : Nat := getF s TWN.STAT_STATE

/-- Whether the unit is the active of a pair whose partner is not lost. -/
def isActive (s : State) : Bool := twinState s == 3 && !s.twin.lost

/-- Whether the unit follows its partner's decisions: a standby, or a joiner (R301, R311). -/
def isStandby (s : State) : Bool := twinState s == 4 || (twinState s == 2 && s.twin.joinStep != 0)

/-- Whether the unit is one of a pair. -/
def inPair (s : State) : Bool := isActive s || isStandby s

/-- Whether the unit decides ledger transitions: every unit but a standby, a joiner and a diverged unit (R301, R311). -/
def authority (s : State) : Bool := !(twinState s == 4 || twinState s == 2 || twinState s == 6)

/-- Changes the twin state. -/
def setTwin (s : State) (t : TwinState) : State := { s with twin := t }

/-- Sends a twin message (R296). A sender that holds 4,096 unacknowledged messages sends no more; the message is then kept
behind them and goes out when it is resent. -/
def twinSend (s : State) (m : TwinBody) : State :=
  let n := s.twin.sent + 1
  let s := if s.twin.unacked.length < 4096 then send s (.twin n s.twin.applied m) else s
  setTwin s { s.twin with sent := n, unacked := s.twin.unacked ++ [(n, m)] }

/-- The matching key of an operation (R303). -/
def Op.twinKey (o : Op) : TwinKey := ⟨o.queue, o.qseq, o.sub, o.ordinal⟩

/-- Whether the active of a pair decides an operation for both units: FACCEPT, FARM, MAPSET, SCRSEL or MARK of an entry's
program (R303). -/
def Op.matched (o : Op) : Bool := o.pool == 0 && [1, 4, 9, 10, 14].contains o.sub

/-- The active sends the decision of a matched operation (R303), with its GEOHASH and TABSUM, which R309 compares at a FARM. -/
def sendResult (s : State) (o : Op) (code value : Nat) : State :=
  if isActive s && o.matched then
    twinSend s (.result o.twinKey (word code) (word value) (getF s LDE.GEOHASH) (getP s TWN.TABSUM))
  else s

end Sys2Proof.Machine
end

