-- ==== Sys2Proof/Machine/Time.lean ====
section
/-!
DEFINITION. Reading time: the free-running counter, the two domains and the working domain (R355 to R358). Times here
are integers in units of 2^-32 ns.
-/

namespace Sys2Proof.Machine

/-- OFFSET_d in units of 2^-32 ns (R356). -/
def offset32 (s : State) (d : Nat) : Nat := getP s TIM.OFFSET d * 2 ^ 32 + getF s TIM.OFFFR d

/-- Gives OFFSET_d a value; it is a 64-bit count of ns with a 32-bit fraction. -/
def setOffset32 (s : State) (d : Nat) (v : Int) : State :=
  let n := unsign v 96
  setF (setP s TIM.OFFSET (n / 2 ^ 32) d) TIM.OFFFR (n % 2 ^ 32) d

/-- T_d at an FRC value: OFFSET_d + FRC × RATE_d, wrapping at 2^64 ns (R356). -/
def domainTimeAt (s : State) (d frc : Nat) : Nat := (offset32 s d + frc * getP s TIM.RATE d) % 2 ^ 96

/-- The correction that remains of a switch at an FRC value: it shrinks by 100 ppm of elapsed time (R358). -/
def correctionAt (s : State) (frc : Nat) : Int :=
  let shrunk : Nat := (frc - s.time.corrFrc) * (8 * 2 ^ 32) / 100000
  if 0 ≤ s.time.corr then (if s.time.corr ≤ shrunk then 0 else s.time.corr - shrunk)
  else (if -s.time.corr ≤ shrunk then 0 else s.time.corr + shrunk)

/-- Working time at an FRC value, in 2^-32 ns (R358). -/
def workAt (s : State) (frc : Nat) : Nat :=
  unsign ((domainTimeAt s (getF s TIM.WORK_SEL) frc : Nat) + correctionAt s frc) 96

/-- Working time now, in 2^-32 ns. -/
def work32 (s : State) : Nat := workAt s s.frc

/-- Working time now, in whole ns. -/
def workNs (s : State) : Nat := work32 s / 2 ^ 32

/-- Control-clock cycles since an FRC value: the control clock runs at 1.0 GHz and the FRC at 1.25 GHz. -/
def cyclesSince (s : State) (frc : Nat) : Nat := (s.frc - frc) * 4 / 5

end Sys2Proof.Machine
end

