-- ==== Sys2Proof/Machine/Cores.lean ====
section
/-!
DEFINITION. The Brofer cores as the blocks see them: their registers, running and stalling, faults, tags and completions,
and the completion entries of the host queues (R184 to R215, R220 to R223, R258).
-/

namespace Sys2Proof.Machine

/-- The number of a core in the model: threads 0 to 15, reed0 to reed31 at 16 to 47. -/
def coreNum : CoreId → Nat
  | .thread t => t
  | .reed n => 16 + n

/-- Whether a core number names a Causeway thread. -/
def isThread (k : Nat) : Bool := decide (k < 16)

/-- A core before its first program or image. -/
def Core.fresh : Core :=
  { g := [], pc := 0, jumpFrom := 0, sat := false, ovf := false, hwin := 0, hostfn := 0, args := [], qseq := 0, eflags := 0,
    pbase := 0, plen := 0, event := 0, evmask := 0, timer := 0, timerFrc := 0, stall := .none, stepping := false,
    bpSkip := false, clearHeld := false, wokeFrc := 0, stored := false }

/-- A core's registers. -/
def coreOf (s : State) (k : Nat) : Core := mget s.host.cores k Core.fresh

/-- Changes a core's registers. -/
def setCore (s : State) (k : Nat) (c : Core) : State := { s with host := { s.host with cores := mput s.host.cores k c } }

/-- A general register; g0 reads as 0 (R184). -/
def Core.read (c : Core) (r : GReg) : Word := if r = 0 then 0 else mget c.g r.val 0

/-- Writes a general register; a write to g0 is discarded (R184). -/
def Core.write (c : Core) (r : GReg) (v : Word) : Core := if r = 0 then c else { c with g := mput c.g r.val v }

/-- A general register of a core. -/
def readG (s : State) (k : Nat) (r : GReg) : Word := (coreOf s k).read r

/-- Writes a general register of a core. -/
def writeG (s : State) (k : Nat) (r : GReg) (v : Word) : State := setCore s k ((coreOf s k).write r v)

/-! Power domains as the requesters meet them (R19, R413). -/

/-- Whether a domain is held: before confirmation (R19), or PD_MERE in the throughput profile. -/
def domainHeld (s : State) (d : Nat) : Bool :=
  (!confirmed s && [4, 5, 7, 8, 9, 10, 11, 12].contains d) || (d == 11 && throughput s)

/-- The power domain of a Reed core (Table: Reed core placement). -/
def reedDomain (n : Nat) : Nat :=
  if n < 4 then 7 else if n < 8 then 8 else if n < 12 then 11 else if n < 16 then 1 else if n < 20 then 13
  else if n < 28 then 12 else 1

/-- Whether a Reed core is HELD: its domain is held, or the profile has no such core. -/
def reedHeld (s : State) (n : Nat) : Bool :=
  domainHeld s (reedDomain n) || (throughput s && decide (24 ≤ n) && decide (n < 28))

/-! STATE of a thread or core. -/

def coreState (s : State) (k : Nat) : Nat :=
  if isThread k then getF s CWY.TSTAT_STATE k else getF s RDC.STAT_STATE (k - 16)

def setCoreState (s : State) (k v : Nat) : State :=
  if isThread k then setF s CWY.TSTAT_STATE v k else setF s RDC.STAT_STATE v (k - 16)

/-- The encoding of RUNNING, FAULTED and DEBUG for a thread or core. -/
def stRunning (k : Nat) : Nat := if isThread k then 1 else 3
def stFaulted (k : Nat) : Nat := if isThread k then 2 else 4
def stDebug (k : Nat) : Nat := if isThread k then 3 else 5

/-- Whether a Reed core's domain is down: neither ON, GATED nor ENTERING (R209). -/
def reedDown (s : State) (n : Nat) : Bool := !([2, 3, 4].contains (domState s (reedDomain n)))

/-- Whether a core is running; a Reed core executes nothing while its domain is down or held (R209). -/
def running (s : State) (k : Nat) : Bool :=
  coreState s k == stRunning k && (isThread k || !(reedHeld s (k - 16) || reedDown s (k - 16)))

/-- The function whose identity a core uses (s2, R186): a thread's is that of its bound queue, and 0 for the boot program (R437). -/
def hostFn (s : State) (k : Nat) : Nat :=
  if isThread k then (if flag s CWY.TSTAT_BOUND k then getF s PCI.QCFG_FN (getF s CWY.TSTAT_QUEUE k) else 0)
  else (coreOf s k).hostfn

/-- Whether debug is unlocked (R214, R441). -/
def debugUnlocked (s : State) : Bool := flag s SEC.DBGCTL_UNLOCKED

/-- Whether faults of a core enter DEBUG (R214). -/
def catches (s : State) (k : Nat) : Bool :=
  debugUnlocked s && (if isThread k then flag s CWY.DBGCTL_CATCH k else flag s RDC.DBGCTL_CATCH (k - 16))

/-- Enters or leaves state DEBUG, with HALTED to match. -/
def setHalted (s : State) (k : Nat) (v : Bool) : State :=
  if isThread k then setF s CWY.DBGCTL_HALTED (bnat v) k else setF s RDC.DBGCTL_HALTED (bnat v) (k - 16)

/-- Halts a core in state DEBUG. -/
def enterDebug (s : State) (k : Nat) : State := setHalted (setCoreState s k (stDebug k)) k true

/-! Queues and completion entries (R252 to R259). -/

def Queue.fresh : Queue :=
  { fetched := 0, written := 0, promised := 0, consumed := 0, entry := none, disablePending := false, resumeHeld := false }

def queueOf (s : State) (q : Nat) : Queue := mget s.host.queues q Queue.fresh
def setQueue (s : State) (q : Nat) (v : Queue) : State := { s with host := { s.host with queues := mput s.host.queues q v } }

/-- STATE of a queue; HELD is read, not stored: a RUNNING queue of a disabled function (R263). -/
def queueState (s : State) (q : Nat) : Nat :=
  let v := getF s PCI.QSTAT_STATE q
  if v = 1 ∧ fnDisabled s (getF s PCI.QCFG_FN q) then 2 else v

/-- Entries of a queue's rings. -/
def ringSize (s : State) (q : Nat) : Nat := 2 ^ getF s PCI.QCFG_LOG q

/-- The 32 bytes of a completion entry (Table: completion entry). -/
def completionBytes (qseq result status fcode sqhead phase time faultpc : Nat) : List Byte :=
  toBytes 4 qseq ++ toBytes 4 result ++ toBytes 4 (status + 256 * fcode + 65536 * sqhead) ++ toBytes 4 phase ++
  toBytes 8 time ++ toBytes 8 faultpc

/-- Writes a completion entry of an enabled function (R258, R262). -/
def writeCompletion (s : State) (q : Nat) (slot : Nat) (bs : List Byte) (irq : Bool) : State :=
  let f := getF s PCI.QCFG_FN q
  let s := hostWrite s f (getP s PCI.CQBASE q + 32 * (slot % ringSize s q)) bs
  if irq then signalVector s f (getF s PCI.QCFG_VEC q) else s

/-- Posts the completion of a queue's entry; its load references end with it (R54, R258). -/
def postCompletion (s : State) (q : Nat) (e : Entry) (status result fcode faultpc : Nat) : State :=
  let u := queueOf s q
  let phase := if u.written / ringSize s q % 2 = 0 then 1 else 0
  let bs := completionBytes e.qseq result status fcode (getF s PCI.QSTAT_HEAD q) phase (e.ended.getD (workNs s)) faultpc
  let s := setQueue s q { u with written := u.written + 1, promised := u.promised - 1, entry := none }
  endLoadRefs (writeCompletion s q u.written bs (bit e.flags 2)) q e.number

/-- The completion of a thread's entry is held on chip: its function is disabled (R263). -/
def holdEnd (s : State) (t q : Nat) (e : Entry) : State :=
  if e.ended.isSome then s
  else
    let s := setQueue s q { queueOf s q with entry := some { e with ended := some (workNs s) } }
    { s with host := { s.host with heldEnds := s.host.heldEnds ++ [t] } }

/-- A queue becomes STOPPED and says so (R259). -/
def stopQueue (s : State) (q status qseq : Nat) : State :=
  raiseEvent (setF s PCI.QSTAT_STATE 3 q) (getF s PCI.QCFG_FN q) 5 (q + 256 * status) qseq

/-- Ends what a disabled queue was waiting for: its running entry has completed (Table: PCI.QCFG[q]). -/
def finishDisable (s : State) (q : Nat) : State :=
  let u := queueOf s q
  if u.disablePending ∧ u.entry = none then
    setF (setF (setQueue s q { u with disablePending := false }) PCI.QCFG_EN 0 q) PCI.QSTAT_STATE 0 q
  else s

/-- The reads of a core that have no requester left (R264). -/
def addStale (s : State) (l : List ReadOwner) : State := { s with host := { s.host with stale := s.host.stale ++ l } }

/-- The core of a number. -/
def coreId (k : Nat) : CoreId := if h : k < 16 then .thread ⟨k, h⟩ else .reed (Fin.ofNat 32 (k - 16))

/-- Whether a core's stall has a read in flight. -/
def readAway (s : State) (k : Nat) : Bool :=
  match (coreOf s k).stall with
  | .hostLoad _ _ _ _ | .hostFence | .storeFence => !fnDisabled s (hostFn s k)
  | _ => false

/-- A core's stall ends without what it waits for: a read in flight has no requester left, and a place among the waiters, or a tag
given to it, is given up. -/
def dropStall (s : State) (k : Nat) : State :=
  let s := if readAway s k then addStale s [.load (coreId k)] else s
  { s with host := { s.host with
    cores := mput s.host.cores k { coreOf s k with stall := .none }
    tagWaiters := s.host.tagWaiters.filter (fun j => j != k), granted := mdel s.host.granted k } }

/-- A thread returns to IDLE with its queue unbound (R257). -/
def unbindThread (s : State) (t : Nat) : State :=
  let s := dropStall s t
  let s := setHalted (setF (setF s CWY.TSTAT_STATE 0 t) CWY.TSTAT_BOUND 0 t) t false
  setCore s t { coreOf s t with stall := .none, stepping := false, clearHeld := false }

/-- The operations a core issued that have not completed. -/
def opsOf (s : State) (k : Nat) : List Op := s.host.ops.filter (fun o => coreNum o.issuer == k)

/-- Resumes a queue: its FAULTED thread is cleared and it runs at its current head (R259). -/
def resumeQueue (s : State) (q : Nat) : State :=
  let t := getF s PCI.QCFG_THREAD q
  let s :=
    if getF s CWY.TSTAT_STATE t = 2 ∧ getF s CWY.TSTAT_QUEUE t = q ∧ flag s CWY.TSTAT_BOUND t then unbindThread s t else s
  if getF s PCI.QSTAT_STATE q = 3 then setF s PCI.QSTAT_STATE 1 q else s

/-- The completion of a faulted thread's entry is posted once every operation it issued has completed; the queue stops, and
a held CLEAR or RESUME takes effect (R257 to R259). -/
def postFault (s : State) (t : Nat) : State :=
  let q := getF s CWY.TSTAT_QUEUE t
  if getF s CWY.TSTAT_STATE t = 2 ∧ flag s CWY.TSTAT_BOUND t ∧ (opsOf s t).isEmpty then
    match (queueOf s q).entry with
    | none => s
    | some e =>
      if fnDisabled s (getF s PCI.QCFG_FN q) then holdEnd s t q e
      else
        let s := postCompletion s q e 1 0 (getF s CWY.TSTAT_CODE t) (getP s CWY.FAULTPC t)
        let s := finishDisable (stopQueue s q 1 e.qseq) q
        let s := if (coreOf s t).clearHeld then unbindThread s t else s
        if (queueOf s q).resumeHeld then resumeQueue (setQueue s q { queueOf s q with resumeHeld := false }) q else s
  else s

/-! Faults (R196). -/

/-- A core faults: it halts, records the fault and raises its event (R196, R214). -/
def takeFault (s : State) (k code : Nat) (pc addr : Nat) : State :=
  let s := setCore s k { coreOf s k with stall := .none, stepping := false }
  let s := { s with host := { s.host with
    tagWaiters := s.host.tagWaiters.filter (fun j => j != k), granted := mdel s.host.granted k } }
  let s := if catches s k then enterDebug s k else setCoreState s k (stFaulted k)
  if isThread k then
    let s := setP (setP (setF s CWY.TSTAT_CODE code k) CWY.FAULTPC pc k) CWY.FAULTADDR addr k
    let q := if flag s CWY.TSTAT_BOUND k then getF s CWY.TSTAT_QUEUE k else 0
    let f := hostFn s k
    let s := raiseEvent s 0 1 (k + 65536 * q) pc
    let s := if f = 0 then s else raiseEvent s f 1 (k + 65536 * q) pc
    postFault s k
  else
    let n := k - 16
    let s := setP (setP (setF s RDC.STAT_CODE code n) RDC.FAULTPC pc n) RDC.FAULTADDR addr n
    raiseEvent s 0 2 n pc

/-! Executing one instruction. -/

/-- What an instruction does: falls through, jumps, faults or stalls. -/
inductive Res where
  | ok (s : State)
  | goto (s : State) (target : Word)
  | fault (code addr : Nat)
  | hold (s : State)

/-- The program block or instruction memory of a core contains an address (R194). -/
def inProgram (c : Core) (pc : Word) : Bool :=
  decide (c.pbase ≤ pc.toNat) && decide (pc.toNat + 4 ≤ c.pbase + c.plen) && pc.toNat % 4 == 0

/-- Whether an enabled breakpoint names the next instruction (Table: debug access). -/
def atBreakpoint (s : State) (k : Nat) : Bool :=
  let pc := (coreOf s k).pc.toNat
  let hit (b : Fld) (e : Fld) (i base : Nat) : Bool := flag s e i && getF s b i == pc - base
  if isThread k then (upto 4).any (fun j => hit CWY.DBGBP_OFFSET CWY.DBGBP_EN (4 * k + j) 0x7F0002000000)
  else
    let n := k - 16
    let b := 0x7F0003000000 + 0x20000 * n
    hit RDC.DBGBP0_OFFSET RDC.DBGBP0_EN n b || hit RDC.DBGBP1_OFFSET RDC.DBGBP1_EN n b ||
    hit RDC.DBGBP2_OFFSET RDC.DBGBP2_EN n b || hit RDC.DBGBP3_OFFSET RDC.DBGBP3_EN n b

/-- An instruction has completed: the pc moves on, and a stepped core halts again (R214). -/
def retire (s : State) (k : Nat) (pc : Word) (jump : Option Word) : State :=
  let c := coreOf s k
  let s := setCore s k { c with pc := pc, jumpFrom := jump.getD 0, stall := .none, stepping := false, bpSkip := false }
  if c.stepping then enterDebug s k else s

/-- Whether the command of an instruction reaches a core that executes it now. -/
def ready (s : State) (k : Nat) : Bool := running s k && decide ((coreOf s k).stall = .none)

/-- Executes one instruction on a core: a fetch outside the program faults, a breakpoint halts, and otherwise the
instruction acts. A core that is not running, or is stalled, executes nothing. -/
def runInstr (c : CoreId) (body : Nat → State → Res) (s : State) : State :=
  let k := coreNum c
  if ready s k then
    let r := coreOf s k
    if !inProgram r r.pc then takeFault s k 8 r.pc.toNat r.jumpFrom.toNat
    else if catches s k && !r.bpSkip && atBreakpoint s k then enterDebug s k
    else match body k s with
      | .ok s' => retire s' k (r.pc + 4) none
      | .goto s' t => retire s' k t (some r.pc)
      | .fault code addr => takeFault s k code r.pc.toNat addr
      | .hold s' => s'
  else s

/-- A stalled instruction ends with a result in a register. -/
def unstall (s : State) (k : Nat) (rd : GReg) (v : Word) : State :=
  let s := writeG s k rd v
  retire s k ((coreOf s k).pc + 4) none

/-- Stalls a core. -/
def stallOn (s : State) (k : Nat) (w : Stall) : State := setCore s k { coreOf s k with stall := w }

/-! Tags and completions (R220 to R223). -/

/-- The pool of a core: 0 for Causeway, 1 + n for reedn. -/
def poolOf (k : Nat) : Nat := if isThread k then 0 else k - 15

/-- The tag indices a core may take, in the order in which it takes them (R220). -/
def tagOrder (k : Nat) : List Nat := if isThread k then upto 448 ++ fromTo (448 + 4 * k) (451 + 4 * k) else upto 16

/-- Whether a tag is held by an operation, or by a core that has waited for it. -/
def tagUsed (s : State) (pool i : Nat) : Bool :=
  s.host.ops.any (fun o => o.pool == pool && o.index == i) || s.host.granted.any (fun e => poolOf e.1 == pool && e.2 == i)

/-- The tags a core may take now (s6). -/
def freeTags (s : State) (k : Nat) : List Nat := (tagOrder k).filter (fun i => !tagUsed s (poolOf k) i)

/-- The key of an operation: pool × 1,024 + index. -/
def Op.key (o : Op) : Nat := 1024 * o.pool + o.index

/-- Changes an outstanding operation. -/
def putOp (s : State) (o : Op) : State :=
  { s with host := { s.host with ops := s.host.ops.map (fun p => if p.key = o.key then o else p) } }

/-- A tag value (R221). -/
def tagValue (o : Op) : Word := word (o.index + 65536 * o.serial)

def opOf (s : State) (key : Nat) : Option Op := s.host.ops.find? (fun o => o.key == key)

/-- Issues an operation with the tag given (R220, R221). -/
def issueOp (s : State) (c : CoreId) (tag sub : Nat) (rec : Option Nat) (desc : List Byte) : Op × State :=
  let k := coreNum c
  let serial := mget s.host.serials (poolOf k) 0 + 1
  let bound : Bool := isThread k && flag s CWY.TSTAT_BOUND k
  let q := if bound then getF s CWY.TSTAT_QUEUE k else 64
  let n := match (queueOf s q).entry with | some e => e.number | none => 0
  let r := coreOf s k
  let ord := mget s.host.ordinals (2048 * k + sub) 0
  let o : Op :=
    { pool := poolOf k, index := tag, serial := serial, issuer := c, fn := (if isThread k then hostFn s k else 8),
      sub := sub, record := rec, queue := q, entry := n,
      qseq := r.qseq.toNat, ordinal := ord, hwin := r.hwin.toNat, hostfn := hostFn s k, desc := desc, g0 := none }
  (o, { s with host := { s.host with
    ops := s.host.ops ++ [o], serials := mput s.host.serials (poolOf k) serial,
    ordinals := mput s.host.ordinals (2048 * k + sub) (ord + 1) } })

/-- The code word of a completion (R222). -/
def codeWord (code sub flags aux : Nat) : Nat :=
  code % 256 + 256 * (sub % 256) + 65536 * (flags % 65536) + 2 ^ 32 * (aux % 2 ^ 32)

/-- Releases the cores that wait on an operation or on all of a core's operations (R223). -/
def wakeTagWaiters (s : State) (o : Op) (code : Nat) : State :=
  forEach (upto 48) s (fun s k =>
    match (coreOf s k).stall with
    | .waitTag rd key serial =>
      if key = o.key ∧ serial ≤ o.serial then unstall s k rd (word (if serial = o.serial then code else 0xFF)) else s
    | .waitAll rd => if (opsOf s k).isEmpty then unstall s k rd 0 else s
    | _ => s)

/-- A tag that has freed goes to the core that has waited longest of those it may go to, which executes its instruction again
(R220). -/
def serveTagWaiters (s : State) : State :=
  match s.host.tagWaiters.find? (fun k => !(freeTags s k).isEmpty) with
  | none => s
  | some k =>
    let tag := (freeTags s k).headD 0
    let s := setCore s k { coreOf s k with stall := .none }
    { s with host := { s.host with
      tagWaiters := s.host.tagWaiters.filter (fun j => j != k), granted := mput s.host.granted k tag } }

/-- The tag a core takes for its next operation: the one given to it, or the first it may take. -/
def takeTag (s : State) (k : Nat) : Option Nat :=
  match mfind s.host.granted k with
  | some i => some i
  | none => (freeTags s k).head?

/-- An X operation of a core: it behaves as if preceded by FENCE with HOST (R206). -/
def runX (c : CoreId) (body : Nat → State → Res) (s : State) : State :=
  runInstr c (fun k s =>
    if (coreOf s k).stored then
      let s := stallOn s k .storeFence
      .hold (if fnDisabled s (hostFn s k) then s else send s (.hostRead (hostFn s k) 0 0))
    else body k s) s

/-- Completes an operation: its record is written, its tag returns to its pool, and what waits on it proceeds. -/
def completeOp (s : State) (key code flags aux value : Nat) : State :=
  match opOf s key with
  | none => s
  | some o =>
    let cw := codeWord code o.sub flags aux
    let s := match o.record with | some a => engineWrite s a (toBytes 8 cw ++ toBytes 8 value) | none => s
    let s := { s with host := { s.host with
      ops := s.host.ops.filter (fun p => p.key != key), results := mput s.host.results key ⟨o.serial, word cw⟩,
      bloads := if o.sub = 2 then mput s.host.bloads o.serial ⟨o.index, code, aux % 8192, code == 0⟩ else s.host.bloads } }
    let s := serveTagWaiters (wakeTagWaiters (sendResult s o cw value) o cw)
    if isThread (coreNum o.issuer) then postFault s (coreNum o.issuer) else s

/-- Ends every operation of a list with one code. -/
def completeAll (s : State) (keys : List Nat) (code : Nat) : State :=
  forEach keys s (fun s k => completeOp s k code 0 0 0)

end Sys2Proof.Machine
end

