-- ==== Sys2Proof/Machine/Feedback.lean ====
section
/-!
DEFINITION. Positions: the channels' extended positions and the line-trigger generators' lines (R374, R377, R380).
-/

namespace Sys2Proof.Machine

def Channel.fresh : Channel :=
  { x := 0, levels := 0, last := none, edge := none, windowX := 0, windowEdges := 0, indexed := false, illegal := [],
    reading := none, failed := 0, badFrc := 0, movedFrc := 0, quietFrc := 0, since := 0 }

def channelOf (s : State) (c : Nat) : Channel := mget s.feedback.channels c Channel.fresh
def setChannel (s : State) (c : Nat) (v : Channel) : State :=
  { s with feedback := { s.feedback with channels := mput s.feedback.channels c v } }

def generatorOf (s : State) (j : Nat) : Generator := mget s.feedback.generators j ⟨0, 0, 0⟩
def setGenerator (s : State) (j : Nat) (v : Generator) : State :=
  { s with feedback := { s.feedback with generators := mput s.feedback.generators j v } }

/-- Whether a generator is enabled. -/
def generatorOn (s : State) (j : Nat) : Bool := flag s ENC.LTGCFG_EN j

/-- CPR of a channel; 0 is 2^32 (R374). -/
def countsPerRev (s : State) (c : Nat) : Nat := let n := getF s ENC.CPR c; if n = 0 then 2 ^ 32 else n

/-- C = X mod CPR (R374). -/
def wrapped (s : State) (c : Nat) : Nat := ((channelOf s c).x % (countsPerRev s c : Int)).toNat

/-- REV = floor(X / CPR), as a 32-bit value (R374). -/
def revolutions (s : State) (c : Nat) : Nat := unsign (floorDiv (channelOf s c).x (countsPerRev s c)) 32

/-- SPACING of a generator, in 2^-32 counts. -/
def lineSpacing (s : State) (j : Nat) : Nat := getP s ENC.LTGSP j

/-- CORR of a generator's channel in 2^-32 counts; a generator with SNAP 0 ignores it (R380). -/
def correction (s : State) (j : Nat) : Int :=
  if flag s ENC.LTGCFG_SNAP j then signed (getP s ENC.CORR (getF s ENC.LTGCFG_SRC j)) 64 * 2 ^ 32 else 0

/-- A value moved toward another by at most a bound. -/
def toward (a b : Int) (bound : Nat) : Int :=
  if a < b then (if b - a ≤ bound then b else a + bound) else (if a - b ≤ bound then b else a - bound)

/-- ABS at line `n`: what has been absorbed, and up to SPACING/64 more for each line from the next one to `n` (R380); line n0 lies
at LTGORG, so it absorbs nothing (R377). -/
def absorbedAt (s : State) (j n : Nat) : Int :=
  let g := generatorOf s j
  if n < g.next then g.absorbed
  else if flag s ENC.LTGCFG_SNAP j then toward g.absorbed (correction s j) ((n + 1 - Nat.max g.next (getP s ENC.LTGLN j + 1)) * (lineSpacing s j / 64))
  else g.absorbed

/-- P(n) in 2^-32 counts (R377). -/
def linePos (s : State) (j n : Nat) : Int :=
  signed (getP s ENC.LTGORG j) 64 * 2 ^ 32 + ((n : Int) - getP s ENC.LTGLN j) * lineSpacing s j + absorbedAt s j n

/-- The smallest line in a range of 2^k lines from `lo` whose P(n) is at or beyond a position. -/
def searchLine (s : State) (j : Nat) (pos : Int) : Nat → Nat → Nat
  | 0, lo => lo
  | k + 1, lo => if linePos s j (lo + 2 ^ k - 1) < pos then searchLine s j pos k (lo + 2 ^ k) else searchLine s j pos k lo

/-- The smallest line, from n0 = LTGLN on, whose P(n) is at or beyond a position (R113, R377). -/
def lineAt (s : State) (j : Nat) (pos : Int) : Nat := searchLine s j pos 64 (getP s ENC.LTGLN j)

/-- Whether a channel reads a serial encoder: BISS or SSI (R373). -/
def isSerial (s : State) (c : Nat) : Bool := getF s ENC.CFG_MODE c == 3 || getF s ENC.CFG_MODE c == 4

/-- Division that truncates toward 0. -/
def truncDiv (a : Int) (b : Nat) : Int := Int.tdiv a (b : Int)

/-- The speed of a channel in Q32.16 counts/s, as it reads now: the PERIOD method decays between edges (R376). -/
def speedOf (s : State) (c : Nat) : Int :=
  if getF s ENC.STAT_STATE c ≠ 1 || !flag s ENC.STAT_SPDVALID c then 0
  else if isSerial s c || flag s ENC.STAT_SPDMODE c then signed (getP s ENC.SPEED c) 64
  else match (channelOf s c).edge with
    | some e => (match e.delta with
        | some d => truncDiv (e.sign * 1250000000 * 65536) (Nat.max 1 (Nat.max d (s.frc - e.frc)))
        | none => 0)
    | none => 0

end Sys2Proof.Machine
end

