-- ==== Sys2Proof/Machine/Sine.lean ====
section
/-!
DEFINITION. Sines in fixed point, for the built-in stepper table and the SINE injection (R395, R407), and
the integer square root.
-/

namespace Sys2Proof.Machine

/-- The scale of the series, and pi in it. -/
def sineUnit : Nat := 2 ^ 48
def piUnits : Nat := 884279719003555

/-- Terms of the sine series from `t`, alternating in sign, of an angle in units of 2^-48. -/
def sineTerms (x : Nat) : Nat → Nat → Nat → Int
  | 0, _, _ => 0
  | n + 1, k, t => (t : Int) - sineTerms x n (k + 1) (t * x / sineUnit * x / sineUnit / ((2 * k + 2) * (2 * k + 3)))

/-- sin(π·n/d) for 0 ≤ n/d ≤ 1/2, in 2^-48. -/
def sinePi (n d : Nat) : Nat := let x := piUnits * n / d; (sineTerms x 14 0 x).toNat

/-- sin(2π·t) for a phase in 2^-48 turn, in 2^-48. -/
def sineTurn (t : Nat) : Int :=
  let t := t % 2 ^ 48
  let q := t / 2 ^ 46
  let r := t % 2 ^ 46
  if q = 0 then (sinePi r (2 ^ 47) : Int)
  else if q = 1 then (sinePi (2 ^ 46 - r) (2 ^ 47) : Int)
  else if q = 2 then -(sinePi r (2 ^ 47) : Int)
  else -(sinePi (2 ^ 46 - r) (2 ^ 47) : Int)

/-- The built-in table T[k] = round(1,023 × sin(π(2k + 1) / 1,024)) (R395). -/
def sineEntry (k : Nat) : Nat := (1023 * sinePi (2 * k + 1) 1024 * 2 + sineUnit) / (2 * sineUnit)

/-- The integer square root of a number below 2^128, bit by bit. -/
def isqrt (n : Nat) : Nat := go 64 0
where
  go : Nat → Nat → Nat
    | 0, r => r
    | b + 1, r => if (r + 2 ^ b) * (r + 2 ^ b) ≤ n then go b (r + 2 ^ b) else go b r

end Sys2Proof.Machine
end

