-- ==== Sys2Proof/Machine/Axes.lean ====
section
/-!
DEFINITION. The axis engines and stepper channels (R384 to R399, R240).
-/

namespace Sys2Proof.Machine

/-- Signed 32-bit register values. -/
def getS (s : State) (f : Fld) (i : Nat) : Int := signed (getF s f i) 32
def setS (s : State) (f : Fld) (v : Int) (i : Nat) : State := setF s f (unsign v 32) i

def Axis.fresh : Axis :=
  { x := 0, v := 0, a := 0, target := 0, vmax := 0, amax := 0, dmax := 0, jmax := 0, op := none, near := false,
    brake := none, limited := false, passed := false, origin := 0, back := false, blind := false }

def axisOf (s : State) (n : Nat) : Axis := mget s.motion.axes n Axis.fresh
def setAxis (s : State) (n : Nat) (v : Axis) : State := { s with motion := { s.motion with axes := mput s.motion.axes n v } }
def axisState (s : State) (n : Nat) : Nat := getF s AXS.STAT_STATE n
def axisOn (s : State) (n : Nat) : Bool := flag s AXS.CFG_EN n
/-- An axis or loop engine that the profile lacks (R16). -/
def engineMissing (s : State) (n : Nat) : Bool := throughput s && decide (8 ≤ n)
/-- An axis drives a stepper channel. -/
def isStepper (s : State) (n : Nat) : Bool := flag s AXS.CFG_OUT n && decide (n < 8)

/-- Whole microsteps. -/
def Axis.pos (a : Axis) : Int := floorDiv a.x 65536

/-- Shows x, the target and v in the registers (Table: AXS registers). -/
def showAxis (s : State) (n : Nat) : State :=
  let a := axisOf s n
  setS (setP (setP s AXS.XCMD (unsign a.pos 64) n) AXS.TGT (unsign (floorDiv a.target 65536) 64) n) AXS.VCMD (floorDiv a.v 65536) n

/-- Completes the AXMOVE of an axis; FLAGS [0] says OVERSHOOT (Table: completion contents). -/
def endMove (s : State) (n code : Nat) : State :=
  let a := axisOf s n
  let s := setAxis s n { a with op := none }
  match a.op with
  | some o => completeOp s o code (bnat a.passed) 0 (unsign a.pos 64)
  | none => s

/-- An immediate stop with its cause (R391). -/
def stopAxis (s : State) (n cause : Nat) : State :=
  if axisState s n ≠ 1 ∧ axisState s n ≠ 2 then s
  else
    let s := setAxis s n { axisOf s n with v := 0, a := 0, brake := none }
    let s := setF (setF (setF s AXS.STAT_STATE 3 n) AXS.STAT_UNCERTAIN 1 n) AXS.STAT_STOPCAUSE cause n
    let s := endMove (showAxis s n) n 0x27
    let s := if isStepper s n ∧ !flag s AXS.CFG_HOLDSTOP n then sendPin s 5 (.coilsOff n) else s
    forEach [0, 6] s (fun s f => raiseEvent s f 0x0701 (n + 256 * cause) (unsign (axisOf s n).pos 64))

/-- A write of AXS.CFG[n].EN, after the other fields (Table: AXS registers). -/
def axisEnable (s : State) (n : Nat) (en : Bool) : State :=
  if !en then
    if !axisOn s n then s
    else
      let moving : Bool := axisState s n == 2
      let s := setAxis s n { axisOf s n with v := 0, a := 0, brake := none }
      let s := setF (setF s AXS.CFG_EN 0 n) AXS.STAT_STATE 0 n
      let s := showAxis (if moving then setF s AXS.STAT_UNCERTAIN 1 n else s) n
      endMove s n 0x27
  else if axisOn s n then s
  else if (flag s AXS.CFG_OUT n && decide (8 ≤ n)) || (decide (n < 8) && getF s AXS.STCFG_TBL n == 3) then s
  else
    let s := setF (setF s AXS.CFG_EN 1 n) AXS.STAT_STATE 1 n
    if isStepper s n then setF s AXS.STSTAT_IRUN (getF s AXS.STCUR_IRUN_MAX n) n else s

/-! The profile generator (R387). -/

/-- Units of time of a stop: 2^-48 s. -/
def timeUnit : Nat := 2 ^ 48

/-- A stop from `v` ≥ 0 and `a` along it: the acceleration that brings v and a to 0 together, how far a must move to it, v at
its two ends, the distances of the first two parts and of the whole, and the times of its three parts. -/
structure StopPath where
  peak : Nat
  n : Nat
  v1 : Int
  v2 : Int
  d1 : Int
  dist : Int
  t1 : Nat
  t2 : Nat
  t3 : Nat

/-- The stop that drives a at JMAX to the value that brings v and a to 0 together, at most DMAX; none where a already brakes
harder than that. -/
def stopPath (v : Nat) (a : Int) (dmax jmax : Nat) : Option StopPath :=
  let j := Nat.max 1 jmax
  let d := 65536 * Nat.max 1 dmax
  let peak := Nat.min d (isqrt (j * v * 65536 + (a * a).toNat / 2))
  if a + peak < 0 then none
  else
    let n := (a + peak).toNat
    let v1 : Int := v + floorDiv (a * n) (65536 * j) - (n * n / (2 ^ 17 * j) : Nat)
    let v2 : Int := (peak * peak / (2 ^ 17 * j) : Nat)
    let d1 : Int := (v * n / (65536 * j) : Nat) + floorDiv (a * n * n) (2 ^ 33 * j * j) - (n * n * n / (6 * 2 ^ 32 * j * j) : Nat)
    let d2 : Int := if v2 < v1 then floorDiv (v1 * v1 - v2 * v2) (2 * d) else 0
    let d3 : Int := (peak * peak * peak / (6 * 2 ^ 32 * j * j) : Nat)
    some ⟨peak, n, v1, v2, d1, d1 + d2 + d3, n * timeUnit / (65536 * j),
      if v2 < v1 then ((v1 - v2) * timeUnit / d).toNat else 0, peak * timeUnit / (65536 * j)⟩

/-- stop_dist(v, a) (R387). -/
def stopDist (v : Nat) (a : Int) (dmax jmax : Nat) : Nat :=
  match stopPath v a dmax jmax with
  | some p => p.dist.toNat
  | none => 0

/-- Where a stop is after `k` samples: distance, v, a, and whether it has ended. -/
def stopAt (v : Nat) (a : Int) (jmax : Nat) (p : StopPath) (k : Nat) : Int × Int × Int × Bool :=
  let j := 65536 * Nat.max 1 jmax
  let t := k * timeUnit / 50000
  if t < p.t1 then
    ((v * t / timeUnit : Nat) + floorDiv (a * t * t) (2 * timeUnit * timeUnit) - (j * t * t * t / (6 * timeUnit * timeUnit * timeUnit) : Nat),
     v + floorDiv (a * t) timeUnit - (j * t * t / (2 * timeUnit * timeUnit) : Nat), a - (j * t / timeUnit : Nat), false)
  else if t < p.t1 + p.t2 then
    let u := t - p.t1
    (p.d1 + floorDiv (p.v1 * u) timeUnit - (p.peak * u * u / (2 * timeUnit * timeUnit) : Nat),
     p.v1 - (p.peak * u / timeUnit : Nat), -(p.peak : Int), false)
  else if t < p.t1 + p.t2 + p.t3 then
    let r := p.t1 + p.t2 + p.t3 - t
    (p.dist - (j * r * r * r / (6 * timeUnit * timeUnit * timeUnit) : Nat), (j * r * r / (2 * timeUnit * timeUnit) : Nat),
     -((j * r / timeUnit : Nat) : Int), false)
  else (p.dist, 0, 0, true)

/-- Rounds a quotient to nearest. -/
def roundDiv (a : Int) (d : Nat) : Int := floorDiv (a + (d / 2 : Nat)) d

/-- The direction of motion: of v, or of a at rest. -/
def Axis.dir (a : Axis) : Int := if a.v ≠ 0 then Int.sign a.v else Int.sign a.a

/-- A sample of the stop in progress: it ends at its target. -/
def brakeSample (a : Axis) (b : Brake) : Axis × Bool :=
  let k := b.samples + 1
  let g := if b.v ≠ 0 then Int.sign b.v else Int.sign b.a
  match stopPath b.v.natAbs (b.a * g) a.dmax a.jmax with
  | none => ({ a with brake := none }, false)
  | some p =>
    let r := stopAt b.v.natAbs (b.a * g) a.jmax p k
    ({ a with x := b.x + g * floorDiv (r.1 * b.e.natAbs) (Nat.max 1 p.dist.toNat), v := g * r.2.1, a := g * r.2.2.1,
              brake := some { b with samples := k } }, r.2.2.2)

/-- A sample of the rule of R387, which chooses j. -/
def ruleSample (a : Axis) (s : Nat) : Axis × Bool :=
  let e := a.target - a.x
  let top : Int := a.vmax * 65536
  let j : Int := a.jmax * 65536
  let goal : Int :=
    if a.v ≠ 0 ∧ (Int.sign a.v ≠ Int.sign e ∨ e.natAbs ≤ s) then -Int.sign a.v * (a.dmax * 65536)
    else if top < a.v.natAbs then -Int.sign a.v * (a.dmax * 65536)
    else if a.v ≠ 0 ∧ top ≤ (a.v + floorDiv (a.a * a.a.natAbs) (2 * Nat.max 1 a.jmax * 65536)).natAbs then 0
    else Int.sign e * (a.amax * 65536)
  let jerk := clampInt (-j) j ((goal - a.a) * 50000)
  let a' := a.a + roundDiv jerk 50000
  let v' := a.v + roundDiv (a.a + a') 100000
  let x' := a.x + roundDiv (a.v + v') 100000
  ({ a with x := x', v := v', a := a', near := decide (¬(a.v ≠ 0 ∧ Int.sign a.v ≠ Int.sign e)) && decide (s < e.natAbs) },
   decide ((a.target - x').natAbs < 65536) && decide (v'.natAbs * 2500000000 ≤ a.jmax * 65536))

/-- One profile sample, and whether the move has ended. Once the stop reaches the target, it is followed to its end. -/
def profileSample (a : Axis) : Axis × Bool :=
  match a.brake with
  | some b => brakeSample a b
  | none =>
    let e := a.target - a.x
    let g := Int.sign a.v
    let path := stopPath a.v.natAbs (a.a * g) a.dmax a.jmax
    let s := match path with | some p => p.dist.toNat | none => 0
    if a.v ≠ 0 ∧ g = Int.sign e ∧ e.natAbs ≤ s ∧ a.near ∧ path.isSome then brakeSample a ⟨a.x, e, a.v, a.a, 0⟩
    else ruleSample a s

/-! Moves (R240, R386 to R390). -/

/-- The highest VMAX an axis's STEP output carries (R394). -/
def stepVmax (s : State) (n : Nat) : Nat :=
  100000000 / Nat.max 1 (getF s AXS.PULSE_PW n) * 2 ^ Nat.min 8 (getF s AXS.CFG_SHIFT n)

/-- Takes the four limits of a descriptor; VMAX is lowered to what STEP carries, which sets VCLAMP (R394). -/
def takeLimits (s : State) (n : Nat) (d : List Byte) : State :=
  let v := field d 8 4
  let low : Bool := !flag s AXS.CFG_OUT n && decide (stepVmax s n < v)
  let s := if low then setF s AXS.STAT_VCLAMP 1 n else s
  setAxis s n { axisOf s n with vmax := if low then stepVmax s n else v, amax := field d 12 4, dmax := field d 16 4,
                                jmax := field d 20 4, near := false, brake := none }

/-- A moving axis decelerates to rest under its limits; an operation may end with it (R240). -/
def brakeNow (s : State) (n : Nat) (op : Option Nat) : State :=
  let a := axisOf s n
  let g := a.dir
  let a := if (stopPath a.v.natAbs (a.a * g) a.dmax a.jmax).isSome then a
    else { a with a := -g * isqrt (2 * Nat.max 1 a.jmax * 65536 * a.v.natAbs) }
  let e := g * stopDist a.v.natAbs (a.a * g) a.dmax a.jmax
  showAxis (setAxis s n { a with target := a.x + e, brake := some ⟨a.x, e, a.v, a.a, 0⟩, op := op, limited := false, passed := false }) n

/-- An AXMOVE is issued (R240, R390). -/
def startAxmove (s : State) (o : Op) : State :=
  let d := o.desc
  let w := field d 24 8
  let n := bits w 0 4
  let mode := bits w 4 3
  let refuse (code : Nat) : State := completeOp s o.key code 0 0 0
  let here : Int := (axisOf s n).pos
  let done (s : State) : State := completeOp s o.key 0 0 0 (unsign (axisOf s n).pos 64)
  let moving : Bool := axisState s n == 2
  let t : Int := signed (field d 0 8) 64
  let target : Int := if mode = 0 then t * 65536 else t * 65536 + (if moving then (axisOf s n).target else (axisOf s n).x)
  if engineMissing s n then refuse 0x0D
  else if 4 ≤ mode ∨ bits w 7 57 ≠ 0 then refuse 9
  else if mode < 3 ∧ (field d 8 4 = 0 ∨ field d 12 4 = 0 ∨ field d 16 4 = 0 ∨ field d 20 4 = 0) then refuse 9
  else if !axisOn s n || axisState s n == 3 then refuse 0x27
  else if mode < 2 ∧ flag s AXS.CFG_SOFTEN n ∧ !flag s AXS.STAT_UNCERTAIN n ∧
      (target < signed (getP s AXS.SOFTLO n) 64 * 65536 ∨ signed (getP s AXS.SOFTHI n) 64 * 65536 < target) then refuse 0x1D
  else if mode = 2 then
    (if moving then
      let a := axisOf s n
      let s := takeLimits s n d
      done (if a.brake.isSome then brakeNow s n a.op else setAxis s n { axisOf s n with limited := true })
    else done s)
  else if mode = 3 then
    (if !moving then completeOp s o.key 0 0 0 (unsign here 64) else brakeNow (endMove s n 0x26) n (some o.key))
  else
    let s := endMove s n 0x26
    let s := takeLimits s n d
    let s := setAxis s n { axisOf s n with target := target, op := some o.key, limited := false, passed := false }
    setF (showAxis s n) AXS.STAT_STATE 2 n

/-! Step pulses (R394). -/

/-- Multiples of 2^SHIFT microsteps that lie at or below x. -/
def stepCount (s : State) (n : Nat) (x : Int) : Int := floorDiv x (65536 * 2 ^ Nat.min 8 (getF s AXS.CFG_SHIFT n))

/-- The STEP pulses of a sample in which x moved from `x0`: spread evenly, none before DIRSU after a change of DIR. -/
def stepPulses (s : State) (n : Nat) (x0 : Int) : State :=
  if flag s AXS.CFG_OUT n then s
  else
    let a := axisOf s n
    let m := stepCount s n a.x - stepCount s n x0
    if m = 0 then s
    else
      let back : Bool := decide (m < 0)
      let setup := if back = a.back then 0 else 5 * getF s AXS.PULSE_DIRSU n
      let times := (upto m.natAbs).map (fun i => Nat.max setup (20000 * i / m.natAbs))
      sendPin (setAxis s n { a with back := back }) 6 (.steps n back times)

/-! Feedback of an axis (R381, R393). -/

/-- Whether an axis follows a feedback channel. -/
def axisFollows (s : State) (n c : Nat) : Bool := axisOn s n && flag s AXS.CFG_FBEN n && getF s AXS.CFG_FBSRC n == c

/-- The count differs from the expected one by more than FOLLOWERR (R393), in 2^-40 counts. -/
def followBad (s : State) (n : Nat) : Bool :=
  let a := axisOf s n
  let home : Int := signed (getP s AXS.HOME n) 64
  let gap := ((channelOf s (getF s AXS.CFG_FBSRC n)).x - a.origin) * 2 ^ 40 - (a.x - home * 65536) * getF s AXS.FBCPS n
  flag s AXS.CFG_FBEN n && !flag s AXS.STAT_UNCERTAIN n && decide (getF s AXS.FOLLOWERR n * 2 ^ 40 < gap.natAbs)

/-- The demanded effort of an axis is above the freeze threshold of its channel (R381, R405). -/
def axisEffort (s : State) (n c : Nat) : Bool :=
  axisFollows s n c && axisState s n == 2 &&
    decide (getF s ENC.LOSS_FRZEFF c * (axisOf s n).vmax * 65536 < 256 * (axisOf s n).v.natAbs)

/-- |v| is at or above VADAPT full steps/s (R398). -/
def aboveVadapt (s : State) (st : Nat) : Bool := decide (getF s AXS.STLOAD_VADAPT st * 256 * 65536 ≤ (axisOf s st).v.natAbs)

/-- The causes an axis finds at a sample, the lowest first: a following error, and the loss or freeze of its channel (R391,
R393, R405). -/
def axisChecks (s : State) (n : Nat) : State :=
  let a := axisOf s n
  let blind := a.blind && flag s AXS.CFG_FBEN n
  let bad := followBad s n
  let s := setAxis s n { a with blind := false }
  let s := if bad then stopAxis (setF s AXS.STAT_FOLLOW 1 n) n 4 else s
  if blind then stopAxis (setF s AXS.STAT_UNCERTAIN 1 n) n 5 else s

/-- Below VADAPT the run current is IRUN_MAX (R398). -/
def slowCurrent (s : State) (n : Nat) : State :=
  if isStepper s n && axisOn s n && !aboveVadapt s n then setF s AXS.STSTAT_IRUN (getF s AXS.STCUR_IRUN_MAX n) n else s

/-- One 50 kHz sample of an axis (R387, R393, R394). -/
def axisSample (s : State) (n : Nat) : State :=
  if !axisOn s n then s
  else if axisState s n = 3 then axisChecks s n
  else
    let move (s : State) : State :=
      let a := axisOf s n
      let r := profileSample a
      let e0 := a.target - a.x
      let e1 := r.1.target - r.1.x
      let over_ : Bool := a.limited && !r.2 && decide (Int.sign e0 * Int.sign e1 < 0)
      let s := if over_ then setF s AXS.STAT_OVERSHOOT 1 n else s
      let b := { r.1 with passed := r.1.passed || over_ }
      if r.2 then
        let s := setAxis s n { b with x := b.target, v := 0, a := 0, brake := none, limited := false }
        let s := setF (showAxis (stepPulses s n a.x) n) AXS.STAT_STATE 1 n
        endMove s n 0
      else showAxis (stepPulses (setAxis s n b) n a.x) n
    let s := if axisState s n = 2 then move s else s
    slowCurrent (axisChecks s n) n

/-- AXS.CTL[n].SETPOS (R392). -/
def axisSetpos (s : State) (n : Nat) : State :=
  if axisState s n ≠ 1 then setF s AXS.STAT_SETPOS_REF 1 n
  else
    let a := axisOf s n
    let x := signed (getP s AXS.HOME n) 64 * 65536
    let a := { a with x := x, target := x, origin := if flag s AXS.CFG_FBEN n then (channelOf s (getF s AXS.CFG_FBSRC n)).x else a.origin }
    showAxis (setF (setAxis s n a) AXS.STAT_UNCERTAIN 0 n) n

/-- AXS.CTL[n].CLR (R391). -/
def axisClear (s : State) (n : Nat) : State := if axisState s n = 3 then setF s AXS.STAT_STATE 1 n else s

/-- WEB_STOP_IN is asserted (R391). -/
def webStop (s : State) : State :=
  forEach ((upto 16).filter (fun n => axisOn s n && flag s AXS.CFG_WEBSTOP n)) s (fun s n => stopAxis s n 2)

/-! Stepper channels (R395 to R399). -/

def stepperOf (s : State) (n : Nat) : Stepper := mget s.motion.steppers n ⟨0, 0, []⟩
def setStepper (s : State) (n : Nat) (v : Stepper) : State := { s with motion := { s.motion with steppers := mput s.motion.steppers n v } }

/-- The entry of a user table. -/
def tableKey (st table k : Nat) : Nat := (2 * st + table) * 256 + k
def tableEntry (s : State) (st table k : Nat) : Nat := mget s.motion.tables (tableKey st table k) (sineEntry k)

/-- T[k] of the table a channel uses. -/
def coilTable (s : State) (st k : Nat) : Nat :=
  let t := getF s AXS.STCFG_TBL st
  if t = 1 ∨ t = 2 then tableEntry s st (t - 1) k else sineEntry k

/-- M of a coil: its magnitude, and whether it is negative (Table: coil currents by quadrant). -/
def coilValue (s : State) (st : Nat) (b : Bool) : Nat × Bool :=
  let e := ((axisOf s st).pos % 1024).toNat
  let q := e / 256
  let k := e % 256
  let t := coilTable s st k
  let u := coilTable s st (255 - k)
  if b then (if q = 0 then (u, false) else if q = 1 then (t, true) else if q = 2 then (u, true) else (t, false))
  else (if q = 0 then (t, false) else if q = 1 then (u, false) else if q = 2 then (t, true) else (u, true))

/-- The current in force, in 1/1,023 of full scale: the run current while moving, IHOLD at rest. -/
def coilCurrent (s : State) (st : Nat) : Nat := if axisState s st = 2 then getF s AXS.STSTAT_IRUN st else getF s AXS.STCUR_IHOLD st

/-- The target current of a coil, in 1/1,024 of full scale. -/
def coilTarget (s : State) (st : Nat) (b : Bool) : Nat := (coilValue s st b).1 * coilCurrent s st * 1024 / (1023 * 1023)

/-- A channel whose axis drives its coils: on, and not stopped with HOLDSTOP 0. -/
def coilsDriven (s : State) (st : Nat) : Bool :=
  axisOn s st && isStepper s st && (axisState s st != 3 || flag s AXS.CFG_HOLDSTOP st)

/-- The OFS of a coil after a cycle (R397). -/
def adaptOfs (s : State) (st : Nat) (ofs : Int) (on : Nat) (early : Bool) : Int :=
  if !flag s AXS.STCHOP_ADAPT st then 0
  else if early then clampInt (-128) 127 (ofs - 1)
  else if 500 * Nat.max 1 (getF s AXS.STCHOP_TONMAX st) < on then clampInt (-128) 127 (ofs + 1)
  else ofs

/-- One chopper cycle of a coil: ns of its on phase and of its decay, and whether the comparator already reported the current
above the upper threshold as blanking ended (R396 to R399). With its bank off a coil is not driven, and its comparator never
reports a current above the threshold (R450). -/
def chopCycle (s : State) (st : Nat) (b : Bool) (on decay : Nat) (early : Bool) : State :=
  let target := coilTarget s st b
  if !coilsDriven s st || !bankOn s 5 then s
  else if target = 0 then sendPin s 5 (.coilOff st (bnat b))
  else
    let u := stepperOf s st
    let ofs := if !flag s AXS.STCHOP_ADAPT st then 0 else if b then u.ofsB else u.ofsA
    let half : Int := (Nat.max 1 (getF s AXS.STCHOP_HYST st) / 2 : Nat)
    let s := sendPin s 5 (.coil st (bnat b) (coilValue s st b).2 (target + half + ofs) (target - half + ofs))
    let on := Nat.max on (20 * getF s AXS.STCHOP_BLANK st)
    let decay := Nat.max decay (40 * getF s AXS.STCHOP_TOFF st)
    let share := 65536 * on / Nat.max 1 (on + decay)
    let ofs := adaptOfs s st ofs on early
    let shares := (share :: u.shares).take 256
    let u := if b then { u with ofsB := ofs, shares := shares } else { u with ofsA := ofs, shares := shares }
    let old := getF s AXS.STSTAT_LOAD st
    let load := 1023 * (shares.foldl (· + ·) 0) / (65536 * shares.length)
    let s := setF (setStepper s st u) AXS.STSTAT_LOAD load st
    let s := setF (setF s AXS.STSTAT_OFSA (unsign u.ofsA 8) st) AXS.STOFSB_OFSB (unsign u.ofsB 8) st
    let thr := getF s AXS.STLOAD_STALLTHR st
    if old < thr ∧ thr ≤ load ∧ aboveVadapt s st then
      let s := forEach [0, 6] (setF s AXS.STAT_STALL 1 st) (fun s f => raiseEvent s f 0x0702 st load)
      if flag s AXS.CFG_STALLSTOP st then stopAxis s st 3 else s
    else s

/-- The run current of a channel is recomputed (R398). -/
def irunUpdate (s : State) (st : Nat) : State :=
  if !axisOn s st || !isStepper s st then s
  else
    let hi := getF s AXS.STCUR_IRUN_MAX st
    let lo := Nat.min hi (getF s AXS.STCUR_IRUN_MIN st)
    if !aboveVadapt s st then setF s AXS.STSTAT_IRUN hi st
    else
      let llo := getF s AXS.STLVL_LLO st
      let lhi := Nat.max (llo + 1) (getF s AXS.STLVL_LHI st)
      let load := getF s AXS.STSTAT_LOAD st
      let want := lo + (hi - lo) * (Nat.min (lhi - llo) (load - llo)) / (lhi - llo)
      let now := getF s AXS.STSTAT_IRUN st
      setF s AXS.STSTAT_IRUN (if now ≤ want then Nat.min want (now + 15) else Nat.max want (now - 15)) st

/-- A store through the AXS.TBLIDX window is refused while the channel uses the table with its axis on (R395). -/
def tableRefused (s : State) (st table : Nat) : Bool := axisOn s st && isStepper s st && getF s AXS.STCFG_TBL st == table + 1

/-- AXS.TBLIDX.WR, where it is not refused. -/
def tableWrite (s : State) (st table k : Nat) : State :=
  let v := getF s AXS.TBLDATA_T
  let key := tableKey st table k
  { s with motion := { s.motion with tables := if v = sineEntry k then mdel s.motion.tables key else mput s.motion.tables key v } }

/-- AXS.TBLIDX.RD. -/
def tableRead (s : State) (st table k : Nat) : State := setF s AXS.TBLDATA_T (tableEntry s st table k)

end Sys2Proof.Machine
end

