-- ==== Sys2Proof/Machine/Markers.lean ====
section
/-!
DEFINITION. Measured triggers as other blocks read them, the role of the unit in a pair, and the marker outputs
(R110, R296, R301, R361).
-/

namespace Sys2Proof.Machine

/-- The last measured trigger of a group, where one has been measured (LDE.TRIG). -/
def lastTrigger (s : State) (g : Nat) : Option Nat := ((mget s.lode.tm g []).head?).map (fun e => e.1)

/-- Whether a group's last measured trigger has reached a line. -/
def triggerReached (s : State) (g : Nat) (n : Int) : Bool :=
  match lastTrigger s g with
  | some t => decide (n ≤ (t : Int))
  | none => false

/-- The measured time of a trigger, in 2^-16 ns, while the Lode keeps it. -/
def measuredTm (s : State) (g n : Nat) : Option Nat :=
  ((mget s.lode.tm g []).find? (fun e => e.1 == n)).map (fun e => e.2)

/-! Markers (R361). -/

/-- WIDTH of a marker in ns; 0 acts as 1. -/
def markWidth (s : State) (k : Nat) : Nat := Nat.max 1 (getF s TIM.MKCFG_WIDTH k) * 10000

/-- The instant of a mark for a measured trigger, in ns: Tm + DLY. -/
def markPoint (s : State) (k tm : Nat) : Nat := tm / 65536 + getF s TIM.MKDLY_DLY k * 1000

def pendingMarks (s : State) (k : Nat) : List Mark := mget s.time.marks k []
def setPendingMarks (s : State) (k : Nat) (l : List Mark) : State :=
  { s with time := { s.time with marks := mput s.time.marks k l } }
def setMarkHigh (s : State) (k : Nat) (m : Option Mark) : State :=
  { s with time := { s.time with markHigh := match m with | some m => mput s.time.markHigh k m | none => mdel s.time.markHigh k } }

/-- Inserts a mark in trigger order, equal triggers in placing order. -/
def insertMark : List Mark → Mark → List Mark
  | [], m => [m]
  | x :: r, m => if m.trigger < x.trigger then m :: x :: r else x :: insertMark r m

/-- Places a mark on a marker for a group line: pending until its trigger, at once where that has passed; the 257th is
merged into the latest (R361). -/
def placeMarker (s : State) (k line : Nat) (op : Option Nat) : State :=
  let n := line + getF s TIM.MKCFG_DIST k
  let ops := match op with | some o => [o] | none => []
  if triggerReached s (getF s TIM.MKCFG_GROUP k) n then
    let now := workNs s
    let m : Mark := match mfind s.time.markHigh k with
      | some h => { h with fall := some (now + markWidth s k), ops := h.ops ++ ops }
      | none => ⟨n, n, some now, some (now + markWidth s k), ops, true⟩
    let s := setMarkHigh (sendPin s 1 (.mark k true)) k (some { m with ops := [] })
    forEach ops s (fun s o => completeOp s o 0 1 0 now)
  else
    let l := pendingMarks s k
    if l.length < 256 then setPendingMarks s k (insertMark l ⟨n, n, none, none, ops, false⟩)
    else match l.getLast? with
      | none => s
      | some x =>
        let x' := if x.last < n then { x with last := n, fall := none, ops := x.ops ++ ops } else { x with ops := x.ops ++ ops }
        setF (setPendingMarks s k (l.dropLast ++ [x'])) TIM.ERR_MARK_MERGE 1

/-- A measured trigger fixes when the marks it times rise and fall. -/
def timeMarks (s : State) (g n tm : Nat) : State :=
  forEach ((upto 4).filter (fun k => getF s TIM.MKCFG_GROUP k == g)) s (fun s k =>
    let upd (m : Mark) : Mark :=
      let m := if m.trigger = n then { m with rise := some (markPoint s k tm) } else m
      if m.last = n then { m with fall := some (markPoint s k tm + markWidth s k) } else m
    let s := setPendingMarks s k ((pendingMarks s k).map upd)
    match mfind s.time.markHigh k with
    | some h => setMarkHigh s k (some (upd h))
    | none => s)

end Sys2Proof.Machine
end

