-- ==== Sys2Proof/Machine/Ledger.lean ====
section
/-!
DEFINITION. The page ledger: its records, the mirror and its flushing reads, spoil marks, GO_BACK runs, reject marks and
dispositions (R271 to R291, R305, R306). STATE of a frame is numbered as in Table: ledger record.
-/

namespace Sys2Proof.Machine

/-- The key of a frame: FSN × 4 + group. -/
def frameKey (g fsn : Nat) : Nat := 4 * fsn + g

def Frame.key (f : Frame) : Nat := frameKey f.group f.fsn

def frameAt (s : State) (key : Nat) : Option Frame := mfind s.ledger.frames key
def frameOf (s : State) (g fsn : Nat) : Option Frame := frameAt s (frameKey g fsn)

/-- Changes a frame. -/
def setFrame (s : State) (f : Frame) : State :=
  { s with ledger := { s.ledger with frames := mput s.ledger.frames f.key f } }

/-- The frames of a group in ascending FSN. -/
def groupFrames (s : State) (g : Nat) : List Frame := (s.ledger.frames.map (fun e => e.2)).filter (fun f => f.group == g)

/-- The next FSN of a group. -/
def nextFsn (s : State) (g : Nat) : Nat := getP s LDG.NEXTFSN g

/-- The last group line of a frame whose G0 is fixed. -/
def Frame.lastLine (f : Frame) : Option Nat := f.g0.map (fun g => g + f.lines - 1)

/-- Whether the frame has its disposition (R272). -/
def Frame.disposed (f : Frame) : Bool := decide (5 ≤ f.state)

/-- The 64 bytes of a ledger record, with the STATE it shows (Table: ledger record). -/
def recordBytes (f : Frame) (state : Nat) : List Byte :=
  toBytes 8 f.fsn ++ toBytes 8 f.jobref ++ toBytes 8 f.tAccept ++ toBytes 8 f.tFirst ++ toBytes 8 f.tDisp ++
  toBytes 8 f.pos ++ toBytes 8 f.crc64 ++ toBytes 4 f.lines ++ toBytes 2 f.linkback ++
  toBytes 1 (f.group + 4 * state + 32 * bnat f.released + 64 * bnat f.degraded + 128 * bnat f.reprint) ++
  toBytes 1 f.reason

/-- STATE and RELEASED as a frame's record in the rings shows them (Table: ledger record). -/
def Frame.recordedState (f : Frame) : Nat := bits (field f.record 62 1) 2 3
def Frame.recordedReleased (f : Frame) : Bool := bit (field f.record 62 1) 5

/-- The STATE a frame's record is written with: FIRING from its FIRING record on (R282). -/
def shownState (f : Frame) : Nat := if f.state = 3 ∧ f.flush = .firing then 4 else f.state

/-- Address of a frame's slot in ring copy `k`, 1 or 2 (R277). -/
def slotAddr (s : State) (k g fsn : Nat) : Nat := regionBase s k + 2 ^ 26 * g + 64 * (fsn % 2 ^ 20)

/-- Address of a frame's slot in the host mirror (R281). -/
def mirrorAddr (s : State) (g fsn : Nat) : Nat := getP s LDG.MIRBASE g / 4096 * 4096 + 64 * (fsn % 2 ^ 20)

/-- FSNs whose last record is not yet visible in the mirror, oldest write first (R283). -/
def lagOf (s : State) (g : Nat) : List Nat := mget s.ledger.lag g []
def setLag (s : State) (g : Nat) (l : List Nat) : State := { s with ledger := { s.ledger with lag := mput s.ledger.lag g l } }

/-- Whether mirror writes of a group leave: the mirror is enabled and PF0 is not disabled (R265, R281). -/
def mirrorOpen (s : State) (g : Nat) : Bool := flag s LDG.MIRCFG_EN g && !fnDisabled s 0

/-- Posts the record of the rings to the mirror where it is open. -/
def postMirror (s : State) (f : Frame) : State :=
  if mirrorOpen s f.group then hostWrite s 0 (mirrorAddr s f.group f.fsn) f.record else s

/-- Writes a frame's record to both rings, posts it to the mirror and, as the active of a pair, sends it to the standby
(R265, R272, R277, R281, R306). A standby writes only what the active's RECORD messages bring (R301). -/
def writeRecord (s : State) (f : Frame) : State :=
  if isStandby s then setFrame s f
  else
  let bs := recordBytes f (shownState f)
  let f := { f with record := bs, mirrored := (lagOf s f.group).isEmpty }
  let s := if mireLocked s then engineWrite (engineWrite s (slotAddr s 1 f.group f.fsn) bs) (slotAddr s 2 f.group f.fsn) bs else s
  let s := setLag s f.group ((lagOf s f.group).filter (fun n => n != f.fsn) ++ [f.fsn])
  let s := postMirror s f
  if isActive s then
    twinSend (setFrame s { f with partnerHas := false }) (.record bs)
  else setFrame s f

/-- Issues the flushing read of a frame's slot: 8 bytes of PF0 (R281). -/
def flushRead (s : State) (f : Frame) : State :=
  if mirrorOpen s f.group then send s (.hostRead 0 (mirrorAddr s f.group f.fsn) 8) else s

/-- Writes a frame's record and starts the flushing read its next transition needs. -/
def writeVisible (s : State) (f : Frame) (w : Flush) : State :=
  let f := { f with flush := w, flushDone := false, flushBad := false }
  flushRead (writeRecord s f) f

/-- OLDEST becomes the lowest FSN not yet RELEASED (R277). -/
def updateOldest (s : State) (g : Nat) : State :=
  let o := match (groupFrames s g).find? (fun f => !f.released) with
    | some f => f.fsn
    | none => nextFsn s g
  setP s LDG.OLDEST o g

/-- Raises an event on PF0 and on a group's function. -/
def groupEvent (s : State) (g code aux value : Nat) : State := raiseEvent (raiseEvent s 0 code aux value) (g + 1) code aux value

/-! Reject marks (R288). -/

/-- Lines of a frame that have entered the Hummock logic on a channel. -/
def Frame.enteredOn (f : Frame) (c : Nat) : Nat := mget f.entered c 0

/-- Places the reject mark of a frame whose G0 is fixed: a stripe while its line has not entered the Hummock logic, and a
marker pulse otherwise (R288). Only the unit with authority pulses a marker (R307). -/
def placeReject (s : State) (f : Frame) : State :=
  match f.g0 with
  | none => s
  | some g0 =>
    let g := f.group
    let m := Nat.min (getF s LDG.MARKCFG_MLINE g) (f.lines - 1)
    let c := rowChannel s (getF s LDG.MARKCFG_ROW g)
    if flag s LDG.MARKCFG_STRIPE g ∧ getF s LDG.MARKCFG_SLEV g ≠ 0 ∧ f.enteredOn c ≤ m then
      setFrame s { f with stripes := f.stripes ++ [(g0 + m, Nat.min (g0 + m + 15) (g0 + f.lines - 1), none)] }
    else if authority s then
      let k := getF s LDG.MARKCFG_MARKER g
      let late := triggerReached s (getF s TIM.MKCFG_GROUP k) (g0 + m + getF s TIM.MKCFG_DIST k : Nat)
      let s := placeMarker s k (g0 + m) none
      if late then setF s LDG.ERR_MARK_LATE 1 else s
    else s

/-- Whether a stripe of a frame has fired: the designated row has no row-line of its lines still to stamp, and every SEQ built for
them is settled (R243, R274). -/
def stripeFired (s : State) (f : Frame) (first last : Nat) : Bool :=
  let r := getF s LDG.MARKCFG_ROW f.group
  let d := getF s LDE.ROWDLY_LINES r
  let waits (h : HeldLine) : Bool := h.frame == f.key && h.row == r && decide (first ≤ h.line) && decide (h.line ≤ last)
  decide (last < f.g0.getD 0 + f.enteredOn (rowChannel s r)) && !s.lode.hold.any waits &&
  !(mget s.print.segments (rowChannel s r) []).any waits &&
  f.openSeqs.all (fun q => q.settled || q.row != r || decide (q.trigger < first + d) || decide (last + d < q.trigger))

/-- The MARKs whose stripes have fired complete (R243). -/
def markFired (s : State) (key : Nat) : State :=
  match frameAt s key with
  | none => s
  | some f =>
    let fired := f.stripes.filter (fun t => t.2.2.isSome && stripeFired s f t.1 t.2.1)
    if fired = [] then s
    else
      let s := setFrame s { f with stripes := f.stripes.map (fun t => if fired.contains t then (t.1, t.2.1, none) else t) }
      forEach (fired.filterMap (fun t => t.2.2)) s (fun s o => completeOp s o 0 0 0 (workNs s))

/-! Dispositions (R272, R276). -/

/-- A frame short of FIRING, or one that a rule ends at once, takes its disposition; its record waits its turn. An acceptance that
is not yet visible goes on becoming so, since its FACCEPT completes then (R229). -/
def dispose (s : State) (f : Frame) (state reason : Nat) : State :=
  let accepting : Bool := f.flush == .accepted
  setFrame s { f with
    state := state
    reason := reason
    tDisp := workNs s
    met := true
    flush := if accepting then .accepted else .none
    flushDone := accepting && f.flushDone }

/-- The counter LDG.CNT of a disposition. -/
def countDisposition (s : State) (f : Frame) : State :=
  let s := incF s LDG.CNT (4 * f.group + (f.state - 5))
  if f.state = 5 ∧ f.degraded then incF s LDG.CNT (4 * f.group + 3) else s

/-- Records one disposition: its record is written and its flushing read starts (R276). -/
def recordOne (s : State) (f : Frame) : State :=
  let f :=
    if f.state = 4 then
      match f.mark with
      | some m => { f with state := 6, reason := m.reason }
      | none => { f with state := 5, reason := 0 }
    else f
  let f := { f with recorded := true }
  let s := countDisposition (writeVisible s f .disposition) f
  if f.state = 6 then groupEvent s f.group 0x0105 (f.group + 256 * f.reason) f.fsn else s

/-- Whether a group halts at a slot below an FSN (R291). -/
def haltedBelow (s : State) (g fsn : Nat) : Bool := getF s LDG.STAT_STATE g == 2 && decide (getP s LDG.HALTFSN g < fsn)

/-- Records, in ascending FSN order, every disposition whose turn has come (R276). A unit without authority records none. -/
def recordDispositions (s : State) (g : Nat) : State :=
  if authority s then
    ((groupFrames s g).foldl (fun (p : Bool × State) f =>
      if !p.1 then p
      else if f.recorded then p
      else if (f.disposed || (f.state == 4 && f.met)) && !(getF s LDG.STAT_STATE g == 2 && f.fsn == getP s LDG.HALTFSN g) then
        (true, recordOne p.2 ((frameAt p.2 f.key).getD f))
      else (false, p.2)) (true, s)).2
  else s

/-! Spoil marks and runs (R273, R285). -/

/-- The effect of opening or extending a run at a frame, on one frame above it (R285). -/
def goBackFrame (s : State) (f : Frame) : State :=
  if f.disposed || f.recorded then s
  else if f.state = 4 then
    let m : SpoilMark := ⟨0x10, workNs s⟩
    let f' := { f with mark := some (f.mark.getD m), blank := true, tDisp := if f.met ∧ f.mark = none then m.time else f.tDisp }
    if f.mark = none then placeReject (setFrame s f') f' else setFrame s f'
  else if f.state = 3 then
    let s := dispose s f 6 0x10
    placeReject s ((frameAt s f.key).getD f)
  else dispose s f 7 0x10

/-- Whether a frame of a group has an accepted reprint; a FACCEPT that was cancelled accepted none (Table: disposition reasons). -/
def reprinted (s : State) (g fsn : Nat) : Bool :=
  (groupFrames s g).any (fun p => p.reprint && p.fsn == fsn + p.linkback && p.reason != 0x15)

/-- Frames a run leaves to be reprinted (R286). -/
def lackingFrom (s : State) (g first : Nat) : List Nat :=
  ((groupFrames s g).filter (fun f => decide (first ≤ f.fsn) && !reprinted s g f.fsn &&
    ((f.state == 4 && f.mark.isSome) || f.state == 6 || (f.state == 7 && f.reason == 0x10)))).map (fun f => f.fsn)

/-- Opens a run at a frame, or extends the open run to it (R285). -/
def openRun (s : State) (g fsn : Nat) : State :=
  let old := mfind s.ledger.runs g
  let s := forEach ((groupFrames s g).filter (fun f => decide (fsn < f.fsn))) s (fun s f =>
    match frameAt s f.key with | some f => goBackFrame s f | none => s)
  let first := match old with | some r => Nat.min r.first fsn | none => fsn
  let lacking := (match old with | some r => r.lacking.filter (fun n => decide (n < fsn)) | none => []) ++ lackingFrom s g fsn
  let s := { s with ledger := { s.ledger with runs := mput s.ledger.runs g ⟨first, nextFsn s g - 1, lacking⟩ } }
  let s := setF (setP (setP s LDG.GBFROM first g) LDG.GBTO (nextFsn s g - 1) g) LDG.STAT_GOBACK 1 g
  groupEvent s g 0x0101 g first

/-- Closes a run (R286). -/
def closeRun (s : State) (g : Nat) : State :=
  setF { s with ledger := { s.ledger with runs := mdel s.ledger.runs g } } LDG.STAT_GOBACK 0 g

/-- A frame that a run covers and that is not a reprint accepted since (R285). -/
def inRun (s : State) (g fsn : Nat) : Bool :=
  match mfind s.ledger.runs g with
  | some r => decide (r.first ≤ fsn) && decide (fsn ≤ r.last)
  | none => false

/-- What a spoiled frame does to the group under its policy (R285, R287). -/
def applyPolicy (s : State) (g fsn : Nat) : State :=
  if flag s LDG.POLICY_APPEND g ∨ inRun s g fsn then s else openRun s g fsn

/-- Sets a spoil mark on a FIRING frame: the first reason is kept, the reject mark is placed and the policy acts
(R273, R285, R288). In a pair the active alone marks (R301). -/
def markSpoil (s : State) (key reason : Nat) : State :=
  match frameAt s key with
  | none => s
  | some f =>
    if !authority s || f.state != 4 || f.recorded || f.mark.isSome then s
    else
      let t := workNs s
      let f := { f with mark := some ⟨reason, t⟩, tDisp := if f.met then t else f.tDisp }
      let s := placeReject (setFrame s f) f
      applyPolicy s f.group f.fsn

/-- A spoil mark that a pair does not set, because the partner's copy serves (Table: local shortfalls in a pair). -/
def markLocal (s : State) (key reason : Nat) : State := if inPair s then s else markSpoil s key reason

/-- An ARMED frame becomes SPOILED (R275), and opens a run where its reason is RELEASE_LATE (R285). -/
def spoilArmed (s : State) (f : Frame) (reason : Nat) : State :=
  let s := dispose s f 6 reason
  let s := placeReject s ((frameAt s f.key).getD f)
  let s := if reason = 0x11 then applyPolicy s f.group f.fsn else s
  recordDispositions s f.group

/-- Withdraws a frame that is ACCEPTED, STAGED or ARMED (R272). -/
def withdraw (s : State) (f : Frame) (reason : Nat) : State := recordDispositions (dispose s f 7 reason) f.group

/-! Release and RELEASE_LATE (R282). -/

/-- The first line of a frame at which its FIRING record starts: G0 − OPEN − PRELEAD, OPEN below 64 acting as 64. -/
def openLines (s : State) (g : Nat) : Nat := Nat.max 64 (getF s LDE.PGLEAD_OPEN g)

/-- Starts the FIRING record of an ARMED frame that its trigger has reached, in FSN order (R282). -/
def startFiring (s : State) (g : Nat) : State :=
  if !authority s || getF s LDG.STAT_STATE g != 0 || flag s LDG.STAT_RECOVERING g then s
  else forEach ((groupFrames s g).filter (fun f => f.state == 3 && decide (f.flush = .none))) s (fun s f =>
    match f.g0 with
    | none => s
    | some g0 =>
      if triggerReached s g ((g0 : Int) - openLines s g - getF s LDG.CFG_PRELEAD) then
        writeVisible s ((frameAt s f.key).getD f) .firing
      else s)

/-- An ARMED frame whose G0 the trigger has reached becomes SPOILED with RELEASE_LATE (R282); in a pair the partner's
copy serves and it is not spoiled (R305). -/
def releaseLate (s : State) (g : Nat) : State :=
  if !authority s || inPair s then s
  else forEach ((groupFrames s g).filter (fun f => f.state == 3)) s (fun s f =>
    match frameAt s f.key, f.g0 with
    | some f, some g0 =>
      if f.state = 3 ∧ triggerReached s g g0 then setF (spoilArmed s f 0x11) LDG.ERR_RELEASE_LATE 1 else s
    | _, _ => s)

/-! What becomes of a record once it is visible. -/

/-- Whether a frame's awaited record is visible: its flushing read has returned, and in a pair the standby holds it
(R272, R306). -/
def Frame.visible (s : State) (f : Frame) : Bool := f.flushDone && (f.partnerHas || !isActive s)

/-- A frame is RELEASED: its band references end, and its RELEASED bit goes to the rings and the mirror (R276). -/
def releaseFrame (s : State) (f : Frame) (report : Bool) : State :=
  let f := { f with released := true, flush := .none, flushDone := false }
  let s := writeRecord s f
  let s := { s with lode := { s.lode with hold := s.lode.hold.filter (fun h => h.frame != f.key) } }
  let s := { s with dlk := { s.dlk with replay := s.dlk.replay.filter (fun r =>
    match r.cargo with | .data k .. => k != f.key | .ctrl .. => true) } }
  updateOldest (endFrameRefs s f.key report) f.group

/-- The transition whose record is now visible takes effect (R272). Releases of one group follow FSN order (R282); while it
halts, no frame is released to the Lode, and none from the unknown slot on becomes RELEASED (R291). -/
def takeVisible (s : State) (key : Nat) : State :=
  match frameAt s key with
  | none => s
  | some f =>
    if !f.visible s then s
    else match f.flush with
      | .none => s
      | .accepted =>
        let s := setFrame s { f with flush := .none, flushDone := false, op := none }
        (match f.op with | some o => completeOp s o 0 0 0 f.fsn | none => s)
      | .firing =>
        if f.state = 3 ∧ getF s LDG.STAT_STATE f.group ≠ 2 ∧
            ¬ (groupFrames s f.group).any (fun p => decide (p.fsn < f.fsn) && p.state == 3) then
          setFrame s { f with state := 4, flush := .none, flushDone := false, firingHeld := f.partnerHas }
        else s
      | .disposition =>
        if haltedBelow s f.group (f.fsn + 1) then s
        else
        let s := setFrame s { f with op := none }
        let s := match f.op with | some o => completeOp s o 0 0 0 f.fsn | none => s
        let f := (frameAt s key).getD f
        if f.released then setFrame s { f with flush := .none, flushDone := false } else releaseFrame s f true

/-- A flushing read returns: the right FSN makes the record, and those written before it, visible; anything else is a
mirror fault, reported once and repeated later (R281). -/
def flushReturn (s : State) (g fsn : Nat) (w : Flush) (reply : HostReply) : State :=
  match frameOf s g fsn with
  | none => s
  | some f =>
    if f.flush ≠ w ∨ f.flushDone ∨ f.flushBad ∨ !mirrorOpen s g then s
    else
      let good := match reply with | .data bs => field bs 0 8 == fsn % 2 ^ 64 | .failed => false
      if good then
        let l := lagOf s g
        let s := setLag s g (if l.contains fsn then (l.dropWhile (fun n => n != fsn)).drop 1 else l)
        let s := { s with ledger := { s.ledger with faultRaised := mput s.ledger.faultRaised g false } }
        let s := takeVisible (setFrame s { f with flushDone := true }) f.key
        forEach ((groupFrames s g).filter (fun p => p.flushDone)) s (fun s p => takeVisible s p.key)
      else
        let s := setF (setFrame s { f with flushBad := true }) LDG.ERR_MIRROR 1
        if mget s.ledger.faultRaised g false then s
        else raiseEvent { s with ledger := { s.ledger with faultRaised := mput s.ledger.faultRaised g true } } 0 0x0104 g fsn

/-- Rewrites the slot of a failed flushing read and repeats the read (R281). -/
def flushRetry (s : State) (g fsn : Nat) : State :=
  match frameOf s g fsn with
  | none => s
  | some f =>
    if f.flushBad ∧ mirrorOpen s g then
      let f := { f with flushBad := false }
      flushRead (postMirror (setFrame s f) f) f
    else s

/-- When the mirror opens again: the lagging records are written in ring order, and pending flushing reads are issued
(R265, R289). -/
def flushLag (s : State) (g : Nat) : State :=
  if mirrorOpen s g then
    let s := forEach (lagOf s g) s (fun s n => match frameOf s g n with | some f => postMirror s f | none => s)
    forEach ((groupFrames s g).filter (fun f => decide (f.flush ≠ .none) && !f.flushDone)) s (fun s f => flushRead s f)
  else s

/-! Commit and spoil of FIRING frames (R274, R275). -/

/-- Whether every row-line of every line of a frame is stamped, suppressed or blanked. -/
def linesDone (s : State) (f : Frame) : Bool :=
  f.openRows == 0 && (groupChannels s f.group).all (fun c => decide (f.lines ≤ f.enteredOn c))

/-- A FIRING frame meets its condition (R274, R275); its disposition follows in FSN order (R276). -/
def meetCondition (s : State) (f : Frame) : State := recordDispositions (setFrame s { f with met := true, tDisp := workNs s }) f.group

/-- Whether an unmarked frame may be COMMITTED (R274). -/
def commitReady (s : State) (f : Frame) : Bool :=
  f.state == 4 && !f.met && f.mark.isNone && linesDone s f && f.openSeqs.all (fun q => q.settled) &&
  f.stagings.all (fun b => b.verdict == some true) && (f.firingHeld || !isActive s)

/-- Whether a marked frame may be SPOILED (R275). -/
def spoilReady (s : State) (f : Frame) : Bool :=
  f.state == 4 && !f.met && f.mark.isSome && linesDone s f && f.openSeqs.all (fun q => q.settled)

/-- Content CRC-64 of a frame's stagings (R280). -/
def contentCrc (f : Frame) : Nat :=
  crc64 (f.stagings.flatMap (fun b => toBytes 4 b.crc ++ toBytes 4 b.ulen ++ toBytes 4 b.first ++ toBytes 1 b.plane ++
    toBytes 1 b.ch ++ toBytes 2 0))

/-! Local effects of frames on bands. -/

/-- Marks every FIRING frame a band serves (R60). -/
def markBandFrames (s : State) (h reason : Nat) : State :=
  forEach ((groupFrames s 0 ++ groupFrames s 1 ++ groupFrames s 2 ++ groupFrames s 3).filter
    (fun f => f.stagings.any (fun b => b.band == h))) s (fun s f => markSpoil s f.key reason)

end Sys2Proof.Machine
end

