-- ==== Sys2Proof/Machine/Space.lean ====
section
/-!
DEFINITION. Address spaces: where a device address lies, which stores its owner accepts, and what an engine reads and writes
there (R197 to R201, R82, R90, R95, R124, R181, R308).
-/

namespace Sys2Proof.Machine

/-- The regions of Table: device address map. -/
inductive Space where
  | sdram | map | matrix | dyke | mere | sedge | cprog | cdata | rimem | rdmem | regs | host | hole
  deriving DecidableEq, Repr

/-- Whether SDRAM requests proceed: the controller runs and no frequency change holds them (R333, R335). -/
def memUp (s : State) : Bool := getF s MEM.STAT_STATE == 2 && !flag s MEM.FREQ_BUSY

/-- Installed capacity in bytes; until training first completes every address below 512 GiB is SDRAM (R197, R335). -/
def sdramTop (s : State) : Nat := if getF s MEM.CAP_GIB = 0 then 512 * 2 ^ 30 else getF s MEM.CAP_GIB * 2 ^ 30

/-- Whether an address lies in a range. -/
def inRange (a lo hi : Nat) : Bool := decide (lo ≤ a) && decide (a ≤ hi)

/-- The region of an address below 2^48. -/
def spaceOf (s : State) (a : Nat) : Space :=
  if 2 ^ 47 ≤ a then .host
  else if a < sdramTop s then .sdram
  else if inRange a 0x7F0000000000 0x7F000033FFFF then .map
  else if inRange a 0x7F0000400000 0x7F0000400FFF then .matrix
  else if inRange a 0x7F0000440000 0x7F0000451FFF then .dyke
  else if inRange a 0x7F0000600000 0x7F0000680A3F then .mere
  else if inRange a 0x7F0001000000 0x7F00014087FF then .sedge
  else if inRange a 0x7F0002000000 0x7F00021FFFFF then .cprog
  else if inRange a 0x7F0002400000 0x7F00024FFFFF then .cdata
  else if inRange a 0x7F0003000000 0x7F00033FFFFF then (if a / 0x10000 % 2 = 0 then .rimem else .rdmem)
  else if inRange a 0x7FF000000000 0x7FF003FFFFFF then .regs
  else .hole

/-- The address the own-memory alias stands for on a core; none in the rest of the alias (R198). -/
def resolveAlias (k a : Nat) : Option Nat :=
  if inRange a 0x7F0007FE0000 0x7F0007FFFFFF then
    if isThread k then
      (if inRange a 0x7F0007FF0000 0x7F0007FF7FFF then some (0x7F0002400000 + 0x8000 * k + (a - 0x7F0007FF0000)) else none)
    else some (0x7F0003000000 + 0x20000 * (k - 16) + (a - 0x7F0007FE0000))
  else some a

/-- TABSUM takes in an accepted store: its device address and zero-extended value (R308). -/
def tabsumAdd (s : State) (a v : Nat) : State :=
  setP s TWN.TABSUM ((getP s TWN.TABSUM + crc32c (toBytes 8 a ++ toBytes 8 v)) % 2 ^ 64)

/-! Stores that an owning chapter judges. Each takes an address, a size in bytes and a value. -/

/-- Whether a size and an address make an aligned 16-, 32- or 64-bit access. -/
def aligned16 (a n : Nat) : Bool := (n == 2 || n == 4 || n == 8) && a % n == 0

/-- Whether some Lode of a list of channels runs. -/
def anyRuns (s : State) (cs : List Nat) : Bool := cs.any (lodeRuns s)

/-- Stores the little-endian bytes of a value. -/
def putNat (s : State) (a n v : Nat) : State := putBytes s a (toBytes n v)

/-- A discarded Sedge store, of a bad width or alignment or into storage in use: the first is recorded, a later one sets
MULTI (R82). -/
def sedgeDiscard (s : State) (a : Nat) (bad used : Bool) : State :=
  let again := flag s SDG.ERR_INUSE_WR || flag s SDG.ERR_WIDTH
  let s := if bad then setF s SDG.ERR_WIDTH 1 else s
  let s := if used then setF s SDG.ERR_INUSE_WR 1 else s
  if again then setF s SDG.ERR_MULTI 1 else setP s SDG.ERRADDR a

/-- Whether Sedge storage is in use: by a bank ACTIVE, PENDING, or replaced with lines of it still in Sedge (R82, R84, R86). -/
def sedgeInUse (s : State) (a : Nat) : Bool :=
  let live (c b : Nat) : Bool :=
    lodeRuns s c && (getF s SDG.CHSTAT_ACTIVE c == b || (flag s SDG.CHSTAT_PENDING c && getF s SDG.CHSTAT_PBANK c == b) ||
      (mget s.print.sedge c []).any (fun l => l.bank == b))
  if a < 0x7F0001400000 then
    let k := (a - 0x7F0001000000) / 0x20000
    (upto 8).any (fun c => (upto 2).any (fun b => live c b && (upto 4).any (fun i => getF s SDG.SCRMAP_SLOT (8 * c + 4 * b + i) == k)))
  else
    let i := if a < 0x7F0001408000 then (a - 0x7F0001400000) / 512 else (a - 0x7F0001408000) / 32
    live (i / 8) (i / 4 % 2)

/-- The bits Sedge storage keeps of each byte: linearisation entries keep 12 bits and entry 0 none, split words their fields
(R73, R81). -/
def sedgeMask (a : Nat) : Nat :=
  if a < 0x7F0001400000 then 0xFF
  else if a < 0x7F0001408000 then (if a % 512 < 2 then 0 else if a % 2 = 0 then 0xFF else 0x0F)
  else if a % 32 / 4 = 7 then (if a % 4 = 0 then 0x07 else 0)
  else nth [0xFF, 0x0F, 0x07, 0] (a % 4)

/-- Stores bytes through a mask of kept bits. -/
def putMasked (s : State) (mask : Nat → Nat) (a n v : Nat) : State :=
  putBytes s a (((toBytes n v).zip (upto n)).map (fun e => e.1 &&& BitVec.ofNat 8 (mask (a + e.2))))

/-- Whether a store of two bytes falls on entry 0 of a linearisation table, which keeps nothing (R73). -/
def linZero (a n : Nat) : Bool := inRange a 0x7F0001400000 0x7F0001407FFF && a % 512 == 0 && n == 2

/-- A store to Sedge storage (R73, R82). -/
def sedgeStore (s : State) (a n v : Nat) : State :=
  let bad := !aligned16 a n
  let used := sedgeInUse s a || sedgeInUse s (a + n - 1)
  if bad || used then sedgeDiscard s a bad used
  else if linZero a n then s
  else tabsumAdd (putMasked s sedgeMask a n v) a v

/-- A store to the blend matrix (R95). -/
def matrixStore (s : State) (a n v : Nat) : State :=
  if a % n = 0 ∧ !anyRuns s (upto 8) then tabsumAdd (putNat s a n v) a v else setF s HMK.ERR_MATRIX_WR 1

/-- Whether the Lodes that own a Dyke entry are stopped (R124). -/
def dykeFree (s : State) (a : Nat) : Bool :=
  if a < 0x7F0000450000 then
    let h := headAt s ((a - 0x7F0000440000) / 16)
    !h.valid || !lodeRuns s (rowChannel s h.row)
  else
    let d := (a - 0x7F0000450000) / 8
    !((heads s).any (fun e => e.2.dgroup == d && lodeRuns s (rowChannel s e.2.row)))

/-- The bits the Dyke tables keep: coef(h, 0) and the reserved byte of CEIL hold 0. -/
def dykeMask (a : Nat) : Nat :=
  if a < 0x7F0000450000 then (if a % 16 < 2 then 0 else 0xFF) else (if a % 8 = 3 then 0 else 0xFF)

/-- A store to the Dyke tables (R124). A store to coef(h, 0) alone is a discarded store. -/
def dykeStore (s : State) (a n v : Nat) : State :=
  if aligned16 a n && dykeFree s a && !(decide (a < 0x7F0000450000) && a % 16 == 0 && n == 2) then
    tabsumAdd (putMasked s dykeMask a n v) a v
  else if flag s LDE.ERR_DYK_WR then setF s LDE.ERR_MULTI 1
  else setP (setF s LDE.ERR_DYK_WR 1) LDE.ERRADDR a

/-- Whether an address lies in the VOL table. -/
def inVol (a : Nat) : Bool := inRange a 0x7F0000680A00 0x7F0000680A3F

/-- The bits Mere's tables keep: DEN code 0 and VOL v = 0 read 0 (Table: Mere storage). -/
def mereMask (a : Nat) : Nat :=
  if inRange a 0x7F0000680800 0x7F000068097F then (if (a - 0x7F0000680800) / 2 % 8 = 0 then 0 else 0xFF)
  else if inRange a 0x7F0000680980 0x7F00006809FF then 0
  else if inVol a then (if a % 8 = 0 then 0 else 0xFF)
  else 0xFF

/-- A store to Mere's tables (R181). -/
def mereStore (s : State) (a n v : Nat) : State :=
  if (aligned16 a n || (n == 1 && inVol a)) && !flag s MER.CAMCFG_EN 0 && !flag s MER.CAMCFG_EN 1 then putMasked s mereMask a n v
  else setF s MER.ERR_SRAM_WR 1

/-- Whether stores to an address of SDRAM are refused: a Mire region other than USER while Mire is locked (R199). -/
def mireRefused (s : State) (a : Nat) : Bool :=
  match regionOf s a with
  | some k => k != 8
  | none => false

/-- Whether a buffer in SDRAM meets a Mire region other than USER. -/
def meetsMire (s : State) (a n : Nat) : Bool :=
  mireLocked s && (upto 8).any (fun k =>
    decide (a < regionBase s k + regionSize s k) && decide (regionBase s k < a + n))

/-- Whether a buffer outside SDRAM lies in one region of the device map; a Reed core's memories follow one another. -/
def inOneSpace (s : State) (a n : Nat) : Bool :=
  let last := a + n - 1
  let core (x : Space) : Bool := x == .rimem || x == .rdmem
  spaceOf s last == spaceOf s a || (core (spaceOf s last) && core (spaceOf s a))

/-! Reads of host memory: how they are split, and the pool they draw on (R48, R246, R248, R268). -/

/-- The maximum read request size of a function, as its Device Control register sets it. -/
def maxRead (s : State) (f : Nat) : Nat := 2 ^ (7 + (fnOf s f).config.readRequest.val)

/-- The reads of a source, each within one maximum read request `m` and one 4 KiB page: offset and length. -/
def splitReads (m src : Nat) : Nat → Nat → Nat → List (Nat × Nat)
  | 0, _, _ => []
  | k + 1, off, left =>
    if left = 0 then []
    else
      let n := Nat.min left (m - (src + off) % m)
      (off, n) :: splitReads m src k (off + n) (left - n)

/-- The reads of `n` bytes at a bus address of a function. -/
def readsOf (s : State) (f a n : Nat) : List (Nat × Nat) := splitReads (maxRead s f) a (n / maxRead s f + 2) 0 n

/-- Sends the reads of `n` bytes at a bus address. -/
def sendReads (s : State) (f a n : Nat) : State :=
  forEach (readsOf s f a n) s (fun s r => send s (.hostRead f (a + r.1) r.2))

/-- The classes of outstanding reads (Table: reserved credits). -/
inductive ReadClass where
  | ledger | fetch | load | bulk
  deriving DecidableEq, Repr

/-- Outstanding reads: class, function and how many. The ledger keeps at most its 16 reserved reads outstanding, and a program
block is read one request at a time, so that no class but bulk traffic leaves its reserved share. -/
def outstandingReads (s : State) : List (ReadClass × Nat × Nat) :=
  let flushing := (s.ledger.frames.filter (fun e => e.2.flush != .none && !e.2.flushDone && !e.2.flushBad && mirrorOpen s e.2.group)).length
  let loads := (upto 48).filterMap (fun k => match (coreOf s k).stall with
    | .hostLoad _ _ _ _ | .hostFence | .storeFence => if fnDisabled s (hostFn s k) then none else some (.load, hostFn s k, 1)
    | _ => none)
  let fetches := (upto 64).filterMap (fun q => match (queueOf s q).entry with
    | some e => if e.placed && !e.started && !fnDisabled s (getF s PCI.QCFG_FN q) then some (.fetch, getF s PCI.QCFG_FN q, 1) else none
    | none => none)
  let gone := s.host.stale.map (fun o => match o with
    | .band _ _ => (ReadClass.bulk, 8, 1)
    | .load _ => (.load, 8, 1)
    | .program _ => (.fetch, 8, 1))
  (.ledger, 0, Nat.min 16 flushing) :: (loads ++ fetches ++ s.intake.bands.map (fun e => (.bulk, e.2.fn, e.2.outstanding.length)) ++ gone)

/-- PCIe reads outstanding (PCI.RDPOOL). -/
def readsOut (s : State) : Nat := ((outstandingReads s).map (fun e => e.2.2)).sum

/-- Reads that bulk traffic of a function may add: what is left of the shared 624, of which zone Z1 at THROTTLE leaves half (Table:
thermal zones), and, while the function has no 10-bit tags, of its 256 less the 144 that its other reads may need. -/
def bulkRoom (s : State) (f : Nat) : Nat :=
  let bulk (p : Nat → Bool) : Nat := (((outstandingReads s).filter (fun e => e.1 == .bulk && p e.2.1)).map (fun e => e.2.2)).sum
  let left := (if 2 ≤ getF s THM.ZSTAT_LEVEL 1 then 312 else 624) - bulk (fun _ => true)
  if (fnOf s f).config.tag10 then left else Nat.min left (112 - bulk (· == f))

/-- A completion of a read whose requester has gone is discarded, and its pool entry is free (R264); none where no such read is out. -/
def discardStale (s : State) (o : ReadOwner) : Option State :=
  if s.host.stale.contains o then some { s with host := { s.host with stale := s.host.stale.erase o } } else none

/-! Engines: descriptors, records, copies. -/

/-- The PCIe bus address of a host-window address (R201). -/
def busAddr (hwin a : Nat) : Nat := hwin * 2 ^ 47 + a % 2 ^ 47

/-- What an engine reads: bytes, poison, a failed read or no region, or nothing yet. -/
inductive Fetched where
  | bytes (bs : List Byte)
  | poison
  | failed
  | waits
  deriving DecidableEq, Repr

/-- An engine's read of `n` bytes, by the function and window given; a read of the host window is answered by `reply`. -/
def engineRead (s : State) (fn hwin a n : Nat) (reply : HostReply) : Fetched × State :=
  if 2 ^ 48 ≤ a then (.failed, s)
  else match spaceOf s a with
    | .host =>
      if fnDisabled s fn then (.waits, s)
      else
      let s := sendReads s fn (busAddr hwin a) n
      (match reply with | .data bs => (.bytes (slice bs 0 n), s) | .failed => (.failed, s))
    | .hole | .regs | .sedge => (.failed, s)
    | .sdram =>
      if !memUp s then (.waits, s)
      else if poisoned s a n then (.poison, s)
      else if sdramTop s < a + n then (.failed, s)
      else (.bytes (loadBytes s a n), accessRange s a n)
    | _ => (if inOneSpace s a n then .bytes (loadBytes s a n) else .failed, s)

/-- Whether an engine may write a buffer: the host window, data memories, the USER region or unassigned SDRAM, and the tables
that judge their own stores. -/
def destOpen (s : State) (a n : Nat) : Bool :=
  decide (a + n ≤ 2 ^ 48) && (match spaceOf s a with
    | .host => true
    | .sdram => !meetsMire s a n && decide (a + n ≤ sdramTop s)
    | .hole | .regs | .cprog | .rimem | .sedge => false
    | .rdmem => a / 0x10000 == (a + n - 1) / 0x10000
    | _ => inOneSpace s a n)

/-- Table stores of a buffer, 64 bits at a time where the buffer is aligned and byte by byte at its ends. -/
def tableStores (f : State → Nat → Nat → Nat → State) : Nat → State → Nat → List Byte → State
  | 0, s, _, _ => s
  | _ + 1, s, _, [] => s
  | k + 1, s, a, b :: r =>
    if a % 8 = 0 ∧ 7 ≤ r.length then tableStores f k (f s a 8 (field (b :: r) 0 8)) (a + 8) ((b :: r).drop 8)
    else if a % 2 = 0 ∧ 1 ≤ r.length then tableStores f k (f s a 2 (field (b :: r) 0 2)) (a + 2) ((b :: r).drop 2)
    else tableStores f k (f s a 1 b.toNat) (a + 1) r

/-- An engine's write of a buffer. -/
def engineStore (s : State) (fn hwin a : Nat) (bs : List Byte) : State :=
  match spaceOf s a with
  | .host => hostWrite s fn (busAddr hwin a) bs
  | .sdram => engineWrite s a bs
  | .cdata | .rdmem => putBytes s a bs
  | .matrix => tableStores matrixStore bs.length s a bs
  | .dyke => tableStores dykeStore bs.length s a bs
  | .mere => tableStores mereStore bs.length s a bs
  | .map => setF s HMK.ERR_MAP_WR 1
  | _ => s

/-- Whether a completion record may lie at an address (R222). -/
def recordOpen (s : State) (a : Nat) : Bool :=
  a % 16 == 0 && (match spaceOf s a with
    | .cdata | .rdmem => true
    | .sdram => regionOf s a == some 8
    | _ => false)

end Sys2Proof.Machine
end

