-- ==== Sys2Proof/Machine/Loops.lean ====
section
/-!
DEFINITION. The loop engines, the PWM outputs, the capture engines and the sensor ports (R400 to R411, R241).
-/

namespace Sys2Proof.Machine

/-! Q16.16 (R400). -/

/-- Saturates to the Q16.16 range, and says whether it did. -/
def satQ (v : Int) : Int × Bool :=
  let r := clampInt (-(2 ^ 31)) (2 ^ 31 - 1) v
  (r, r != v)

/-- mul(p, q): the product rounded, ties up, before saturation. -/
def mulQ (p q : Int) : Int := floorDiv (p * q + 32768) 65536

/-- A biquad: its output, whether it saturated, and its new state. -/
def biquad (c : Nat → Int) (q : Biquad) (x : Int) : Int × Bool × Biquad :=
  let sum := c 0 * x + c 1 * q.x1 + c 2 * q.x2 - c 3 * q.z1 - c 4 * q.z2
  let z := satQ (floorDiv (sum + 32768) 65536)
  (z.1, z.2, ⟨x, q.x1, z.1, q.z1⟩)

def Biquad.zero : Biquad := ⟨0, 0, 0, 0⟩
def Loop.fresh : Loop :=
  { bq1 := Biquad.zero, bq2 := Biquad.zero, rs := 0, origin := 0, injected := 0, phase := 0, lfsr := 0x7FFF, pending := [],
    sampled := none }

def loopOf (s : State) (l : Nat) : Loop := mget s.motion.loops l Loop.fresh
def setLoop (s : State) (l : Nat) (v : Loop) : State := { s with motion := { s.motion with loops := mput s.motion.loops l v } }
def loopMode (s : State) (l : Nat) : Nat := getF s LOP.STAT_MODE l
def loopClosed (s : State) (l : Nat) : Bool := decide (2 ≤ loopMode s l)

/-- u of a loop: SAFE in OFF (R402). -/
def loopOut (s : State) (l : Nat) : Int := if loopMode s l = 0 then getS s LOP.SAFE l else getS s LOP.OUT l

/-- Sets the sticky bits of the stages that saturated, by stage number (Table: LOP registers). -/
def setSat (s : State) (l : Nat) (stages : List (Nat × Bool)) : State :=
  forEach (stages.filter (fun e => e.2)) s (fun s e => setFlagBit s LOP.STAT_SAT e.1 true l)

/-! Sources (R400, R405). -/

/-- The channel or slot a loop measures. -/
def loopChannel (s : State) (l : Nat) : Option Nat :=
  if (getF s LOP.CFG_SRCTYPE l = 2 ∨ getF s LOP.CFG_SRCTYPE l = 3) ∧ getF s LOP.CFG_SRCIDX l < 12 then some (getF s LOP.CFG_SRCIDX l) else none
def loopSlot (s : State) (l : Nat) : Option Nat := if getF s LOP.CFG_SRCTYPE l = 1 then some (getF s LOP.CFG_SRCIDX l) else none

/-- The measurement. -/
def loopMeas (s : State) (l : Nat) : Int :=
  let shift := 2 ^ getF s LOP.CFG_SHIFT l
  match loopSlot s l, loopChannel s l with
  | some t, _ => getS s SNS.SVAL t
  | none, some c =>
    if getF s LOP.CFG_SRCTYPE l = 2 then floorDiv (speedOf s c) shift else floorDiv ((channelOf s c).x - (loopOf s l).origin) shift
  | none, none => 0

/-- The feedback of a loop is LOST, or its channel FROZEN. -/
def sourceLost (s : State) (l : Nat) : Bool :=
  match loopSlot s l, loopChannel s l with
  | some t, _ => flagBit s SNS.PSTAT_LOST (t % 4) (t / 4)
  | none, some c => decide (2 ≤ getF s ENC.STAT_STATE c)
  | none, none => false

def sourceFrozen (s : State) (l : Nat) : Bool := match loopChannel s l with | some c => getF s ENC.STAT_STATE c == 3 | none => false

/-- The demanded effort of a closed loop is above the freeze threshold of its channel (R405). -/
def loopEffort (s : State) (l c : Nat) : Bool :=
  let b := 2 * l + loopMode s l - 2
  loopClosed s l && loopChannel s l == some c &&
    decide (getF s ENC.LOSS_FRZEFF c * Nat.max (getS s LOP.OUTMIN b).natAbs (getS s LOP.OUTMAX b).natAbs < 256 * (loopOut s l).natAbs)

/-- Some consumer of a channel demands effort above its threshold. -/
def effortHigh (s : State) (c : Nat) : Bool := (upto 16).any (fun n => axisEffort s n c) || (upto 24).any (fun l => loopEffort s l c)

/-- At a sample of a consumer, notes that no effort is above the threshold (R381). -/
def noteEffort (s : State) (c : Nat) : State := if effortHigh s c then s else setChannel s c { channelOf s c with quietFrc := s.frc }

/-- A sample, with the efforts noted before and after it. -/
def withEffort (s : State) (c : Option Nat) (sample : State → State) : State :=
  match c with
  | some c => noteEffort (sample (noteEffort s c)) c
  | none => sample s

/-! Opening (R405). -/

/-- A loop enters OFF: SAFE at once, and its injection ends (R402, R407). -/
def loopOff (s : State) (l : Nat) : State :=
  let s := setF (setF s LOP.STAT_MODE 0 l) LOP.INJ_BUSY 0 l
  setF s LOP.OUT (getF s LOP.SAFE l) l

/-- A closed loop loses its feedback. -/
def openLoop (s : State) (l : Nat) (freeze : Bool) : State :=
  if !loopClosed s l then s
  else
    let u := getF s LOP.OUT l
    let s := setF (loopOff s l) (if freeze then LOP.STAT_FREEZE else LOP.STAT_LOSS) 1 l
    forEach [0, 6] s (fun s f => raiseEvent s f 0x0703 (l + 256 * bnat freeze) u)

/-- The axes of a channel that is LOST or FROZEN stop, marked UNCERTAIN (R391, R405). -/
def stopFollowers (s : State) (c : Nat) : State :=
  forEach ((upto 16).filter (fun n => axisFollows s n c)) s (fun s n => stopAxis (setF s AXS.STAT_UNCERTAIN 1 n) n 5)

/-- A channel has become LOST or FROZEN: its consumers act at their next sample (R405). A loop that samples with its slot has
none to wait for. -/
def channelFailed (s : State) (c : Nat) (freeze : Bool) : State :=
  let s := forEach ((upto 24).filter (fun l => loopChannel s l == some c && flag s LOP.PERIOD_SYNC l)) s (fun s l => openLoop s l freeze)
  forEach ((upto 16).filter (fun n => axisFollows s n c)) s (fun s n => setAxis s n { axisOf s n with blind := true })

/-! Injection (R407). -/

/-- LOP.INJ[l].GO. -/
def injectStart (s : State) (l : Nat) : State :=
  if flag s LOP.INJ_BUSY l || loopMode s l == 0 then s
  else setF (setLoop s l { loopOf s l with injected := 0, phase := 0, lfsr := 0x7FFF }) LOP.INJ_BUSY 1 l

/-- The value an injection adds at this sample. -/
def injectValue (s : State) (l : Nat) : Int :=
  let amp := getS s LOP.INJAMP l
  let u := loopOf s l
  if !flag s LOP.INJ_BUSY l || decide (getF s LOP.INJLEN l ≤ u.injected) then 0
  else if getF s LOP.INJ_TYPE l = 1 then amp
  else if getF s LOP.INJ_TYPE l = 2 then (if bit u.lfsr 14 then amp else -amp)
  else if getF s LOP.INJ_TYPE l = 3 then floorDiv (amp * sineTurn (u.phase / 65536) + (sineUnit / 2 : Nat)) sineUnit
  else 0

/-- ns from a sample of a loop to its next: PERIOD, or the period of the port that clocks it (R401). -/
def sampleTime (s : State) (l : Nat) : Nat :=
  match loopSlot s l with
  | some t => if flag s LOP.PERIOD_SYNC l then 1000 * Nat.max 1 (getF s SNS.PPER_PERIOD (t / 4)) else 5 * Nat.max 1000 (getF s LOP.PERIOD_PERIOD l)
  | none => 5 * Nat.max 1000 (getF s LOP.PERIOD_PERIOD l)

/-- The injection moves on by one sample, and ends after LEN. -/
def injectNext (s : State) (l : Nat) : State :=
  if !flag s LOP.INJ_BUSY l then s
  else
    let u := loopOf s l
    let n := u.injected + 1
    let len := Nat.max 1 (getF s LOP.INJLEN l)
    let hold := getF s LOP.INJ_HOLD l + 1
    let lfsr := if n % hold = 0 then (2 * u.lfsr + nxor (bits u.lfsr 14 1) (bits u.lfsr 13 1)) % 2 ^ 15 else u.lfsr
    let f := getF s LOP.INJF0 l * (len - u.injected) + getF s LOP.INJF1 l * u.injected
    let phase := (u.phase + f * sampleTime s l * 2 ^ 64 / (100000000000 * len)) % 2 ^ 64
    let s := setLoop s l { u with injected := n, lfsr := lfsr, phase := phase }
    if getF s LOP.INJLEN l ≤ n then setF s LOP.INJ_BUSY 0 l else s

/-! One sample of a closed loop (R400, R404). -/

/-- BQ2's terms other than b0·s, in Q32.32, and b0. -/
def bq2Rest (s : State) (l : Nat) : Int × Int :=
  let c (i : Nat) : Int := getS s LOP.BQ2 (5 * l + i)
  let q := (loopOf s l).bq2
  (c 1 * q.x1 + c 2 * q.x2 - c 3 * q.z1 - c 4 * q.z2, c 0)

/-- A sample with bank b: the loop goes on from its integrator, or presets it so that the output of the outgoing mode, if one
is given, is kept; none where the hand-over is refused. -/
def closedSample (s : State) (l bank : Nat) (hand : Option Int) : Option State :=
  let k := 2 * l + bank
  let u := loopOf s l
  let yPrev := getS s LOP.Y l
  let uPrev := match hand with | some v => v | none => getS s LOP.OUT l
  let inj := injectValue s l
  let atOut := flag s LOP.INJ_POINT l
  let y := biquad (fun i => getS s LOP.BQ1 (5 * l + i)) u.bq1 (loopMeas s l)
  let rs := satQ (getS s LOP.SP l + (if atOut then 0 else inj))
  let e := satQ (rs.1 - y.1)
  let p := satQ (mulQ (getS s LOP.KP k) e.1)
  let d := satQ (mulQ (getS s LOP.KD k) (yPrev - y.1))
  let f := satQ (mulQ (getS s LOP.KFF k) rs.1)
  let imax : Int := getF s LOP.IMAX k
  let rest := bq2Rest s l
  let preset : Option Int := match hand with
    | some v => if rest.2 = 0 then none else some (Int.tdiv (v * 65536 - rest.1) rest.2 - p.1 - d.1 - f.1)
    | none => some (getS s LOP.IACC l + mulQ (getS s LOP.KI k) e.1)
  match preset with
  | none => none
  | some i0 =>
    if hand.isSome ∧ (i0 < -imax ∨ imax < i0) then none
    else
      let i := clampInt (-imax) imax i0
      let sum := satQ (p.1 + i + d.1 + f.1)
      let z := biquad (fun i => getS s LOP.BQ2 (5 * l + i)) u.bq2 sum.1
      let w := satQ (z.1 + (if atOut then inj else 0))
      let out := clampInt (getS s LOP.OUTMIN k) (getS s LOP.OUTMAX k) w.1
      let slew : Int := getF s LOP.SLEW k
      let v := clampInt (uPrev - slew) (uPrev + slew) out
      let s := setLoop s l { u with bq1 := y.2.2, bq2 := z.2.2, rs := rs.1 }
      let s := setS (setS (setS s LOP.Y y.1 l) LOP.IACC i l) LOP.OUT v l
      some (setSat s l [(0, rs.2), (1, e.2), (2, p.2), (3, i != i0), (4, d.2), (5, f.2), (6, sum.2), (7, y.2.1), (8, z.2.1 || w.2),
        (9, out != w.1), (10, v != out)])

/-- A sample in MANUAL: clamp(r) of bank 0, under its SLEW (R402). -/
def manualSample (s : State) (l : Nat) (uPrev : Int) : State :=
  let out := clampInt (getS s LOP.OUTMIN (2 * l)) (getS s LOP.OUTMAX (2 * l)) (getS s LOP.SP l)
  let slew : Int := getF s LOP.SLEW (2 * l)
  let v := clampInt (uPrev - slew) (uPrev + slew) out
  setSat (setS s LOP.OUT v l) l [(9, out != getS s LOP.SP l), (10, v != out)]

/-! LOOPSET (R241, R402, R404). -/

/-- A LOOPSET is issued. -/
def startLoopset (s : State) (o : Op) : State :=
  let d := o.desc
  let w := field d 4 4
  let l := bits w 0 5
  let at_ := field d 8 8
  let keep := bit w 12
  let refuse (code : Nat) : State := completeOp s o.key code 0 0 0
  if 24 ≤ l then refuse 9
  else if engineMissing s l then refuse 0x0D
  else if bits w 5 3 ≠ 0 ∨ bits w 13 19 ≠ 0 ∨ 4 ≤ bits w 8 4 ∨ (keep ∧ bits w 8 4 ≠ 0) then refuse 9
  else
    let p : PendLoopset := ⟨at_, bits w 8 4, keep, signed (field d 0 4) 32, at_ != 0 && decide (at_ < workNs s), some o.key⟩
    setLoop s l { loopOf s l with pending := (loopOf s l).pending ++ [p] }

/-- The first LOOPSET due: the earliest AT, 0 and equal times in issue order. -/
def dueLoopset (s : State) (l : Nat) : Option PendLoopset :=
  ((loopOf s l).pending.filter (fun p => decide (p.at_ ≤ workNs s))).foldl (fun a p => match a with
    | none => some p
    | some b => if p.at_ < b.at_ then some p else some b) none

/-- Applies a LOOPSET at a sample, and says whether the sample has been computed with it. -/
def applyLoopset (s : State) (l : Nat) (p : PendLoopset) : State × Bool :=
  let s := setLoop s l { loopOf s l with pending := (loopOf s l).pending.erase p }
  let finish (s : State) (code : Nat) : State := match p.op with
    | some k => completeOp s k code (bnat p.late) 0 (workNs s)
    | none => s
  let ok (s : State) : State := finish s 0
  let uPrev := loopOut s l
  let set (s : State) : State := setS s LOP.SP p.setpoint l
  if p.keep || p.mode == loopMode s l then (ok (set s), false)
  else if p.mode = 0 then (ok (loopOff (set s) l), true)
  else if p.mode = 1 then (ok (manualSample (setF (set s) LOP.STAT_MODE 1 l) l uPrev), true)
  else
    let fresh : Bool := !loopClosed s l
    let t := match loopChannel s l with
      | some c => if fresh then setLoop s l { loopOf s l with origin := (channelOf s c).x } else s
      | none => s
    match closedSample (set t) l (p.mode - 2) (some uPrev) with
    | some r => (ok (setF r LOP.STAT_MODE p.mode l), true)
    | none => (finish s 0x28, false)

/-- Applies every LOOPSET due at a sample, at most as many as are pending. -/
def applyLoopsets : Nat → State → Nat → Bool → State × Bool
  | 0, s, _, b => (s, b)
  | n + 1, s, l, b => match dueLoopset s l with
    | none => (s, b)
    | some p => let r := applyLoopset s l p; applyLoopsets n r.1 l (b || r.2)

/-! Captures (R408). -/

def captureOf (s : State) (k : Nat) : Option Capture := mfind s.motion.captures k
def setCapture (s : State) (k : Nat) (c : Option Capture) : State :=
  let s := { s with motion := { s.motion with captures := match c with | some c => mput s.motion.captures k c | none => mdel s.motion.captures k } }
  match c with
  | some c => setF (setF s LOP.CAPCTL_BUSY 1 k) LOP.CAPCTL_ARMED (bnat c.trigger.isNone) k
  | none => setF (setF s LOP.CAPCTL_BUSY 0 k) LOP.CAPCTL_ARMED 0 k

/-- ISSUE CAPTURE: its body follows the 8-byte header. -/
def startCapture (s : State) (o : Op) : State :=
  let d := o.desc.drop 8
  let w := field d 0 4
  let l := bits w 0 5
  let count := field d 12 2
  let pre := field d 14 2
  let offset := field d 8 4
  let refuse (code : Nat) : State := completeOp s o.key code 0 0 0
  if 24 ≤ l then refuse 9
  else if engineMissing s l then refuse 0x0D
  else if bits w 5 3 ≠ 0 ∨ bits w 18 14 ≠ 0 ∨ field d 16 8 ≠ 0 ∨ field d 24 8 ≠ 0 then refuse 9
  else if !mireLocked s then refuse 0x0C
  else if offset % 16 ≠ 0 ∨ count = 0 ∨ 16384 < count ∨ count ≤ pre ∨ regionSize s 5 < offset + 16 * count then refuse 9
  else match [0, 1].find? (fun k => (captureOf s k).isNone) with
    | none => refuse 0x24
    | some k => setCapture s k (some ⟨o.key, l, bits w 8 8, bits w 16 2, signed (field d 4 4) 32, offset, count, pre, 0, 0, none⟩)

/-- The index of the oldest record a capture holds, and how many it holds. -/
def Capture.oldest (c : Capture) : Nat × Nat :=
  let n := match c.trigger with
    | some t => Nat.min c.count (Nat.min t.1 c.pre + (c.written - t.1))
    | none => Nat.min c.pre c.written
  ((c.written - n) % Nat.max 1 c.count, n)

/-- A capture ends (R408). -/
def endCapture (s : State) (k : Nat) (code : Nat) (abort : Bool) : State :=
  match captureOf s k with
  | none => s
  | some c =>
    let e := c.oldest
    let t := match c.trigger with | some t => t.2 | none => 0
    let s := setCapture s k none
    if code = 0 then completeOp s c.op 0 (bnat abort) (e.1 % 2 ^ 14 + (if abort then 65536 * (e.2 % 2 ^ 14) else 0)) t
    else completeOp s c.op code 0 0 0

/-- A sample of a capture's loop: its trigger condition, and its record every DECIM + 1 samples. -/
def captureSample (s : State) (k : Nat) (loopset injected : Bool) (yPrev : Int) : State :=
  match captureOf s k with
  | none => s
  | some c =>
    let y := getS s LOP.Y c.loop
    let fire : Bool := c.trigger.isNone && (c.trig == 0 || (c.trig == 1 && loopset) || (c.trig == 2 && injected) ||
      (c.trig == 3 && decide (yPrev < c.level) && decide (c.level ≤ y)))
    let c := if fire then { c with trigger := some (c.written, workNs s), skip := 0 } else c
    if 0 < c.skip then setCapture s k (some { c with skip := c.skip - 1 })
    else
      let rec16 := toBytes 4 (unsign (loopOf s c.loop).rs 32) ++ toBytes 4 (unsign y 32) ++ toBytes 4 (unsign (loopOut s c.loop) 32) ++
        toBytes 4 (getF s LOP.IACC c.loop)
      let s := engineWrite s (regionBase s 5 + c.offset + 16 * (c.written % c.count)) rec16
      let c := { c with written := c.written + 1, skip := c.decim }
      let s := setCapture s k (some c)
      match c.trigger with
      | some t => if c.count - c.pre ≤ c.written - t.1 then endCapture s k 0 false else s
      | none => s

/-! The sample (R401). -/

/-- One sample of a loop. -/
def loopSample (s : State) (l : Nat) : State :=
  if engineMissing s l || decide (24 ≤ l) then s
  else withEffort s (loopChannel s l) fun s =>
    let yPrev := getS s LOP.Y l
    let n := (loopOf s l).pending.length
    let injected : Bool := flag s LOP.INJ_BUSY l && (loopOf s l).injected == 0
    let s := setLoop s l { loopOf s l with sampled := some s.frc }
    let r := applyLoopsets n s l false
    let applied : Bool := decide ((loopOf r.1 l).pending.length < n)
    let s := r.1
    let s :=
      if r.2 then s
      else if loopMode s l = 1 then manualSample s l (getS s LOP.OUT l)
      else if loopClosed s l then (closedSample s l (loopMode s l - 2) none).getD s
      else s
    let s := injectNext s l
    let s := if loopClosed s l && sourceLost s l then
        let s := openLoop s l (sourceFrozen s l)
        match loopChannel s l with
        | some c => stopFollowers s c
        | none => s
      else s
    forEach ((upto 2).filter (fun k => match captureOf s k with | some c => c.loop == l | none => false)) s
      (fun s k => captureSample s k applied injected yPrev)

/-- A sample due by PERIOD; a loop with SYNC 1 samples with its slot instead (R401). -/
def loopTimed (s : State) (l : Nat) : State := if flag s LOP.PERIOD_SYNC l then s else loopSample s l

/-! PWM and destinations (R406). -/

/-- The loop that drives a destination: the lowest-numbered one of those not OFF that name it. -/
def driverOf (s : State) (dest idx : Nat) : Option Nat :=
  (upto 24).find? (fun l => loopMode s l != 0 && getF s LOP.CFG_DEST l == dest && getF s LOP.CFG_DESTIDX l == idx)

/-- DESTCONF of a loop. -/
def destConflict (s : State) (l : Nat) : Bool :=
  let d := getF s LOP.CFG_DEST l
  (d == 1 || d == 2) && loopMode s l != 0 && driverOf s d (getF s LOP.CFG_DESTIDX l) != some l

/-- PD_MOTION is up; while it is down or held its outputs are at their reset levels (R384). -/
def motionUp (s : State) : Bool := [2, 3, 4].contains (domState s 12)

/-- Outputs of PD_MOTION at their reset levels, as it goes down: PWM and DIR low (R384). -/
def motionLow (s : State) : State :=
  let s := forEach (s.motion.pwm.filter (fun e => e.2.1 != 0)) s (fun s e => sendPin s 6 (.pwm e.1 0 e.2.2))
  let s : State := { s with motion := { s.motion with pwm := [] } }
  forEach (upto 16) s (fun s n => if (axisOf s n).back then setAxis s n { axisOf s n with back := false } else s)

/-- A period of a PWM starts with its new duty. In throughput the outputs PWM8 to PWM23 are those of the unavailable loops
(R16): they stay low unless an available loop drives them. -/
def pwmPeriod (s : State) (m : Nat) : State :=
  let per := Nat.max 1 (getF s LOP.PWMPER_PER m)
  let high := if !motionUp s then 0 else match driverOf s 1 m with
    | some l => (floorDiv (clampInt 0 65536 (loopOut s l) * per + 32768) 65536).toNat
    | none => if engineMissing s m then 0 else Nat.min per (getF s LOP.PWMDUTY_HIGH m)
  sendPin { s with motion := { s.motion with pwm := mput s.motion.pwm m (high, per) } } 6 (.pwm m high per)

/-! Sensor ports (R409 to R411). -/

def slotOf (s : State) (t : Nat) : SensorSlot := mget s.motion.slots t ⟨0, 0, false⟩
def setSlot (s : State) (t : Nat) (v : SensorSlot) : State := { s with motion := { s.motion with slots := mput s.motion.slots t v } }

/-- Slots of a port. -/
def portSlots (s : State) (p : Nat) : List Nat := fromTo (4 * p) (4 * p + getF s SNS.PCFG_NSLOT p)

/-- ns a port's schedule takes: its slots and the gaps between them. -/
def scheduleTime (s : State) (p : Nat) : Nat :=
  ((portSlots s p).map (fun t => (getF s SNS.SCFG_LEN t + 1) * 2 * (Nat.max 1 (getF s SNS.PCFG_DIV p) + 1) * 5)).foldl (· + ·) 0 +
    getF s SNS.PCFG_NSLOT p * getF s SNS.PCFG_CSGAP p * 5

/-- A write of SNS.PCFG[p].EN, after the other fields: a schedule longer than PERIOD is refused. -/
def portOn (s : State) (p : Nat) (en : Bool) : State :=
  if !en then setF s SNS.PCFG_EN 0 p
  else if flag s SNS.PCFG_EN p then s
  else if 1000 * Nat.max 1 (getF s SNS.PPER_PERIOD p) < scheduleTime s p then setF s SNS.ERR_CFG 1
  else
    let s := forEach (fromTo (4 * p) (4 * p + 3)) s (fun s t => setSlot s t ⟨0, 0, false⟩)
    setF s SNS.PCFG_EN 1 p

/-- The word a slot sends (R409). -/
def slotWord (s : State) (t : Nat) : Nat :=
  let n := getF s SNS.SCFG_LEN t + 1
  let base := getF s SNS.STX t % 2 ^ n
  let part := if flag s SNS.SCFG_TXLOOP t then (match driverOf s 2 t with
      | some l => (clampInt 0 (2 ^ (getF s SNS.SCFG_RXBITS t + 1) - 1) (floorDiv (loopOut s l + 32768) 65536)).toNat * 2 ^ getF s SNS.SCFG_TXSHIFT t
      | none => 0)
    else 0
  (Nat.lor base part) % 2 ^ n

/-- The CRC-8 of a word's bits but its last 8 equals those 8 (R410). -/
def wordCrcOk (w n : Nat) : Bool := crcMsb 8 0x07 0 (msbBits (n - 8) (w / 256)) == w % 256

/-- A slot's word arrives: SVAL where it is accepted, and the counts that make a slot LOST. -/
def slotTake (s : State) (t w : Nat) : State × Bool :=
  let n := getF s SNS.SCFG_LEN t + 1
  let w := w % 2 ^ n
  let p := t / 4
  let u := slotOf s t
  let crc := flag s SNS.SCFG_CRCEN t
  let crcOk := !crc || wordCrcOk w n
  let matched := Nat.land (bits w 16 16) (getF s SNS.SCHK_MASK t) == getF s SNS.SCHK_MATCH t
  let s := if crcOk then s else incF s SNS.CRCCNT p
  let ok := crcOk && matched
  let s := setSlot s t ⟨if crcOk then 0 else u.failed + 1, if ok then 0 else u.periods + 1, u.accepted || ok⟩
  if ok then
    let fb := getF s SNS.SCFG_RXBITS t + 1
    let raw := bits w (getF s SNS.SCFG_RXSHIFT t) fb
    let v : Int := if flag s SNS.SCFG_SIGNED t then signed raw fb else raw
    (setS s SNS.SVAL (satQ (v * getS s SNS.SGAIN t + getS s SNS.SOFF t)).1 t, true)
  else (s, false)

/-- Slots that have become LOST: SENSOR_LOST is raised, and the loops that use them open at their next sample (R405, R411); one
that samples with its slot has none to wait for. -/
def slotsLost (s : State) (p : Nat) : State :=
  let bad := (portSlots s p).filter (fun t => !flagBit s SNS.PSTAT_LOST (t % 4) p &&
    (decide (Nat.max 1 (getF s SNS.PPER_CRCMAX p) ≤ (slotOf s t).failed) || decide (Nat.max 1 (getF s SNS.PPER_TMO p) ≤ (slotOf s t).periods)))
  if bad = [] then s
  else
    let mask := (bad.map (fun t => 2 ^ (t % 4))).foldl (· + ·) 0
    let s := forEach bad s (fun s t => setFlagBit s SNS.PSTAT_LOST (t % 4) true p)
    let s := forEach [0, 6] s (fun s f => raiseEvent s f 0x0704 (p + 256 * mask) 0)
    forEach ((upto 24).filter (fun l => flag s LOP.PERIOD_SYNC l && (match loopSlot s l with | some t => bad.contains t | none => false))) s
      (fun s l => openLoop s l false)

/-- A cleared port returns its slots to RUN once each has accepted a word (R411). -/
def slotsCleared (s : State) (p : Nat) : State :=
  if s.motion.clearing.contains p && (portSlots s p).all (fun t => (slotOf s t).accepted) then
    let s := forEach (portSlots s p) s (fun s t => setSlot s t ⟨0, 0, true⟩)
    setF { s with motion := { s.motion with clearing := s.motion.clearing.filter (fun x => x != p) } } SNS.PSTAT_LOST 0 p
  else s

/-- A port's period: each slot in order sends its word and takes one; loops with SYNC sample, at least 5 µs apart. -/
def sensorPeriod (s : State) (p : Nat) (words : List Nat) : State :=
  if !flag s SNS.PCFG_EN p then s
  else
    let s := forEach ((portSlots s p).zip (upto 4)) s (fun s e =>
      let s := sendPin s 7 (.spi e.1 (slotWord s e.1))
      let r := slotTake s e.1 (if bankOn s 7 then words.getD e.2 0 else 0)
      if r.2 then
        forEach ((upto 24).filter (fun l => loopSlot r.1 l == some e.1 && flag r.1 LOP.PERIOD_SYNC l)) r.1 (fun s l =>
          match (loopOf s l).sampled with
          | some f => if s.frc < f + 6250 then s else loopSample s l
          | none => loopSample s l)
      else r.1)
    slotsLost (slotsCleared s p) p

/-- SNS.CTL[p].CLR. -/
def sensorClear (s : State) (p : Nat) : State :=
  let s := forEach (fromTo (4 * p) (4 * p + 3)) s (fun s t => setSlot s t { slotOf s t with accepted := false })
  { s with motion := { s.motion with clearing := p :: s.motion.clearing.filter (fun x => x != p) } }

/-- PD_MOTION is kept awake (R384). -/
def motionBusy (s : State) : Bool :=
  (upto 16).any (axisOn s) || (upto 24).any (fun l => loopMode s l != 0) || (upto 8).any (fun p => flag s SNS.PCFG_EN p) ||
    (upto 2).any (fun k => (captureOf s k).isSome)

/-- AXIS_SAMPLE. -/
def execAxisSample (n : Fin 16) (s : State) : Result :=
  .next (whenUp pllMotion s (withEffort s (if axisOn s n && flag s AXS.CFG_FBEN n then some (getF s AXS.CFG_FBSRC n) else none) (axisSample · n)))
/-- WEB_STOP_IN. -/
def execWebStopIn (s : State) : Result := .next (whenUp pllMotion s (webStop s))
/-- CHOP_CYCLE: a cycle of coil A or B. -/
def execChopCycle (st : Fin 8) (coilB : Bool) (on decay : Nat) (early : Bool) (s : State) : Result :=
  .next (whenUp pllMotion s (chopCycle s st coilB on decay early))
/-- IRUN_UPDATE. -/
def execIrunUpdate (st : Fin 8) (s : State) : Result := .next (whenUp pllMotion s (irunUpdate s st))
/-- LOOP_SAMPLE. -/
def execLoopSample (l : Fin 24) (s : State) : Result := .next (whenUp pllMotion s (loopTimed s l))
/-- PWM_PERIOD. -/
def execPwmPeriod (m : Fin 24) (s : State) : Result := .next (whenUp pllMotion s (pwmPeriod s m))
/-- SENSOR_PERIOD: the words the port's slots receive. -/
def execSensorPeriod (p : Fin 8) (words : List Nat) (s : State) : Result := .next (whenUp pllMotion s (sensorPeriod s p words))

end Sys2Proof.Machine
end

