-- ==== Sys2Proof/Machine/Inflate.lean ====
section
/-!
DEFINITION. The streams an inflate engine accepts (R57): raw DEFLATE of RFC 1951 and ZLIB of RFC 1950, with a preset
dictionary where one is named.
-/

namespace Sys2Proof.Machine

/-- Why decoding of a stream stopped. -/
inductive InfStop where
  | running
  | finished
  /-- the stream ran out of bits -/
  | short
  /-- not a stream R57 accepts -/
  | invalid
  /-- output beyond the limit -/
  | long
  deriving DecidableEq, Repr

/-- A decoder at work: bits left, output and dictionary newest first, and how many bytes it has produced. -/
structure Inf where
  stop : InfStop
  bits : List Bool
  rev : List Byte
  produced : Nat
  deriving DecidableEq, Repr

/-- The bits of bytes, least significant first, as DEFLATE packs them. -/
def streamBits (bs : List Byte) : List Bool := bs.flatMap (fun b => (upto 8).map (fun i => bit b.toNat i))

/-- Takes `n` bits, least significant first. -/
def takeBits : Nat → List Bool → Option (Nat × List Bool)
  | 0, r => some (0, r)
  | _ + 1, [] => none
  | n + 1, b :: r => (takeBits n r).map (fun (v, t) => (bnat b + 2 * v, t))

/-- A Huffman code: length, code and symbol of each symbol used. -/
abbrev Huff := List (Nat × Nat × Nat)

/-- Assigns the canonical codes of one length to the symbols that have it. -/
def huffLevel (lens : List Nat) (len : Nat) : Nat → Nat → Huff
  | _, 0 => []
  | code, k + 1 =>
    let sym := lens.length - (k + 1)
    if nth lens sym = len then (len, code, sym) :: huffLevel lens len (code + 1) k else huffLevel lens len code k

/-- The canonical code of a list of code lengths (RFC 1951, 3.2.2). -/
def huffCodes (lens : List Nat) : Nat → Nat → Huff
  | _, 0 => []
  | first, k + 1 =>
    let len := 16 - (k + 1)
    let used := (lens.filter (· == len)).length
    huffLevel lens len first lens.length ++ huffCodes lens (2 * (first + used)) k

/-- The canonical code of a list of code lengths, where they form one. -/
def huffman (lens : List Nat) : Option Huff :=
  let sum := lens.foldl (fun a l => if l = 0 then a else a + 2 ^ (15 - l)) 0
  let used := (lens.filter (· != 0)).length
  if sum = 2 ^ 15 ∨ used ≤ 1 ∧ sum ≤ 2 ^ 15 then some (huffCodes lens 0 15) else none

/-- Reads one symbol; none where bits run out, and a symbol beyond the alphabet where no code matches. -/
def readSym (h : Huff) : Nat → Nat → Nat → List Bool → Option (Nat × List Bool)
  | 0, _, _, r => some (1000, r)
  | _ + 1, _, _, [] => none
  | n + 1, len, code, b :: r =>
    let c := 2 * code + bnat b
    match h.find? (fun e => e.1 == len + 1 && e.2.1 == c) with
    | some e => some (e.2.2, r)
    | none => readSym h n (len + 1) c r

/-- Base and extra bits of a length code 257 to 285 (RFC 1951, 3.2.5). -/
def lengthCode (sym : Nat) : Nat × Nat :=
  let i := sym - 257
  if i < 8 then (3 + i, 0)
  else if i = 28 then (258, 0)
  else (3 + (4 + i % 4) * 2 ^ (i / 4 - 1), i / 4 - 1)

/-- Base and extra bits of a distance code 0 to 29 (RFC 1951, 3.2.5). -/
def distanceCode (i : Nat) : Nat × Nat :=
  if i < 4 then (1 + i, 0) else (1 + (2 + i % 2) * 2 ^ (i / 2 - 1), i / 2 - 1)

/-- Produces one byte, unless the limit is reached. -/
def putOut (limit : Nat) (st : Inf) (b : Byte) : Inf :=
  if st.stop ≠ .running then st
  else if limit ≤ st.produced then { st with stop := .long }
  else { st with rev := b :: st.rev, produced := st.produced + 1 }

/-- Copies `n` bytes from a distance back. -/
def copyBack (limit dist : Nat) : Nat → Inf → Inf
  | 0, st => st
  | n + 1, st =>
    match st.rev[dist - 1]? with
    | none => { st with stop := if st.stop = .running then .invalid else st.stop }
    | some b => copyBack limit dist n (putOut limit st b)

/-- Decodes the symbols of a block up to its end. -/
def inflateCodes (limit : Nat) (lit dist : Huff) : Nat → Inf → Inf
  | 0, st => st
  | n + 1, st =>
    match readSym lit 15 0 0 st.bits with
    | none => { st with stop := .short }
    | some (sym, r) =>
      if sym < 256 then
        let st := putOut limit { st with bits := r } (BitVec.ofNat 8 sym)
        if st.stop = .running then inflateCodes limit lit dist n st else st
      else if sym = 256 then { st with bits := r }
      else if sym < 286 then
        match takeBits (lengthCode sym).2 r with
        | none => { st with stop := .short }
        | some (ex, r) =>
          match readSym dist 15 0 0 r with
          | none => { st with stop := .short }
          | some (ds, r) =>
            if 30 ≤ ds then { st with stop := .invalid }
            else match takeBits (distanceCode ds).2 r with
              | none => { st with stop := .short }
              | some (dx, r) =>
                let st := copyBack limit ((distanceCode ds).1 + dx) ((lengthCode sym).1 + ex) { st with bits := r }
                if st.stop = .running then inflateCodes limit lit dist n st else st
      else { st with stop := .invalid }

/-- The fixed literal and length code lengths (RFC 1951, 3.2.6). -/
def fixedLens : List Nat :=
  List.replicate 144 8 ++ List.replicate 112 9 ++ List.replicate 24 7 ++ List.replicate 8 8

/-- The order in which code length code lengths are sent (RFC 1951, 3.2.7). -/
def clOrder : List Nat := [16, 17, 18, 0, 8, 7, 9, 6, 10, 5, 11, 4, 12, 3, 13, 2, 14, 1, 15]

/-- Reads `n` three-bit code lengths in the order of RFC 1951. -/
def readClens : List Nat → List Bool → SMap Nat → Option (SMap Nat × List Bool)
  | [], r, m => some (m, r)
  | o :: os, r, m =>
    match takeBits 3 r with
    | none => none
    | some (v, r) => readClens os r (mput m o v)

/-- Reads run-length coded code lengths up to a total; lengths are kept newest first. -/
def readLens (h : Huff) (total : Nat) : Nat → List Nat → List Bool → Option (List Nat × List Bool)
  | 0, acc, r => some (acc, r)
  | n + 1, acc, r =>
    if total ≤ acc.length then some (acc, r)
    else match readSym h 15 0 0 r with
      | none => none
      | some (sym, r) =>
        if sym < 16 then readLens h total n (sym :: acc) r
        else
          let ex := if sym = 16 then 2 else if sym = 17 then 3 else 7
          match takeBits ex r with
          | none => none
          | some (v, r) =>
            let k := if sym = 16 then 3 + v else if sym = 17 then 3 + v else 11 + v
            let fill := if sym = 16 then acc.headD 1000 else if sym < 19 then 0 else 1000
            readLens h total n (List.replicate k fill ++ acc) r

/-- Decodes a dynamic-Huffman block. -/
def inflateDynamic (limit : Nat) (st : Inf) : Inf :=
  match takeBits 14 st.bits with
  | none => { st with stop := .short }
  | some (hd, r) =>
    let hlit := bits hd 0 5 + 257
    let hdist := bits hd 5 5 + 1
    let hclen := bits hd 10 4 + 4
    match readClens (clOrder.take hclen) r [] with
    | none => { st with stop := .short }
    | some (m, r) =>
      match huffman ((upto 19).map (fun i => mget m i 0)) with
      | none => { st with stop := .invalid }
      | some h =>
        match readLens h (hlit + hdist) (hlit + hdist) [] r with
        | none => { st with stop := .short }
        | some (acc, r) =>
          let lens := acc.reverse
          if lens.length ≠ hlit + hdist ∨ lens.any (fun l => decide (15 < l)) ∨ 286 < hlit ∨ 30 < hdist
              ∨ nth lens 256 = 0 then { st with stop := .invalid }
          else match huffman (lens.take hlit), huffman (lens.drop hlit) with
            | some lit, some dist => inflateCodes limit lit dist (r.length + 1) { st with bits := r }
            | _, _ => { st with stop := .invalid }

/-- Copies the bytes of a stored block. -/
def inflateStored (limit : Nat) : Nat → Inf → Inf
  | 0, st => st
  | n + 1, st =>
    match takeBits 8 st.bits with
    | none => { st with stop := .short }
    | some (b, r) =>
      let st := putOut limit { st with bits := r } (BitVec.ofNat 8 b)
      if st.stop = .running then inflateStored limit n st else st

/-- Decodes blocks up to and including the final one. -/
def inflateBlocks (limit : Nat) : Nat → Inf → Inf
  | 0, st => { st with stop := .short }
  | n + 1, st =>
    match takeBits 3 st.bits with
    | none => { st with stop := .short }
    | some (hd, r) =>
      let st := { st with bits := r }
      let st :=
        if hd / 2 = 0 then
          match takeBits 32 (r.drop (r.length % 8)) with
          | none => { st with stop := .short }
          | some (v, r) =>
            if bits v 0 16 + bits v 16 16 = 65535 then inflateStored limit (bits v 0 16) { st with bits := r }
            else { st with stop := .invalid }
        else if hd / 2 = 1 then
          inflateCodes limit (huffCodes fixedLens 0 15) (huffCodes (List.replicate 32 5) 0 15) (r.length + 1) st
        else if hd / 2 = 2 then inflateDynamic limit st
        else { st with stop := .invalid }
      if st.stop = .running then
        (if hd % 2 = 1 then { st with stop := .finished } else inflateBlocks limit n st)
      else st

/-- What inflating a whole stream gives: its output, and a Sluice result code, 0 where the stream is accepted. -/
structure InflateResult where
  out : List Byte
  code : Nat
  deriving DecidableEq, Repr

/-- Sluice result codes (R67). -/
def codeStream : Nat := 3
def codeLength : Nat := 4
def codeCrc : Nat := 5
def codeDict : Nat := 6
def codePoison : Nat := 7
def codeSource : Nat := 8

/-- The output of a decoder and the code of its stop; a trailer of `tail` bytes must follow. -/
def inflateVerdict (dict : List Byte) (tail : Nat) (st : Inf) : InflateResult :=
  let out := (st.rev.take (st.rev.length - dict.length)).reverse
  match st.stop with
  | .finished =>
    let left := st.bits.length / 8
    if left ≠ tail then ⟨out, codeLength⟩
    else if tail = 4 then
      let t := (upto 4).map (fun i => ofBytes ((upto 1).map (fun _ =>
        BitVec.ofNat 8 ((takeBits 8 (st.bits.drop (st.bits.length % 8 + 8 * i))).getD (0, [])).1)))
      if t.foldl (fun a b => 256 * a + b) 0 = adler32 out then ⟨out, 0⟩ else ⟨out, codeStream⟩
    else ⟨out, 0⟩
  | .invalid => ⟨out, codeStream⟩
  | _ => ⟨out, codeLength⟩

/-- Inflates a raw DEFLATE stream (R57). -/
def inflateRaw (limit : Nat) (dict input : List Byte) : InflateResult :=
  let bs := streamBits input
  inflateVerdict dict 0 (inflateBlocks limit (bs.length + 1) ⟨.running, bs, dict.reverse, 0⟩)

/-- A preset dictionary: the Adler-32 that names it and its bytes. -/
structure Dict where
  adler : Nat
  bytes : List Byte
  deriving DecidableEq, Repr

/-- The bytes of a dictionary that is in use; none otherwise. -/
def dictHistory (d : Option Dict) : List Byte := match d with | some d => d.bytes | none => []

/-- Inflates a ZLIB stream (R57): CM 8, CINFO 0 to 7, FCHECK, FDICT and DICTID, and the Adler-32 trailer. A DICTID that is not the
dictionary's is an invalid stream. -/
def inflateZlib (limit : Nat) (dict : Option Dict) (input : List Byte) : InflateResult :=
  match input with
  | cmf :: flg :: r =>
    let fdict := bit flg.toNat 5
    if cmf.toNat % 16 ≠ 8 ∨ 7 < cmf.toNat / 16 ∨ (256 * cmf.toNat + flg.toNat) % 31 ≠ 0 then ⟨[], codeStream⟩
    else match fdict, dict with
      | true, none => ⟨[], codeDict⟩
      | false, some _ => ⟨[], codeDict⟩
      | true, some d =>
        if r.length < 4 then ⟨[], codeLength⟩
        else if (r.take 4).foldl (fun a b => 256 * a + b.toNat) 0 ≠ d.adler then ⟨[], codeStream⟩
        else
          let bs := streamBits (r.drop 4)
          inflateVerdict d.bytes 4 (inflateBlocks limit (bs.length + 1) ⟨.running, bs, d.bytes.reverse, 0⟩)
      | false, none =>
        let bs := streamBits r
        inflateVerdict [] 4 (inflateBlocks limit (bs.length + 1) ⟨.running, bs, [], 0⟩)
  | _ => ⟨[], codeLength⟩

/-- Inflates a stored stream: 0 passes through, 1 raw DEFLATE, 2 ZLIB; output short of the limit is LENGTH (R57). -/
def inflate (comp limit : Nat) (dict : Option Dict) (input : List Byte) : InflateResult :=
  if comp = 0 then ⟨input, if input.length = limit then 0 else codeLength⟩
  else
    let r := if comp = 1 then inflateRaw limit (dictHistory dict) input else inflateZlib limit dict input
    if r.code = 0 ∧ r.out.length < limit then ⟨r.out, codeLength⟩ else r

/-- How many output bytes a stream produces before it needs byte `k` of its input (R62). -/
def producedBefore (comp limit k : Nat) (dict : Option Dict) (input : List Byte) : Nat :=
  if comp = 0 then Nat.min k limit else (inflate comp limit dict (input.take k)).out.length

/-- The length of the part in which two lists begin alike. -/
def agreeLength : List Byte → List Byte → Nat
  | a :: r, b :: t => if a = b then agreeLength r t + 1 else 0
  | _, _ => 0

/-- How many output bytes a stream produces before it needs a byte of its dictionary that `bad` names: its outputs with those bytes
as they are and complemented agree up to there (R62); none where it needs none of them. -/
def producedBeforeDict (comp limit : Nat) (dict : Dict) (bad : Nat → Bool) (input : List Byte) : Option Nat :=
  let other : Dict := ⟨dict.adler, (dict.bytes.zip (upto dict.bytes.length)).map (fun e => if bad e.2 then ~~~ e.1 else e.1)⟩
  let a := (inflate comp limit (some dict) input).out
  let b := (inflate comp limit (some other) input).out
  if a = b then none else some (agreeLength a b)

/-- Splits bytes into stored blocks of at most 65,535 bytes (RFC 1951, 3.2.4), the last one final where `final`. -/
def storedBlocks (final : Bool) : Nat → List Byte → List Byte
  | 0, _ => []
  | n + 1, bs =>
    let c := bs.take 65535
    let r := bs.drop 65535
    (if r.isEmpty && final then (1 : Byte) else 0) :: (toBytes 2 c.length ++ toBytes 2 (65535 - c.length) ++ c ++
      (if r.isEmpty then [] else storedBlocks final n r))

/-- The raw DEFLATE stream a deflate engine emits for an input: the engine's own bytes (`proposed`, which the manual
leaves open, R63) where they decode to the input, and stored blocks otherwise. -/
def deflateRaw (proposed dict input : List Byte) : List Byte :=
  if inflateRaw input.length dict proposed = ⟨input, 0⟩ then proposed else storedBlocks true (input.length + 1) input

/-- The last bytes of an empty stored block that ends a flush (R65), and the bytes of an empty final block. -/
def flushMark : List Byte := [0x00, 0x00, 0xFF, 0xFF]
def emptyFinal : List Byte := [0x03, 0x00]

/-- A part of a stream that a flush ends (R65): whole blocks, none of them final, and an empty stored block that makes the output
byte-aligned. The engine's own bytes serve where they are that. -/
def deflatePart (proposed history input : List Byte) : List Byte :=
  if proposed.drop (proposed.length - 4) = flushMark ∧ inflateRaw input.length history (proposed ++ emptyFinal) = ⟨input, 0⟩ then proposed
  else storedBlocks false (input.length + 1) input ++ 0 :: flushMark

/-- ZLIB FLEVEL of a deflate level (Table: deflate levels). -/
def flevel (level : Nat) : Nat := if level < 3 then 0 else if level < 6 then 1 else if level = 6 then 2 else 3

/-- Wraps a raw stream as ZLIB: a 32 KiB window, FLEVEL of the level, DICTID where a dictionary is used
(`dict` is its Adler-32), and the Adler-32 of the input. -/
def zlibWrap (level : Nat) (dict : Option Nat) (input raw : List Byte) : List Byte :=
  let big : Nat → List Byte := fun v => (toBytes 4 v).reverse
  let f := 64 * flevel level + (if dict.isSome then 32 else 0)
  let chk := (31 - (256 * 0x78 + f) % 31) % 31
  [0x78, BitVec.ofNat 8 (f + chk)] ++ (match dict with | some d => big d | none => []) ++ raw ++
    big (adler32 input)

end Sys2Proof.Machine
end

