-- ==== Sys2Proof/Machine/MereBase.lean ====
section
/-!
DEFINITION. What the print path gives Mere: camera triggers, the prediction tap and the unsound marks; and where a camera pixel
lies (R161, R165, R168, R169, R176, R180).
-/

namespace Sys2Proof.Machine

def Camera.fresh : Camera :=
  { sent := [], matched := 0, lastSent := none, images := 0, lines := [], taps := [], streaks := [], band := none,
    searches := [], frames := [], met := [], cmdWrite := false, cmdFrc := 0 }

/-- A camera that starts or stops: nothing is left of its stream; a mailbox command in progress goes on. -/
def Camera.renew (c : Camera) : Camera := { Camera.fresh with cmdWrite := c.cmdWrite, cmdFrc := c.cmdFrc }

def cameraOf (s : State) (k : Nat) : Camera := mget s.mere.cameras k Camera.fresh
def setCamera (s : State) (k : Nat) (v : Camera) : State :=
  { s with mere := { s.mere with cameras := mput s.mere.cameras k v } }

/-- 0 OFF, 1 STARTING, 2 STREAMING, 3 FAULT. -/
def cameraState (s : State) (k : Nat) : Nat := getF s MER.CAMSTAT_STATE k

/-- Whether a camera takes part: enabled and not in FAULT. -/
def cameraLive (s : State) (k : Nat) : Bool :=
  flag s MER.CAMCFG_EN k && (cameraState s k == 1 || cameraState s k == 2)

/-- The live cameras of a print group. -/
def groupCameras (s : State) (g : Nat) : List Nat :=
  (upto 2).filter (fun k => cameraLive s k && getF s MER.CAMCFG_PG k == g)

/-- DIV, PIX, CAMDLY and SX of a camera. -/
def camDiv (s : State) (k : Nat) : Nat := getF s MER.CAMCFG_DIV k + 1
def camPix (s : State) (k : Nat) : Nat := getF s MER.CAMIMG_PIX k
def camDelay (s : State) (k : Nat) : Nat := getF s MER.CAMDLY_LINES k
def camScale (s : State) (k : Nat) : Nat := Nat.max 4096 (getF s MER.CAMGEO_SX k)

/-- XADJ in 1/256 position and YADJ in lines, signed. -/
def camXadj (s : State) (k : Nat) : Int := signed (getF s MER.CAMREG_XADJ k) 16
def camYadj (s : State) (k : Nat) : Int := signed (getF s MER.CAMREG_YADJ k) 9

/-- S of a pixel, in 1/256 position (R165). -/
def pixelStart (s : State) (k x : Nat) : Int :=
  256 * (getF s MER.CAMGEO_XPOS k : Int) + camXadj s k + (x * camScale s k / 32 : Nat)

/-- Whether a pixel covers a bar position (R165). -/
def pixelCovers (s : State) (k x p : Nat) : Bool :=
  decide (pixelStart s k x ≤ 256 * (p : Int)) && decide (32 * (256 * (p : Int) - pixelStart s k x) < camScale s k)

/-- The positions of the bar a pixel covers; SX is below 8 positions. -/
def pixelPositions (s : State) (k x : Nat) : List Nat :=
  let p0 := (floorDiv (pixelStart s k x) 256).toNat
  (fromTo p0 (p0 + 9)).filter (fun p => decide (p < rowWidth) && pixelCovers s k x p)

/-- The pixels that cover a position. -/
def pixelsOver (s : State) (k p : Nat) : List Nat :=
  let x0 := (floorDiv (32 * (256 * (p : Int) - pixelStart s k 0)) (camScale s k)).toNat
  (fromTo (x0 - 1) (x0 + 1)).filter (fun x => decide (x < camPix s k) && pixelCovers s k x p)

/-- A = (PHASE − CAMDLY) mod DIV, the lag of the blocks of a camera (R165). -/
def blockLag (s : State) (k : Nat) : Nat :=
  (((getF s MER.CAMCFG_PHASE k : Int) - camDelay s k) % (camDiv s k : Int)).toNat

/-- The block that holds a group line; none for lines before block 0. -/
def blockOfLine (s : State) (k line : Nat) : Option Nat :=
  if line < blockLag s k then none else some ((line - blockLag s k) / camDiv s k)

/-- First group line of a block. -/
def blockLine (s : State) (k b : Nat) : Nat := b * camDiv s k + blockLag s k

/-! The rings (R180). -/

/-- Bytes per pixel, and bands, of a camera's FORMAT. -/
def camBytes (s : State) (k : Nat) : Nat := getF s MER.CAMCFG_FORMAT k + 1
def camBands (s : State) (k : Nat) : Nat := if getF s MER.CAMCFG_FORMAT k < 2 then 1 else 3

def camRingLines (s : State) (k : Nat) : Nat := 2 ^ (6 + Nat.min 10 (getF s MER.RBASE_CRLOG k))
def predLines (s : State) (k : Nat) : Nat := 2 ^ (10 + Nat.min 6 (getF s MER.RBASE_PRLOG k))
def camStride (s : State) (k : Nat) : Nat := ceilDiv (camPix s k * camBytes s k) 64 * 64
def predStride (s : State) (k : Nat) : Nat := ceilDiv (64 + 3 * camPix s k) 64 * 64

/-- A size rounded up to 1 MiB. -/
def wholeMib (n : Nat) : Nat := ceilDiv n (2 ^ 20) * 2 ^ 20

/-- Offsets in the CAMERA region: a camera's area, its prediction ring, its attribution ring, and the area's end. -/
def areaStart (s : State) (k : Nat) : Nat := getF s MER.RBASE_BASE k * 2 ^ 20
def predStart (s : State) (k : Nat) : Nat := areaStart s k + wholeMib (camRingLines s k * camStride s k)
def attrStart (s : State) (k : Nat) : Nat := predStart s k + wholeMib (predLines s k * predStride s k)
def areaEnd (s : State) (k : Nat) : Nat := attrStart s k + wholeMib (predLines s k * camPix s k * 4)

/-- Device address of an offset in the CAMERA region. -/
def cameraAddr (s : State) (off : Nat) : Nat := regionBase s 4 + off

/-- Device addresses of a block's prediction record and of its attribution words. -/
def predAddr (s : State) (k b : Nat) : Nat := cameraAddr s (predStart s k + b % predLines s k * predStride s k)
def attrAddr (s : State) (k b : Nat) : Nat := cameraAddr s (attrStart s k + b % predLines s k * camPix s k * 4)

/-! Strips (R174, R175). -/

def stripOf (s : State) (g : Nat) : Option Strip := mfind s.mere.strips g
def setStrip (s : State) (g : Nat) (v : Strip) : State :=
  { s with mere := { s.mere with strips := mput s.mere.strips g v } }

/-- The sections of a strip, in order: channel, e and q (R174). -/
def stripSections (s : State) (t : Strip) : List (Nat × Nat × Nat) :=
  ((upto 8).filter (fun c => bit t.chmask c)).flatMap (fun c =>
    (upto (cycleLines s c * strikesOf s c)).flatMap (fun e => (upto t.q).map (fun q => (c, e, q))))

/-- The strip frame a block of a group lies in: its strip and the frame's G0. -/
def blockStrip (s : State) (g : Nat) (owner : Option (Nat × Nat)) : Option (Strip × Nat) :=
  match owner, stripOf s g with
  | some (fsn, g0), some t => if t.fsn = fsn then some (t, g0) else none
  | _, _ => none

/-! The tap (R168, R176). -/

/-- Volume of a drop of level `v` of channel `c`. -/
def dropVolume (s : State) (c v : Nat) : Nat := (memByte s (0x7F0000680A00 + 8 * c + v)).toNat

/-- The frame that owns a group line, where one does: FSN and G0. -/
def lineOwner (s : State) (g line : Nat) : Option (Nat × Nat) :=
  ((groupFrames s g).find? (fun f => match f.g0 with
    | some g0 => decide (3 ≤ f.state) && f.state != 7 && decide (g0 ≤ line) && decide (line < g0 + f.lines)
    | none => false)).bind (fun f => f.g0.map (fun g0 => (f.fsn, g0)))

/-- The coverage code of a pixel and channel from its summed volume (R168). -/
def coverCode (v cells : Nat) : Nat := if cells = 0 then 0 else Nat.min 7 (8 * v / (cells * 255))

/-- The 24 bits of COV of a pixel. -/
def pixelCov (s : State) (k : Nat) (t : Tap) (x : Nat) : Nat :=
  let cells := (pixelPositions s k x).length * camDiv s k
  (upto 8).foldl (fun a c => a + 8 ^ c * coverCode (mget t.vols (8 * x + c) 0) cells) 0

/-- The attribution word of a pixel. -/
def attrWord (t : Tap) (x : Nat) : Nat :=
  match mfind t.drops x with
  | none => 2 ^ 24
  | some (n, a) => (match a with | some a => a + 2 ^ 23 | none => 0) + 2 ^ 25 * Nat.min 127 n

/-- The header of a block's record. -/
def predHeader (s : State) (k : Nat) (t : Tap) : List Byte :=
  let line := blockLine s k t.block
  let g := getF s MER.CAMCFG_PG k
  let strip := blockStrip s g t.owner
  let flags := bnat t.owner.isNone + 2 * bnat t.unsound + (match strip with
    | none => 0
    | some (p, g0) =>
      let sec := (line - g0) / p.len
      let last := decide (sec < (stripSections s p).length) && decide (g0 + (sec + 1) * p.len ≤ line + camDiv s k)
      4 + 8 * bnat last + 16 * (sec % 4096))
  toBytes 8 line ++ toBytes 8 ((t.owner.map (fun o => o.1)).getD 0) ++ toBytes 4 flags ++ toBytes 44 0

/-- Writes a block's prediction record and, in a strip frame, its attribution words. -/
def writeBlock (s : State) (k : Nat) (t : Tap) : State :=
  let xs := upto (camPix s k)
  let s' := engineWrite s (predAddr s k t.block) (predHeader s k t ++ xs.flatMap (fun x => toBytes 3 (pixelCov s k t x)))
  match blockStrip s (getF s MER.CAMCFG_PG k) t.owner with
  | none => s'
  | some _ => engineWrite s' (attrAddr s k t.block) (xs.flatMap (fun x => toBytes 4 (attrWord t x)))

/-- Writes the blocks of a camera whose last line every channel of the group has passed. -/
def closeBlocks (s : State) (k : Nat) : State :=
  let g := getF s MER.CAMCFG_PG k
  let passed (t : Tap) : Bool :=
    (groupChannels s g).all (fun c => decide (blockLine s k t.block + camDiv s k ≤ getP s HMK.LASTLINE c + 1))
  let c := cameraOf s k
  let s' := forEach (c.taps.filter passed) s (fun s t => writeBlock s k t)
  setCamera s' k { c with taps := c.taps.filter (fun t => !passed t) }

/-- One drop enters a block: a pixel, a channel, its volume and its nozzle. -/
def Tap.drop (t : Tap) (x c vol a : Nat) : Tap :=
  { t with
    vols := mput t.vols (8 * x + c) (mget t.vols (8 * x + c) 0 + vol)
    drops := match mfind t.drops x with
      | none => mput t.drops x (1, some a)
      | some (n, b) => mput t.drops x (n + 1, if b = some a then b else none) }

/-- A strip learns the G0 of its frame. -/
def stripMet (s : State) (g : Nat) (owner : Option (Nat × Nat)) : State :=
  match blockStrip s g owner with
  | some (t, g0) => if t.g0.isNone then setStrip s g { t with g0 := some g0 } else s
  | none => s

/-- The tap takes what one line of a channel fires, by row and position, for one camera (R168). -/
def tapCamera (s : State) (k c g line : Nat) (fired : List (Nat × Nat × Nat)) : State :=
  match blockOfLine s k line with
  | none => s
  | some b =>
    let cam := cameraOf s k
    let t := match cam.taps.find? (fun t => t.block == b) with
      | some t => t
      | none => ⟨b, lineOwner s g (blockLine s k b), [], [], false⟩
    let t := fired.foldl (fun t e =>
      (pixelsOver s k e.2.1).foldl (fun t x => t.drop x c (dropVolume s c e.2.2) (e.1 * rowWidth + e.2.1)) t) t
    let cam := { cam with taps := cam.taps.filter (fun x => x.block != b) ++ [t] }
    let cam := match lineOwner s g line with
      | some o => if cam.met.contains o then cam else
          { cam with frames := cam.frames ++ [o], met := cam.met.filter (fun e => (frameOf s g e.1).isSome) ++ [o] }
      | none => cam
    closeBlocks (setCamera s k cam) k

/-- The tap takes the levels a line of a channel fires: row and levels from the span's first position on. -/
def tapLine (s : State) (c line : Nat) (segs : List (Nat × List Nat)) : State :=
  match groupOf s c with
  | none => s
  | some g =>
    let first := spanFirst s c
    let fired := segs.flatMap (fun e => ((upto e.2.length).filter (fun i => nth e.2 i != 0)).map (fun i => (e.1, first + i, nth e.2 i)))
    forEach (groupCameras s g) (stripMet s g (lineOwner s g line)) (fun s k => tapCamera s k c g line fired)

/-- A block becomes unsound: in the tap, or in the header of its record where the ring still holds it (R169). -/
def unsoundBlock (s : State) (k b : Nat) : State :=
  let cam := cameraOf s k
  if cam.taps.any (fun t => t.block == b) then
    setCamera s k { cam with taps := cam.taps.map (fun t => if t.block = b then { t with unsound := true } else t) }
  else
    let a := predAddr s k b
    if loadNat s a 8 = blockLine s k b then putBytes s (a + 16) [memByte s (a + 16) ||| 2] else s

/-- A row-line of a group line is late, suppressed, misplaced, clamped, blanked or refused: its blocks are unsound (R169). -/
def markUnsound (s : State) (g line : Nat) : State :=
  forEach (groupCameras s g) s (fun s k => match blockOfLine s k line with | some b => unsoundBlock s k b | none => s)

/-! Camera triggers (R161). -/

/-- A measured trigger of a group triggers its streaming cameras (R161). -/
def triggerCameras (s : State) (g n tm : Nat) : State :=
  forEach ((groupCameras s g).filter (fun k => cameraState s k == 2)) s (fun s k =>
    if n % camDiv s k = getF s MER.CAMCFG_PHASE k then
      let cam := cameraOf s k
      let early := match cam.lastSent with
        | some t => decide (tm < t + getF s MER.CAMCFG_MINPER k * 10 * 65536)
        | none => false
      if early then incF s MER.CAMCNT (8 * k + 1)
      else setCamera (sendPin s 2 (.cameraTrigger k n)) k { cam with sent := cam.sent ++ [n], lastSent := some tm }
    else s)

/-! Checks of a camera (R164). -/

/-- Check 4: the delay and the prediction ring. -/
def cameraDelayBad (s : State) (k : Nat) : Bool :=
  let g := getF s MER.CAMCFG_PG k
  let rows := (groupChannels s g).flatMap (channelRows s)
  let most := (rows.map (fun r => getF s LDE.ROWDLY_LINES r)).foldl Nat.max 0
  decide (camDelay s k < most + 256) || decide (predLines s k * camDiv s k < camDelay s k + openLines s g + 512)

/-- A camera enters FAULT with a code. -/
def cameraFault (s : State) (k code : Nat) : State :=
  setF (setF (setF s MER.CAMSTAT_STATE 3 k) MER.CAMSTAT_CODE code k) MER.ERR_CAM_FAULT 1

/-- A successful geometry validation repeats check 4 for every enabled camera (R164). -/
def recheckCameras (s : State) : State :=
  forEach ((upto 2).filter (fun k => flag s MER.CAMCFG_EN k && cameraDelayBad s k)) s (fun s k => cameraFault s k 4)

end Sys2Proof.Machine
end

