-- ==== Sys2Proof/Machine/Sedge.lean ====
section
/-!
DEFINITION. The Sedge pipelines: upsampling, linearisation, edge merge, the ink limiter, screening, and banks that change
at a stated line (R69 to R88).
-/

namespace Sys2Proof.Machine

/-! Tables in Sedge storage (Table: Sedge storage). -/

def sedgeBase : Nat := 0x7F0001000000
def sedgeBytes : Nat := 0x408800
def linBase : Nat := 0x7F0001400000
def splitBase : Nat := 0x7F0001408000

/-- Threshold of a screen slot at a row and column. -/
def threshold (s : State) (k row col : Nat) : Nat := loadNat s (sedgeBase + 0x20000 * k + 512 * row + 2 * col) 2

/-- Entry of a linearisation table; entry 0 is 0 (R73). -/
def linEntry (s : State) (c b t v : Nat) : Nat :=
  if v = 0 then 0 else loadNat s (linBase + 512 * (8 * c + 4 * b + t) + 2 * v) 2 % 4096

/-- Word of a level-split table. -/
def splitWord (s : State) (c b i j : Nat) : Nat := loadNat s (splitBase + 32 * (8 * c + 4 * b + i) + 4 * j) 4

/-- Active boundaries of a level-split table. -/
def splitNb (s : State) (c b i : Nat) : Nat := splitWord s c b i 7 % 8

/-- B_j; B_0 is 0. -/
def splitBound (s : State) (c b i j : Nat) : Nat := if j = 0 then 0 else bits (splitWord s c b i (j - 1)) 0 12

/-- D_j; D_0 is 0. -/
def splitLevel (s : State) (c b i j : Nat) : Nat := if j = 0 then 0 else bits (splitWord s c b i (j - 1)) 16 3

/-- Whether a split table is valid (R80). -/
def splitValid (s : State) (c b i : Nat) : Bool :=
  let nb := splitNb s c b i
  decide (1 ≤ nb) && (upto nb).all (fun j => decide (splitBound s c b i j < splitBound s c b i (j + 1)))

/-! Banks (R84 to R87). -/

/-- The index of a bank's entry in TAGCFG, SCRMAP and the tables. -/
def bankIndex (c b t : Nat) : Nat := 8 * c + 4 * b + t

/-- ACTIVE of a channel: 0 or 1, or 2 for NONE. -/
def activeBank (s : State) (c : Nat) : Nat := getF s SDG.CHSTAT_ACTIVE c

/-- Whether a bank of a channel is PENDING. -/
def bankPending (s : State) (c : Nat) : Bool := flag s SDG.CHSTAT_PENDING c

/-- The lines of a channel that are in Sedge. -/
def sedgeLines (s : State) (c : Nat) : List SedgeLine := mget s.print.sedge c []
def setSedge (s : State) (c : Nat) (l : List SedgeLine) : State := { s with print := { s.print with sedge := mput s.print.sedge c l } }

/-- Whether a bank of a channel is not idle: ACTIVE, PENDING, or replaced with lines that took it still in Sedge (R84, R86). -/
def bankBusy (s : State) (c b : Nat) : Bool :=
  activeBank s c == b || (bankPending s c && getF s SDG.CHSTAT_PBANK c == b) || (sedgeLines s c).any (fun l => l.bank == b)

/-- The screen indices reachable through a bank (R85). -/
def reachable (s : State) (c b : Nat) : List Nat :=
  (upto 4).flatMap (fun t =>
    let i := bankIndex c b t
    [getF s SDG.TAGCFG_TSCR i] ++ (if flag s SDG.TAGCFG_ESEN i then [getF s SDG.TAGCFG_ESCR i] else []))

/-- R85 check 3: every reachable screen has a loaded slot and a valid split table. -/
def bankUsable (s : State) (c b : Nat) : Bool :=
  (reachable s c b).all (fun i =>
    flag s SDG.SLOTCFG_VALID (getF s SDG.SCRMAP_SLOT (bankIndex c b i)) && splitValid s c b i)

/-- Whether a screen slot is in use (R82). -/
def slotInUse (s : State) (k : Nat) : Bool :=
  (upto 8).any (fun c => lodeRuns s c && (upto 2).any (fun b => bankBusy s c b &&
    (upto 4).any (fun i => getF s SDG.SCRMAP_SLOT (bankIndex c b i) == k)))

/-- Whether a limiter bank of a group is not idle: in force, PENDING, or replaced with a line from before the switch still in
Sedge (R84, R86). -/
def limiterBusy (s : State) (g b : Nat) : Bool :=
  getF s SDG.INKSTAT_ACTIVE g == b || flag s SDG.INKSTAT_PENDING g ||
  (groupChannels s g).any (fun c => (sedgeLines s c).any (fun l => decide (l.line < mget s.print.limiterFrom g 0)))

/-- Whether a channel of a group has neither a bank ACTIVE nor one PENDING (R87). -/
def noScreen (s : State) (g : Nat) : Bool := (groupChannels s g).any (fun c => activeBank s c == 2 && !bankPending s c)

/-- What an SCRSEL asks for (R239). -/
structure Select where
  group : Nat
  chmask : Nat
  bank : Nat
  limiter : Bool
  lbank : Nat
  ge : Nat
  deriving DecidableEq, Repr

/-- The line an accepted change must lie above, in a pair raised by OPEN and GUARD (R304). -/
def lineBound (s : State) (g b : Nat) : Nat :=
  if inPair s then Nat.max b ((lastTrigger s g).getD 0 + openLines s g + getF s TWN.CFG_GUARD) else b

/-- The code an SCRSEL completes with, by the checks of R85 in their order. -/
def selectCheck (s : State) (q : Select) : Nat :=
  let named := (upto 8).filter (fun c => bit q.chmask c)
  if named.any (fun c => !flagBit s LDE.PGCFG_CHMASK c q.group) then 0x21
  else if named.any (bankPending s) || (q.limiter && flag s SDG.INKSTAT_PENDING q.group) then 0x22
  else if named.any (fun c => !bankUsable s c q.bank) then 0x23
  else
    let lines := (if q.limiter then groupChannels s q.group else named).map (fun c => getP s SDG.LASTLINE c) ++
      named.map (fun c => getP s SDG.LASTLINE c)
    if lines.any (fun l => decide (q.ge ≤ lineBound s q.group l)) then 0x14 else 0

/-- An accepted SCRSEL: every element whose target is not ACTIVE takes it as PENDING (R85). -/
def selectApply (s : State) (q : Select) : State :=
  let s := forEach ((upto 8).filter (fun c => bit q.chmask c)) s (fun s c =>
    if activeBank s c = q.bank then s
    else setP (setF (setF s SDG.CHSTAT_PENDING 1 c) SDG.CHSTAT_PBANK q.bank c) SDG.PENDLINE q.ge c)
  if q.limiter ∧ getF s SDG.INKSTAT_ACTIVE q.group ≠ q.lbank then
    let s := setF s SDG.INKSTAT_PENDING 1 q.group
    { s with print := { s.print with limiterGe := mput s.print.limiterGe q.group q.ge } }
  else s

/-- SCRSEL's refusal with BANK_INVALID records its channel (R85). -/
def selectRefuse (s : State) (q : Select) (code : Nat) : State :=
  if code = 0x23 then
    let bad := ((upto 8).filter (fun c => bit q.chmask c && !bankUsable s c q.bank)).headD 0
    setF (setF s SDG.ERR_BANK 1) SDG.ERR_BANKCH bad
  else s

/-! The stages (R69 to R75). -/

/-- The staging of a plane that governs a frame line: of two that cover it, the later (R231). V is 1 for EDGE and DIRECT. -/
def governing (s : State) (f : Frame) (c plane i : Nat) : Option Staging :=
  (f.stagings.filter (fun t => t.ch == c && t.plane == plane &&
    (let v := if plane = 0 ∨ plane = 2 then vIn s f.group c else 1
     decide (t.first ≤ i) && decide (i < t.first + v * (match bandOf s t.band with | some b => b.lines | none => 0))))).getLast?

/-- Lines of a band line's plane along the web. -/
def planeV (s : State) (f : Frame) (c plane : Nat) : Nat := if plane = 0 ∨ plane = 2 then vIn s f.group c else 1

/-- The decoded band line that serves a frame line of a plane, where the engine holds it. -/
def decodedLine (s : State) (f : Frame) (c plane i : Nat) : Option LeadLine :=
  match governing s f c plane i with
  | none => none
  | some t =>
    let e := if plane = 0 then 2 * c else 2 * c + 1
    (mget s.intake.leads e []).find? (fun l =>
      l.frame == f.key && l.band == t.band && l.plane == plane && l.line == (i - t.first) / planeV s f c plane)

/-- Pixel `x` of a decoded line of a plane (Table: plane encodings and packing); 0 where no band covers (R36). -/
def pixel (l : Option LeadLine) (plane x : Nat) : Nat :=
  match l with
  | none => 0
  | some l =>
    let b (i : Nat) : Nat := ((l.bytes.getD i 0 : Byte)).toNat
    if plane = 0 then b x
    else if plane = 1 then b (x / 8) / 2 ^ (x % 8) % 2
    else if plane = 2 then b (x / 4) / 4 ^ (x % 4) % 4
    else (b (3 * x / 8) + 256 * b (3 * x / 8 + 1)) / 2 ^ (3 * x % 8) % 8

/-- Whether a plane of a frame line is decoded, or needs no decoding. -/
def planeReady (s : State) (f : Frame) (c plane i : Nat) : Bool :=
  (governing s f c plane i).isNone || (decodedLine s f c plane i).isSome

/-- The first frame line of the contone line after the one that covers frame line `i` (R72). -/
def nextContone (s : State) (f : Frame) (c i : Nat) : Nat :=
  match governing s f c 0 i with
  | some t => t.first + ((i - t.first) / vIn s f.group c + 1) * vIn s f.group c
  | none => i + vIn s f.group c

/-- Whether a channel interpolates along the web for a frame line. -/
def needsNext (s : State) (f : Frame) (c i : Nat) : Bool :=
  flag s SDG.CHCFG_UPMODE c && decide (1 < vIn s f.group c) && decide (nextContone s f c i < f.lines)

/-- Whether every decoded line that a frame line needs is ahead of Sedge (R56). -/
def lineDecoded (s : State) (f : Frame) (c i : Nat) : Bool :=
  (upto 4).all (fun p => planeReady s f c p i) &&
  (!needsNext s f c i || (planeReady s f c 0 (nextContone s f c i) && planeReady s f c 2 (nextContone s f c i)))

/-- The weight of the next contone line in a frame line, in quarters (R72). -/
def nextWeight (s : State) (f : Frame) (c i : Nat) : Nat :=
  let v := vIn s f.group c
  let first := match governing s f c 0 i with | some t => t.first | none => i
  (i - first) % v * 4 / v

/-- Upsampled contone at position `x` of the span (R71, R72). -/
def upsample (s : State) (f : Frame) (c i h : Nat) (cur nxt tagc tagn : Option LeadLine) (nextOk : Bool) (x : Nat) : Nat :=
  let w := spanCount s c / h
  let xc := x / h
  let c00 := pixel cur 0 xc
  if !flag s SDG.CHCFG_UPMODE c then c00
  else
    let ax := x % h * 4 / h
    let ay := nextWeight s f c i
    let tag := pixel tagc 2 xc
    let right := decide (xc + 1 < w)
    let c10 := if right && pixel tagc 2 (xc + 1) == tag then pixel cur 0 (xc + 1) else c00
    let c01 := if nextOk && pixel tagn 2 xc == tag then pixel nxt 0 xc else c00
    let c11 := if nextOk && right && pixel tagn 2 (xc + 1) == tag then pixel nxt 0 (xc + 1) else c00
    (c00 * (4 - ax) * (4 - ay) + c10 * ax * (4 - ay) + c01 * (4 - ax) * ay + c11 * ax * ay + 8) / 16

/-- Edge merge (R74). -/
def edgeMerge (mode el l1 : Nat) (e : Bool) : Nat :=
  if !e then l1 else if mode = 0 then l1 else if mode = 1 then el else if mode = 2 then Nat.max l1 el else Nat.min l1 el

/-- Coverage and screen index of each position of a line that is not a DIRECT line (R69 to R75). -/
def sedgePixels (s : State) (f : Frame) (c i b : Nat) : List (Nat × Nat) :=
  let h := hIn s f.group c
  let cur := decodedLine s f c 0 i
  let tagc := decodedLine s f c 2 i
  let edge := decodedLine s f c 1 i
  let ni := nextContone s f c i
  let nextOk := decide (ni < f.lines) && (governing s f c 0 ni).isSome
  let nxt := decodedLine s f c 0 ni
  let tagn := decodedLine s f c 2 ni
  (upto (spanCount s c)).map (fun x =>
    let tag := pixel tagc 2 (x / h)
    let e := pixel edge 1 x == 1
    let k := bankIndex c b tag
    let l1 := linEntry s c b tag (upsample s f c i h cur nxt tagc tagn nextOk x)
    (edgeMerge (getF s SDG.TAGCFG_EMODE k) (getF s SDG.TAGCFG_EL k) l1 e,
     if e && flag s SDG.TAGCFG_ESEN k then getF s SDG.TAGCFG_ESCR k else getF s SDG.TAGCFG_TSCR k))

/-- A PENDING bank becomes ACTIVE as a line at or above its Ge enters, where check 3 of R85 still holds (R86). -/
def bankSwitch (s : State) (c line : Nat) : State :=
  if bankPending s c && decide (getP s SDG.PENDLINE c ≤ line) && bankUsable s c (getF s SDG.CHSTAT_PBANK c) then
    setP (setF (setF s SDG.CHSTAT_ACTIVE (getF s SDG.CHSTAT_PBANK c) c) SDG.CHSTAT_PENDING 0 c) SDG.PENDLINE 0 c
  else s

/-- Lets the decoded lines go that no later frame line of the channel needs. -/
def dropLeads (s : State) (f : Frame) (c i : Nat) : State :=
  forEach [2 * c, 2 * c + 1] s (fun s e =>
    let keep (l : LeadLine) : Bool :=
      l.frame != f.key ||
      (match f.stagings.find? (fun t => t.band == l.band) with
       | some t => decide (i < t.first + (l.line + 1) * planeV s f c l.plane - 1)
       | none => false)
    suspendWork { s with intake := { s.intake with leads := mput s.intake.leads e ((mget s.intake.leads e []).filter keep) } } e)

/-- A line enters a channel's Sedge pipeline and takes the bank in force (R69, R70, R86, R87). -/
def sedgeEnter (s : State) (c : Nat) : State :=
  match mget s.print.admitted c [] with
  | [] => s
  | (key, i) :: rest =>
    match frameAt s key with
    | none => { s with print := { s.print with admitted := mput s.print.admitted c rest } }
    | some f =>
      match f.g0 with
      | none => s
      | some g0 =>
        if !lineDecoded s f c i then s
        else
          let line := g0 + i
          let s := { s with print := { s.print with admitted := mput s.print.admitted c rest } }
          let pend := bankPending s c && decide (getP s SDG.PENDLINE c ≤ line)
          let failed := pend && !bankUsable s c (getF s SDG.CHSTAT_PBANK c)
          let s := bankSwitch s c line
          let s := setP s SDG.LASTLINE line c
          let direct := (governing s f c 3 i).isSome
          let dl := decodedLine s f c 3 i
          let b := activeBank s c
          let blank := !direct && (b == 2 || failed)
          let n := spanCount s c
          let px := if direct then (upto n).map (fun x => (pixel dl 3 x, 0))
            else if blank then (upto n).map (fun _ => (0, 0)) else sedgePixels s f c i b
          let ni := nextContone s f c i
          let next := if needsNext s f c i && nextWeight s f c i != 0 then [decodedLine s f c 0 ni, decodedLine s f c 2 ni] else []
          let used := if direct then [dl] else [decodedLine s f c 0 i, decodedLine s f c 1 i, decodedLine s f c 2 i] ++ next
          let hold := inPair s && used.any (fun l => match l with | some l => l.poisoned | none => false)
          let l : SedgeLine := ⟨key, line, i, direct, blank, b, px.map (fun p => p.1), px.map (fun p => p.2), none, hold⟩
          let s := setSedge s c (sedgeLines s c ++ [l])
          let s := dropLeads s f c i
          if blank then markSpoil (setF s SDG.ERR_NO_SCREEN 1) key 7 else s

/-! The ink limiter and screening (R76 to R80). -/

/-- The weight of a channel in a group's limiter bank (R76). -/
def inkWeight (s : State) (g b c : Nat) : Nat :=
  bits (regRaw s (SDG.INKW.off (4 * g + 2 * b + c / 4))).toNat (8 * (c % 4)) 8

/-- One channel's part in a pixel: channel, weight, contribution, its coverage, and whether it is protected. -/
structure InkPart where
  c : Nat
  w : Nat
  v : Nat
  prot : Bool
  deriving DecidableEq, Repr

/-- The outputs of the limiter at one pixel, by channel, and whether it limited or overflowed (R76). -/
def limitPixel (limit : Nat) (ps : List InkPart) : List (Nat × Nat) × Bool × Bool :=
  let sum (q : List InkPart) : Nat := (q.map (fun p => p.w * p.v)).foldl (· + ·) 0
  let tp := sum (ps.filter (fun p => p.prot))
  let tu := sum (ps.filter (fun p => !p.prot))
  if tp + tu ≤ limit then (ps.map (fun p => (p.c, p.v)), false, false)
  else if limit ≤ tp then (ps.map (fun p => (p.c, if p.prot then p.v else 0)), true, decide (limit < tp))
  else
    let sc := (limit - tp) * 65536 / tu
    (ps.map (fun p => (p.c, if p.prot then p.v else p.v * sc / 65536)), true, false)

/-- The level of a coverage at a threshold (R80). -/
def splitTo (s : State) (c b i l t : Nat) : Nat :=
  let nb := splitNb s c b i
  let j := ((upto (nb + 1)).filter (fun j => decide (splitBound s c b i j ≤ l))).foldl Nat.max 0
  if j = nb then splitLevel s c b i nb
  else if t * (splitBound s c b i (j + 1) - splitBound s c b i j) < (l - splitBound s c b i j) * 65536 then
    splitLevel s c b i (j + 1)
  else splitLevel s c b i j

/-- The threshold of a screen at a position of a line (R79). -/
def screenAt (s : State) (c b i p fline line : Nat) : Nat :=
  let e := bankIndex c b i
  let k := getF s SDG.SCRMAP_SLOT e
  let w := getF s SDG.SLOTCFG_W k + 1
  let ht := getF s SDG.SLOTCFG_HT k + 1
  let y := if flag s SDG.SCRMAP_ANCHOR e then line else fline
  threshold s k ((y + getF s SDG.SCRMAP_OY e) % ht) ((p + getF s SDG.SCRMAP_OX e) % w)

/-- The oldest line of a channel that has not met the limiter. -/
def limiterNext (s : State) (c : Nat) : Option SedgeLine := (sedgeLines s c).find? (fun l => l.levels.isNone)

/-- All channels of a group take the limiter together for one group line, and are screened (R14, R76 to R80). -/
def limiterRun (s : State) (g : Nat) : State :=
  let cs := groupChannels s g
  match cs.head?.bind (limiterNext s) with
  | none => s
  | some l0 =>
    if !(cs.all (fun c => match limiterNext s c with | some l => l.line == l0.line | none => false)) then s
    else
      let s :=
        if flag s SDG.INKSTAT_PENDING g ∧ mget s.print.limiterGe g 0 ≤ l0.line then
          setF (setF { s with print := { s.print with limiterFrom := mput s.print.limiterFrom g l0.line } }
            SDG.INKSTAT_ACTIVE (1 - getF s SDG.INKSTAT_ACTIVE g) g) SDG.INKSTAT_PENDING 0 g
        else s
      let b := getF s SDG.INKSTAT_ACTIVE g
      let limit := getF s SDG.INKCAP_LIMIT (2 * g + b)
      let prot := getF s SDG.INKCAP_PROT (2 * g + b)
      let lines := cs.filterMap (fun c => (limiterNext s c).map (fun l => (c, l)))
      let partAt (p : Nat) (e : Nat × SedgeLine) : Option InkPart :=
        if spanFirst s e.1 ≤ p ∧ p < spanFirst s e.1 + spanCount s e.1 then
          let w := inkWeight s g b e.1
          let x := nth e.2.cover (p - spanFirst s e.1)
          some ⟨e.1, w, if e.2.direct then (if x = 0 then 0 else getF s SDG.DEQ_EQ (8 * e.1 + x)) else x,
            bit prot e.1 || e.2.direct || w == 0⟩
        else none
      let px := (upto rowWidth).map (fun p => limitPixel limit (lines.filterMap (partAt p)))
      let cnt := (px.filter (fun r => r.2.1)).length
      let ovr := (px.filter (fun r => r.2.2)).length
      let s := addF (addF s SDG.INKCNT cnt g) SDG.INKOVR ovr g
      forEach lines s (fun s e =>
        let c := e.1
        let l := e.2
        let levels := (upto (spanCount s c)).map (fun x =>
          let p := spanFirst s c + x
          if l.direct then nth l.cover x
          else if l.blankScreen then 0
          else
            let l3 := match ((px.getD p ([], false, false)).1).find? (fun q => q.1 == c) with | some q => q.2 | none => 0
            let i := nth l.screen x
            splitTo s c l.bank i l3 (screenAt s c l.bank i p l.fline l.line))
        setSedge s c ((sedgeLines s c).map (fun m => if m.line = l.line then { m with levels := some levels } else m)))

/-- The oldest line of a channel leaves Sedge for the Hummock logic (R88). -/
def sedgeLeave (s : State) (c : Nat) : State :=
  match sedgeLines s c with
  | [] => s
  | l :: rest =>
    if l.levels.isNone then s
    else
      let s := setSedge s c rest
      { s with print := { s.print with left := mput s.print.left c (mget s.print.left c [] ++ [l]) } }

/-- Bank 0 of a group's limiter in force at its reset values, which disable the limiter (R87). -/
def limiterReset (s : State) (g : Nat) : State :=
  let s := setF (setF s SDG.INKW 0x40404040 (4 * g)) SDG.INKW 0x40404040 (4 * g + 1)
  setF (setF s SDG.INKCAP 0xFFFFFF (2 * g)) SDG.INKSTAT_ACTIVE 0 g

/-- Loss of PD_MAPS as Sedge meets it: storage cleared, slots invalid, ACTIVE NONE, and limiters disabled (R83, R87). -/
def sedgeMapsLost (s : State) : State :=
  let s := zeroRange s sedgeBase sedgeBytes
  let s := forEach (upto 32) s (fun s k => setF s SDG.SLOTCFG_VALID 0 k)
  let s := forEach (upto 8) s (fun s c => setF s SDG.CHSTAT_ACTIVE 2 c)
  let s := forEach (upto 4) s limiterReset
  setF s SDG.ERR_MAPS_LOST 1

end Sys2Proof.Machine
end

