-- ==== Sys2Proof/Machine/Hummock.lean ====
section
/-!
DEFINITION. The Hummock logic: nozzle codes, strikes, seams, compensation, gain classes and row segments, and updates of the
map at a stated line (R90 to R108).
-/

namespace Sys2Proof.Machine

def mapBase : Nat := 0x7F0000000000
def mapBytes : Nat := 0x340000
def matrixBase : Nat := 0x7F0000400000

/-- The map code of nozzle `a` (R22, R91). -/
def nozzleCode (s : State) (a : Nat) : Nat := (memByte s (mapBase + a / 2)).toNat / 16 ^ (a % 2) % 16

/-- Writes the map code of a nozzle. -/
def setNozzleCode (s : State) (a v : Nat) : State :=
  putBytes s (mapBase + a / 2) [BitVec.ofNat 8 (setBits (memByte s (mapBase + a / 2)).toNat (4 * (a % 2)) 4 v)]

/-- The nozzle address of a row and position (R21). -/
def nozzleAddr (r p : Nat) : Nat := r * rowWidth + p

/-- Whether a nozzle is printable on a channel (R91). -/
def printable (s : State) (c a : Nat) : Bool :=
  match nozzleCode s a % 4 with
  | 0 => true
  | 1 => !flag s HMK.CHCFG_WEAKPOL c
  | 2 => false
  | _ => flag s HMK.CHCFG_DEVPOL c

/-- The head of a row that covers a position. -/
def headOver (s : State) (r p : Nat) : Option (Nat × Head) := (rowHeads s r).find? (fun e => e.2.covers p)

/-- Whether the incoming head prints a position of a seam (R95). -/
def incomingPrints (s : State) (c line p : Nat) (inc out : Head) : Bool :=
  let a := inc.first
  let w := out.stop - a
  let j := p - a
  if flag s HMK.CHCFG_BLEND c then decide (w / 2 ≤ j)
  else decide ((memByte s (matrixBase + 64 * (line % 64) + p % 64)).toNat * (w + 1) < 256 * (j + 1))

/-- The row whose nozzle prints a position of a strike, and the other row where both heads cover it (R94, R95). -/
def ownRow (s : State) (c line r p : Nat) : Nat × Option Nat :=
  match rowPartner s r with
  | none => (r, none)
  | some q =>
    match headOver s r p, headOver s q p with
    | some e, some f =>
      let incE := incoming e f
      let incPrints := if incE then incomingPrints s c line p e.2 f.2 else incomingPrints s c line p f.2 e.2
      if incPrints == incE then (r, some q) else (q, some r)
    | none, some _ => (q, none)
    | _, none => (r, none)

/-- One position of one strike while a line is compensated: its level and the row whose nozzle prints it. -/
structure Cell where
  lv : Nat
  own : Nat
  deriving DecidableEq, Repr

/-- Drops moved, substituted, spread and lost on a line. -/
structure MoveCount where
  fb : Nat
  sub : Nat
  spr : Nat
  lost : Nat
  deriving DecidableEq, Repr

/-- Whether a cell's nozzle is printable. -/
def cellOk (s : State) (c p : Nat) (x : Cell) : Bool := printable s c (nozzleAddr x.own p)

/-- Fallback at one position of one strike (R96). -/
def fallback (s : State) (c p lv : Nat) (o : Nat × Option Nat) : Cell × Nat :=
  match o.2 with
  | none => (⟨lv, o.1⟩, 0)
  | some q =>
    if !printable s c (nozzleAddr o.1 p) && printable s c (nozzleAddr q p) then (⟨lv, q⟩, if 0 < lv then 1 else 0)
    else (⟨lv, o.1⟩, 0)

/-- Substitution at one position over the strikes (R97). -/
def substitute (s : State) (c p : Nat) (col : List Cell) : List Cell × Nat :=
  let n := col.length
  (upto n).foldl (fun (r : List Cell × Nat) k =>
    match r.1[k]? with
    | none => r
    | some x =>
      if x.lv = 0 || cellOk s c p x then r
      else match ((fromTo 1 (n - 1)).map (fun d => (k + d) % n)).find? (fun j =>
          match r.1[j]? with | some y => y.lv == 0 && cellOk s c p y | none => false) with
        | none => r
        | some j =>
          match r.1[j]? with
          | none => r
          | some y => ((r.1.set j { y with lv := x.lv }).set k { x with lv := 0 }, r.2 + 1)) (col, 0)

/-- The new level of a receiver (R98). -/
def spreadLevel (s : State) (c o d : Nat) : Nat := bits (regRaw s (HMK.SPREAD.off (8 * c + o))).toNat (3 * d) 3

/-- Spreading over one strike (R98): the strike's cells in ascending position, with drops spread and lost. -/
def spreadStrike (s : State) (c line : Nat) (row : List Cell) : List Cell × Nat × Nat :=
  let first := spanFirst s c
  let m := cycleLines s c
  (upto row.length).foldl (fun (r : List Cell × Nat × Nat) x =>
    match r.1[x]? with
    | none => r
    | some d =>
      let p := first + x
      if d.lv = 0 || cellOk s c p d then r
      else
        let cells := r.1.set x { d with lv := 0 }
        let left : List Nat := if x = 0 then [] else [x - 1]
        let order := if (line / m + p) % 2 = 0 then left ++ [x + 1] else [x + 1] ++ left
        match order.find? (fun y => match cells[y]? with | some e => cellOk s c (first + y) e | none => false) with
        | none => (cells, r.2.1, r.2.2 + 1)
        | some y =>
          match cells[y]? with
          | none => r
          | some e => (cells.set y { e with lv := spreadLevel s c e.lv d.lv }, r.2.1 + 1, r.2.2)) (row, 0, 0)

/-- The cells of a line by strike, after strikes, nozzles, fallback, substitution and spreading (R93 to R98). -/
def compensate (s : State) (c line : Nat) (levels : List Nat) : List (List Cell) × MoveCount :=
  let n := strikesOf s c
  let m := cycleLines s c
  let first := spanFirst s c
  let rowFor (k : Nat) : Nat :=
    match (slotsOf s c).find? (fun t => t.2.1 == line % m && t.2.2 == k) with | some t => t.1 | none => 0
  let cols := (upto levels.length).map (fun x =>
    let p := first + x
    let fb := (upto n).map (fun k =>
      fallback s c p (if (p + line) % n = k then nth levels x else 0) (ownRow s c line (rowFor k) p))
    let col := fb.map (fun e => e.1)
    let sub := if flag s HMK.CHCFG_SUBEN c && decide (1 < n) then substitute s c p col else (col, 0)
    (sub.1, (fb.map (fun e => e.2)).foldl (· + ·) 0, sub.2))
  let fbs := (cols.map (fun e => e.2.1)).foldl (· + ·) 0
  let subs := (cols.map (fun e => e.2.2)).foldl (· + ·) 0
  let strikes := (upto n).map (fun k =>
    let row := cols.map (fun e => e.1.getD k ⟨0, 0⟩)
    if flag s HMK.CHCFG_SPREADEN c then spreadStrike s c line row
    else
      let bad := (row.zip (upto row.length)).map (fun e => decide (0 < e.1.lv) && !cellOk s c (first + e.2) e.1)
      ((row.zip bad).map (fun e => if e.2 then { e.1 with lv := 0 } else e.1), 0, (bad.filter id).length))
  (strikes.map (fun e => e.1),
   ⟨fbs, subs, (strikes.map (fun e => e.2.1)).foldl (· + ·) 0, (strikes.map (fun e => e.2.2)).foldl (· + ·) 0⟩)

/-- The level a cell fires (R100). -/
def firedLevel (s : State) (c p : Nat) (x : Cell) : Nat :=
  if cellOk s c p x then
    bits (regRaw s (HMK.GAINMAP.off (4 * x.own + nozzleCode s (nozzleAddr x.own p) / 4))).toNat (3 * x.lv) 3
  else 0

/-- The segment of a row for one strike: its levels where its heads cover and its nozzle prints (R101). -/
def rowSegment (s : State) (c r : Nat) (cells : List Cell) : List Nat :=
  let first := spanFirst s c
  (cells.zip (upto cells.length)).map (fun e =>
    let p := first + e.2
    if e.1.own = r ∧ (headOver s r p).isSome then firedLevel s c p e.1 else 0)

/-- A stripe's level on a row's segment (R288). -/
def stripeSegment (s : State) (f : Frame) (c r line : Nat) (seg : List Nat) : Option (List Nat) :=
  let g := f.group
  if f.stripes.any (fun t => decide (t.1 ≤ line) && decide (line ≤ t.2.1)) && getF s LDG.MARKCFG_ROW g == r then
    let a := getF s LDG.STRIPE_FIRST g
    let w := getF s LDG.STRIPE_WIDTH g
    some ((seg.zip (upto seg.length)).map (fun e =>
      let p := spanFirst s c + e.2
      if a ≤ p ∧ p < a + w ∧ (headOver s r p).isSome then getF s LDG.MARKCFG_SLEV g else e.1))
  else none

/-! Updates (R102 to R106). -/

def updatesOf (s : State) (c : Nat) : List Update := mget s.print.updates c []

/-- Changes the waiting updates of a channel, and HMK.UPDSTAT with them. -/
def setUpdates (s : State) (c : Nat) (l : List Update) : State :=
  setF { s with print := { s.print with updates := mput s.print.updates c l } } HMK.UPDSTAT_PENDING l.length c

/-- Address of the detailed record of a nozzle (R22, R92). -/
def recordAddr (s : State) (a : Nat) : Nat := regionBase s 6 + 2 * a

/-- The value of HMK.ERRNOZ at a poisoned record: the first since HMK.ERR.POISON was last clear. -/
def poisonedRecord (s : State) (a : Nat) : State :=
  let s := if flag s HMK.ERR_POISON then s else setF s HMK.ERRNOZ_A a
  setF s HMK.ERR_POISON 1

/-- Rebuilds the ECC word of a poisoned record from the map (R104). -/
def rebuildWord (s : State) (a : Nat) : State :=
  let w := recordAddr s a / 64 * 64
  let a0 := (w - regionBase s 6) / 2
  engineWrite s w ((upto 32).flatMap (fun i =>
    let code := nozzleCode s (a0 + i)
    toBytes 2 (code + 64 * (code % 4))))

/-- Applies an update to one nozzle: its map entry and its record (R92). -/
def updateNozzle (s : State) (u : Update) (a : Nat) : State :=
  let s := if u.poisonedNoz.contains a && poisoned s (recordAddr s a) 2 then rebuildWord s a else s
  let old := nozzleCode s a
  let st := u.state.getD (old % 4)
  let gc := u.gclass.getD (old / 4)
  let s := setNozzleCode s a (st + 4 * gc)
  let r := loadNat s (recordAddr s a) 2
  let auto := if u.source = 1 ∨ u.source = 3 then 1 else 0
  let r := setBits (setBits r 0 2 st) 2 2 gc
  let r := if st = old % 4 then r
    else setBits (setBits (setBits r 5 1 auto) 6 2 (old % 4)) 8 6 (Nat.min 63 (bits r 8 6 + 1))
  let r := match u.lock with | some l => setBits r 4 1 l | none => r
  putBytes s (recordAddr s a) (toBytes 2 (r % 16384))

/-- Applies an update (R102, R104). -/
def applyUpdate (s : State) (u : Update) : State :=
  forEach ((fromTo u.a (u.a + u.n - 1)).filter (fun a => !u.skipped.contains a)) s (fun s a => updateNozzle s u a)

/-- Applies the waiting updates of a channel with Ge at or below a line, in their order (R105). -/
def applyDue (s : State) (c line : Nat) : State :=
  let l := updatesOf s c
  let s := setUpdates s c (l.filter (fun u => decide (line < u.ge)))
  forEach (l.filter (fun u => decide (u.ge ≤ line))) s (fun s u => applyUpdate s u)

/-- Inserts a deferred update by Ge, equal Ge in the order of acceptance (R105). -/
def insertUpdate : List Update → Update → List Update
  | [], u => [u]
  | x :: r, u => if u.ge < x.ge then u :: x :: r else x :: insertUpdate r u

/-- Whether a reload, or the rebuild of the whole map under the same rules, concerns a row (R107, R108). -/
def reloading (s : State) (r : Nat) : Bool :=
  flag s HMK.STAT_REBUILD ||
  (flag s HMK.RELOAD_BUSY && decide (s.print.reloadRows.1 ≤ r) && decide (r ≤ s.print.reloadRows.2))

/-- The AUTO line of a channel: its bound plus LEAD, LEAD 0 acting as 1 (R103, R304). -/
def updateBound (s : State) (c : Nat) : Nat :=
  match groupOf s c with
  | some g => lineBound s g (getP s HMK.LASTLINE c)
  | none => getP s HMK.LASTLINE c

/-- The code an update completes with, by the checks of R103 in their order; `auto` for AUTO. -/
def updateCheck (s : State) (u : Update) (auto : Bool) : Nat :=
  let r := u.a / rowWidth
  let c := rowChannel s r
  if u.n = 0 ∨ 128 ≤ r ∨ rowWidth < u.a % rowWidth + u.n then 0x1D
  else if u.source = 1 ∧ (flag s HMK.STAT_FROZEN ∨ throughput s) then 0x1E
  else if !mireLocked s then 0x0C
  else if !auto && ((u.ge == 0 && lodeRuns s c) || (u.ge != 0 && decide (u.ge ≤ updateBound s c))) then 0x14
  else if (auto || u.ge != 0) && (updatesOf s c).length == 4096 then 0x1F
  else 0

/-- Reads the records of an accepted update's run: nozzles skipped, and records found poisoned (R104). -/
def readRecords (s : State) (u : Update) : Update × State :=
  let run := fromTo u.a (u.a + u.n - 1)
  let bad := run.filter (fun a => poisoned s (recordAddr s a) 2)
  let locked := run.filter (fun a => !bad.contains a && bit (loadNat s (recordAddr s a) 2) 4)
  let skip := if u.source = 1 then run.filter (fun a => bad.contains a || locked.contains a) else []
  let s := forEach bad s (fun s a => poisonedRecord s a)
  let s := if skip.isEmpty then s else setF s HMK.ERR_LOCK_SKIP 1
  ({ u with skipped := skip, poisonedNoz := bad }, s)

/-- Accepts an update whose checks have passed: at once for Ge 0, and at its line otherwise. -/
def acceptUpdate (s : State) (u : Update) (auto : Bool) : Update × State :=
  let c := rowChannel s (u.a / rowWidth)
  let lead := Nat.max 1 (getF s HMK.CFG_LEAD)
  let u := if auto then { u with ge := updateBound s c + lead } else u
  let (u, s) := readRecords s u
  if u.skipped.length = u.n then (u, s)
  else if u.ge = 0 then
    if reloading s (u.a / rowWidth) then (u, { s with print := { s.print with afterReload := s.print.afterReload ++ [u] } })
    else (u, applyUpdate s u)
  else (u, setUpdates s c (insertUpdate (updatesOf s c) u))

/-! Line entry (R101, R102). -/

/-- The segments a line sends to the hold. -/
def lineSegments (s : State) (f : Frame) (c : Nat) (l : SedgeLine) (cells : List (List Cell)) : List HeldLine :=
  let m := cycleLines s c
  ((slotsOf s c).filter (fun t => t.2.1 == l.line % m)).flatMap (fun t =>
    let rows := match rowPartner s t.1 with | some q => [t.1, q] | none => [t.1]
    rows.map (fun r =>
      let seg := rowSegment s c r (cells.getD t.2.2 [])
      let str := stripeSegment s f c r l.line (if f.blank then List.replicate (spanCount s c) 0 else seg)
      (⟨f.key, r, l.line, t.2.2, str.getD seg, l.withheld, f.blank && str.isNone, false⟩ : HeldLine)))

/-- A line enters the Hummock logic: the map state is fixed, the line is split, compensated, remapped and cut into row
segments (R93 to R101). -/
def hummockEnter (s : State) (c : Nat) : State :=
  match mget s.print.left c [] with
  | [] => s
  | l :: rest =>
    if flag s HMK.STAT_REBUILD then s
    else
      let s := { s with print := { s.print with left := mput s.print.left c rest } }
      let s := applyDue (setP s HMK.LASTLINE l.line c) c l.line
      match frameAt s l.frame with
      | none => s
      | some f =>
        let r := compensate s c l.line (l.levels.getD [])
        let n := r.2
        let s := if f.blank then s
          else addF (addF (addF (addF s HMK.FBCNT n.fb c) HMK.SUBCNT n.sub c) HMK.SPRCNT n.spr c) HMK.LOSTCNT n.lost c
        let segs := lineSegments s f c l r.1
        let lost := !f.blank && decide (0 < n.lost)
        let f := { f with
          entered := mput f.entered c (f.enteredOn c + 1)
          openRows := f.openRows + segs.length
          degraded := f.degraded || (lost && !flag s HMK.CHCFG_LOSTSPOIL c) }
        let s := setFrame s f
        let s := { s with print := { s.print with segments := mput s.print.segments c (mget s.print.segments c [] ++ segs) } }
        let s := markFired s f.key
        let s := tapLine s c l.line (segs.map (fun h => (h.row, h.levels)))
        if lost && flag s HMK.CHCFG_LOSTSPOIL c then markSpoil s f.key 8 else s

/-! Reload and loss of the map (R107, R108). -/

/-- Loads the map entries of a row from its records. -/
def reloadRow (s : State) (r : Nat) : State :=
  forEach (upto rowWidth) s (fun s p =>
    let a := nozzleAddr r p
    if poisoned s (recordAddr s a) 2 then poisonedRecord (setNozzleCode s a 2) a
    else setNozzleCode s a (loadNat s (recordAddr s a) 2 % 16))

/-- A write of START (R107). -/
def reloadStart (s : State) : State :=
  let a := getF s HMK.RELOAD_FIRSTROW
  let b := getF s HMK.RELOAD_LASTROW
  if b < a ∨ flag s HMK.RELOAD_BUSY ∨ !mireLocked s ∨ (fromTo a b).any (fun r => lodeRuns s (rowChannel s r)) then
    setF s HMK.RELOAD_REFUSED 1
  else setF { s with print := { s.print with reloadRows := (a, b) } } HMK.RELOAD_BUSY 1

/-- The Ge 0 updates that no reload holds any more apply, and complete (R107). -/
def applyHeld (s : State) : State :=
  let held (u : Update) : Bool := reloading s (u.a / rowWidth)
  let l := s.print.afterReload.filter (fun u => !held u)
  forEach l { s with print := { s.print with afterReload := s.print.afterReload.filter held } } (fun s u =>
    let s := applyUpdate s u
    match u.op with | some o => completeOp s o 0 0 u.skipped.length u.ge | none => s)

/-- A reload ends: its rows are loaded and the updates that waited apply (R107). -/
def reloadEnd (s : State) : State :=
  if flag s HMK.RELOAD_BUSY then
    let s := forEach (fromTo s.print.reloadRows.1 s.print.reloadRows.2) s (fun s r => reloadRow s r)
    applyHeld (setF s HMK.RELOAD_BUSY 0)
  else s

/-- Loss of PD_MAPS as the Hummock logic meets it (R108). -/
def hummockMapsLost (s : State) : State :=
  let s := setF (zeroRange (zeroRange s mapBase mapBytes) matrixBase 4096) HMK.ERR_MAPS_LOST 1
  if mireLocked s then setF s HMK.STAT_REBUILD 1 else setF s HMK.ERR_REBUILD_FAIL 1

/-- The rebuild ends (R108). -/
def rebuildEnd (s : State) : State :=
  if flag s HMK.STAT_REBUILD then applyHeld (setF (forEach (upto 128) s (fun s r => reloadRow s r)) HMK.STAT_REBUILD 0) else s

end Sys2Proof.Machine
end

