-- ==== Sys2Proof/Machine/LinkBlocks.lean ====
section
/-!
DEFINITION. Link frames as 64b/66b blocks: the blocks a frame is sent as, the scrambler, and what a receiver makes of the blocks
of a lane (R131, R132, R135).
-/

namespace Sys2Proof.Machine

/-- A data block, sync header 0b01. -/
def dataBlock (bs : List Byte) : LinkBlock := ⟨1, word (field bs 0 8)⟩

/-- A control block, sync header 0b10, by its type byte and what follows it. -/
def controlBlock (type : Nat) (rest : List Byte) : LinkBlock := ⟨2, word (type % 256 + 256 * field rest 0 7)⟩

/-- The idle block between link frames. -/
def idleBlock : LinkBlock := controlBlock 0x1E []

/-- The data blocks of a frame's header, payload and padding. -/
def dataBlocks : Nat → List Byte → List LinkBlock
  | 0, _ => []
  | n + 1, bs => dataBlock bs :: dataBlocks n (bs.drop 8)

/-- The blocks of a link frame (Table: link frame blocks): byte 2 of its start block, header and payload, CRC-32C and PAD. -/
def frameBlocks (start : Nat) (bytes : List Byte) (crc pad : Nat) : List LinkBlock :=
  controlBlock 0x78 (toBytes 1 0xD5 ++ toBytes 1 start) :: dataBlocks ((bytes.length + pad) / 8) bytes ++
    [controlBlock 0xE1 (toBytes 4 crc ++ toBytes 1 pad)]

/-! The scrambler 1 + x^39 + x^58 (R131). Its state holds the last 58 bits sent, the newest at bit 0. -/

/-- Scrambles one bit. -/
def scrambleBit (st : Nat) (b : Bool) : Bool × Nat :=
  let c := xor b (xor (bit st 38) (bit st 57))
  (c, (2 * st + bnat c) % 2 ^ 58)

/-- Scrambles `n` bits of a value from bit `i` up: what is sent, and the state after it. -/
def scrambleFrom (st w : Nat) : Nat → Nat → Nat × Nat
  | _, 0 => (0, st)
  | i, n + 1 =>
    let r := scrambleBit st (bit w i)
    let t := scrambleFrom r.2 w (i + 1) n
    (2 ^ i * bnat r.1 + t.1, t.2)

/-- The blocks of a lane as they leave it: each sync header as it is, and its 64 payload bits scrambled. -/
def scramble : Nat → List LinkBlock → List LinkBlock
  | _, [] => []
  | st, b :: r =>
    let x := scrambleFrom st b.payload.toNat 0 64
    ⟨b.sync, word x.1⟩ :: scramble x.2 r

/-- What a receiver recovers: the scrambler is self-synchronising, so its state is the last 58 bits received. -/
def descrambleFrom (st w : Nat) : Nat → Nat → Nat × Nat
  | _, 0 => (0, st)
  | i, n + 1 =>
    let t := descrambleFrom ((2 * st + bnat (bit w i)) % 2 ^ 58) w (i + 1) n
    (2 ^ i * bnat (xor (bit w i) (xor (bit st 38) (bit st 57))) + t.1, t.2)

def descramble : Nat → List LinkBlock → List LinkBlock
  | _, [] => []
  | st, b :: r =>
    let x := descrambleFrom st b.payload.toNat 0 64
    ⟨b.sync, word x.1⟩ :: descramble x.2 r

/-! Reception. -/

/-- Header and payload with CLAIM and RETX 0, as the CRC covers them (R133). -/
def crcView (bs : List Byte) : List Byte :=
  bs.take 8 ++ toBytes 4 0 ++ slice bs 12 15 ++ toBytes 1 (setBits (field bs 27 1) 6 1 0) ++ bs.drop 28

/-- Types a hub sends (Table: link frame types). -/
def upstreamType (t : Nat) : Bool := [0, 2, 3, 4, 6].contains t

/-- Whether a whole frame is discarded: more than 8,192 bytes of payload, PAD above 7 or beyond the frame, a failed CRC, or a type
that does not come upstream (R132, R135). -/
def frameBad (bytes : List Byte) (crc pad : Nat) : Bool :=
  let body := bytes.take (bytes.length - pad)
  decide (7 < pad) || decide (bytes.length < 32 + pad) || decide (32 + 8192 + pad < bytes.length) || crc32c (crcView body) != crc ||
  !upstreamType (field body 0 1 % 16)

/-- What the blocks of a lane, taken in turn, come to: link frames discarded, and control blocks of another type met outside a
frame. The bytes of the frame being received are kept from its start block on; outside a frame there are none. -/
def receiveBlocks : Option (List Byte) → List LinkBlock → Nat × Nat
  | _, [] => (0, 0)
  | cur, b :: r =>
    let bs := toBytes 8 b.payload.toNat
    let bad (next : Option (List Byte)) : Nat × Nat := let n := receiveBlocks next r; (n.1 + 1, n.2)
    if b.sync = 1 then
      match cur with
      | none => bad none
      | some got => receiveBlocks (some (got ++ bs)) r
    else match cur, field bs 0 1 with
      | none, 0x78 => receiveBlocks (some []) r
      | none, 0x1E => receiveBlocks none r
      | none, 0xE1 => receiveBlocks none r
      | none, _ => let n := receiveBlocks none r; (n.1, n.2 + 1)
      | some got, 0xE1 => if frameBad got (field bs 1 4) (bits (field bs 5 1) 0 3) then bad none else receiveBlocks none r
      | some _, 0x78 => bad (some [])
      | some _, _ => bad none

end Sys2Proof.Machine
end

