-- ==== Sys2Proof/Machine/Link.lean ====
section
/-!
DEFINITION. The Dusiane Link's streams, link frames, replay buffers and lanes (R132 to R147, R155), and what a hub that leaves
UP does to the frames it prints (R157, R274).
-/

namespace Sys2Proof.Machine

/-! Hubs, streams and lanes. -/

def hubOf (s : State) (h : Nat) : Hub :=
  mget s.dlk.hubs h Hub.fresh
def setHub (s : State) (h : Nat) (v : Hub) : State := { s with dlk := { s.dlk with hubs := mput s.dlk.hubs h v } }

/-- STATE of a hub: 0 DOWN, 1 ALIGN, 2 CONFIG, 3 UP (Table: hub link states). -/
def hubState (s : State) (h : Nat) : Nat := getF s DLK.HUBSTAT_STATE h
def hubUp (s : State) (h : Nat) : Bool := hubState s h == 3

/-- The key of a stream: hub × 128 + head slot (R137). -/
def streamKey (h slot : Nat) : Nat := 128 * h + slot
def streamOf (s : State) (k : Nat) : Stream := mget s.dlk.streams k ⟨1, 0, 0⟩
def setStream (s : State) (k : Nat) (v : Stream) : State := { s with dlk := { s.dlk with streams := mput s.dlk.streams k v } }

def linkLane (s : State) (l : Nat) : LinkLane := mget s.dlk.lanes l ⟨0, 1, none, none, false, false, 0, none, none, 0⟩
def setLinkLane (s : State) (l : Nat) (v : LinkLane) : State := { s with dlk := { s.dlk with lanes := mput s.dlk.lanes l v } }

/-- The lane at a position of a hub's set. -/
def hubLane (s : State) (h pos : Nat) : Nat :=
  match pos with
  | 0 => getF s DLK.HUBLANE_L0 h
  | 1 => getF s DLK.HUBLANE_L1 h
  | 2 => getF s DLK.HUBLANE_L2 h
  | _ => getF s DLK.HUBLANE_L3 h

/-- The positions of a hub's set. -/
def hubPositions (s : State) (h : Nat) : List Nat := upto (getF s DLK.HUBCTL_NLANES h + 1)

/-- The positions in use (LANEUP). -/
def lanesUp (s : State) (h : Nat) : List Nat := (hubPositions s h).filter (fun p => flagBit s DLK.HUBSTAT_LANEUP p h)

/-- Hubs enabled in whose set a lane stands, with its position. -/
def hubsOfLane (s : State) (l : Nat) : List (Nat × Nat) :=
  (upto (hubLimit s)).flatMap (fun h =>
    if flag s DLK.HUBCTL_EN h then ((hubPositions s h).filter (fun p => hubLane s h p == l)).map (fun p => (h, p)) else [])

/-- The hubs on which a group's channels have heads. -/
def groupHubs (s : State) (g : Nat) : List Nat :=
  (upto 64).filter (fun h => (heads s).any (fun e => e.2.hub == h && (groupChannels s g).contains (rowChannel s e.2.row)))

/-- The valid heads of a hub. -/
def hubHeads (s : State) (h : Nat) : List (Nat × Head) := (heads s).filter (fun e => e.2.hub == h)

/-- The claim this unit sends (R149, R299). -/
def ownClaim (s : State) : Nat := getF s TWN.CLAIM

/-! Error records (Table: DLK.ERR, Table: DLK.ERRHUB). -/

/-- Sets an error bit, with the hub of the first error. -/
def dlkError (s : State) (h code : Nat) (e : Fld) : State :=
  let s := if getF s DLK.ERR = 0 then setF (setF s DLK.ERRHUB_HUB h) DLK.ERRHUB_CODE code else s
  setF s e 1

/-- Increments counter `k` of a hub. -/
def hubCount (s : State) (h k n : Nat) : State := addF s DLK.HUBCNT n (8 * h + k)

/-! Link frames as bytes (R132 to R136). -/

/-- Levels packed three bits each, level `x` at bits 3x to 3x + 2 (R136). -/
def packLevels (ls : List Nat) : List Byte :=
  toBytes ((3 * ls.length + 7) / 8) (ls.foldr (fun l a => l % 8 + 8 * a) 0)

/-- The fields of a link frame header (Table: link frame header). -/
structure Header where
  type : Nat
  hub : Nat
  slot : Nat
  seq : Nat
  claim : Nat
  fire : Nat
  line : Nat
  row : Nat
  phase : Nat
  nph : Nat
  void : Bool
  retx : Bool
  segStart : Nat
  segLen : Nat
  deriving DecidableEq, Repr

/-- The 32 bytes of a header; the fire-at time is in 2^-16 ns. -/
def Header.bytes (h : Header) : List Byte :=
  toBytes 2 (h.type + 16 * (h.slot % 128) + 2048 * (h.hub % 32)) ++ toBytes 6 h.seq ++ toBytes 4 h.claim ++
  toBytes 8 (h.fire / 65536) ++ toBytes 2 (h.fire % 65536) ++ toBytes 4 h.line ++ toBytes 1 (h.row % 128) ++
  toBytes 1 (h.phase % 4 + 4 * (h.nph % 4) + 16 * (h.hub / 32 % 2) + 32 * bnat h.void + 64 * bnat h.retx) ++
  toBytes 2 h.segStart ++ toBytes 2 h.segLen

/-- The bit rate of a lane in bit/s: 156.25 MHz × (NINT + NFRAC / 2^24) / 2^LDIV (R341). -/
def laneRate (s : State) (l : Nat) : Nat :=
  156250000 * (getF s LAN.QRATE_NINT (l / 4) * 2 ^ 24 + getF s LAN.QRATE_NFRAC (l / 4)) / 2 ^ 24 / 2 ^ getF s LAN.LCFG_LDIV l

/-- Blocks of a frame of so many payload bytes: start, end and its data blocks. -/
def blockCount (payload : Nat) : Nat := 2 + (32 + payload + 7) / 8

/-- The time a frame takes on a lane, in thousandths of a tick of the free-running counter. -/
def frameTime (s : State) (l payload : Nat) : Nat := blockCount payload * 66 * 1250000000000 / Nat.max 1 (laneRate s l)

/-- The blocks of a sent link frame as they leave its lane at a time of the free-running counter (R131, R132). -/
def linkWire (frc : Nat) : Out → List LinkBlock
  | .link l start bytes crc pad => scramble (Config.scramblerState l frc).toNat (frameBlocks start bytes crc pad)
  | _ => []

/-- Sends a link frame on a lane at a position of its set: the CRC is taken with CLAIM and RETX 0 (R132, R133). The frame queues
behind those the lane still has to send (R155). -/
def sendLink (s : State) (l pos : Nat) (h : Header) (payload : List Byte) : State :=
  let pad := (8 - payload.length % 8) % 8
  let crc := crc32c ({ h with claim := 0, retx := false }.bytes ++ payload)
  let ln := linkLane s l
  let s := setLinkLane s l { ln with busyUntil := Nat.max (1000 * s.frc) ln.busyUntil + frameTime s l payload.length }
  send s (.link l (pos % 4 + 4 * getF s GLB.STRAPS_UNIT_ID) (h.bytes ++ payload) crc pad)

/-- Header and payload of a frame in replay. -/
def LinkFrame.image (s : State) (f : LinkFrame) : Header × List Byte :=
  match f.cargo with
  | .data _ row line phase nph start levels void =>
    (⟨1, f.hub, f.slot, f.seq, ownClaim s, f.fireAt, line % 2 ^ 32, row, phase, nph, void, f.sent, start,
      if void then 0 else levels.length⟩, if void then [] else packLevels levels)
  | .ctrl op params =>
    (⟨2, f.hub, f.slot, f.seq, ownClaim s, f.fireAt, 0, 0, 0, 0, false, f.sent, 0, 0⟩,
      toBytes 4 op ++ toBytes 4 params.length ++ params)

/-! The replay buffers (R146). -/

/-- Bytes a frame occupies in replay: its header and payload. -/
def LinkFrame.size (s : State) (f : LinkFrame) : Nat := 32 + (f.image s).2.length

/-- Bytes in the replay buffers. -/
def replayBytes (s : State) : Nat := (s.dlk.replay.map (LinkFrame.size s)).foldl (· + ·) 0

/-- Whether both replay buffers are full: 4 MiB on chip and the lowest 64 MiB of the REPLAY region (R118, R146). -/
def replayFull (s : State) : Bool := decide (4 * 2 ^ 20 + (if mireLocked s then 64 * 2 ^ 20 else 0) ≤ replayBytes s)

/-- Whether a frame is part of a stream or, for a CTRL frame, of a hub's control stream. -/
def LinkFrame.inStream (f : LinkFrame) (ctrl : Bool) (h slot : Nat) : Bool :=
  f.hub == h && (match f.cargo with | .data .. => !ctrl && f.slot == slot | .ctrl .. => ctrl)

/-- The data queued for a hub, in bytes. -/
def queuedBytes (s : State) (h : Nat) : Nat :=
  ((s.dlk.replay.filter (fun f => f.hub == h && f.queued)).map (LinkFrame.size s)).foldl (· + ·) 0

/-- Queues a frame again, unless its fire-at time is less than RETXLEAD away (R146). -/
def resend (s : State) (p : LinkFrame → Bool) (h : Nat) : State :=
  let lead := getF s DLK.CFG_RETXLEAD * 100 * 65536
  let now := work32 s / 65536
  let take (f : LinkFrame) : Bool := p f && f.hub == h && f.sent && !f.queued &&
    (match f.cargo with | .data .. => decide (now + lead ≤ f.fireAt) | .ctrl .. => true)
  let n := (s.dlk.replay.filter take).length
  let s := { s with dlk := { s.dlk with replay := s.dlk.replay.map (fun f => if take f then { f with queued := true } else f) } }
  hubCount s h 1 n

/-- The line rate a group's web runs at, in lines/s, from its last measured period. -/
def presentRate (s : State) (g : Nat) : Nat :=
  let p := getF s LDE.TRGPER g
  if p = 0 then 0 else 1000000000 / p

/-- The lane request of a group: its rate × lanes up ÷ lanes in the set for its worst DEGRADED hub, rounded down to 1,000
(R367); none without one. -/
def laneRequest (s : State) (g : Nat) : Option Nat :=
  ((groupHubs s g).filter (fun h => flag s DLK.HUBSTAT_DEGRADED h)).foldl (fun a h =>
    let r := presentRate s g * (lanesUp s h).length / (hubPositions s h).length / 1000 * 1000
    some (match a with | some b => Nat.min b r | none => r)) none

/-- Keeps the lane requests (R367). -/
def refreshLaneRequests (s : State) : State :=
  forEach (upto 4) s (fun s g =>
    { s with time := { s.time with laneReq := (match laneRequest s g with
        | some r => mput s.time.laneReq g r
        | none => mdel s.time.laneReq g) } })

/-- Whether the partner delivers copies to a hub: in a pair, its HUBPOINTs for the hub keep coming (R156, R305). -/
def partnerDelivers (s : State) (h : Nat) : Bool :=
  inPair s && (match (hubOf s h).partnerFrc with
    | some t => decide (s.frc - t < 125000 * Nat.max 1 (getF s DLK.CFG_DOWNTO))
    | none => false)

/-- Step 4 of Table: lane removal: with more data queued than DEGRADE.KIB after a removal, frames the partner delivers are
withheld, and with no partner the hub becomes DEGRADED. -/
def checkDegrade (s : State) (h : Nat) : State :=
  if (lanesUp s h).length = (hubPositions s h).length then s
  else if queuedBytes s h ≤ 1024 * getF s DLK.DEGRADE_KIB then s
  else if partnerDelivers s h then
    { s with dlk := { s.dlk with replay := s.dlk.replay.filter (fun f =>
        !(f.hub == h && f.queued && !f.sent && (match f.cargo with | .data .. => true | .ctrl .. => false))) } }
  else if flag s DLK.HUBSTAT_DEGRADED h then s
  else
    let s := dlkError (setF s DLK.HUBSTAT_DEGRADED 1 h) h 0 DLK.ERR_LANE_DEGRADED
    refreshLaneRequests (raiseEvent s 0 0x000C (256 * h) 0)

/-- Whether a unit sends DATA and VOID at all: not while DIVERGED, nor as a joiner before its streams are set (R310, R311). -/
def sendsData (s : State) : Bool := !(twinState s == 6 || twinState s == 2)

/-! Building DATA link frames (R119, R137, R138). -/

/-- A DATA link frame as the Lode builds it, before its SEQ. -/
structure Built where
  frame : Nat
  row : Nat
  line : Nat
  trigger : Nat
  head : Head
  fireAt : Nat
  phase : Nat
  nph : Nat
  start : Nat
  levels : List Nat
  void : Bool
  deriving DecidableEq, Repr

/-- Builds one DATA link frame: it takes its stream's next SEQ and enters the replay buffer, unless its hub is not UP or this
unit sends none. A stopped stream builds none, and one that awaits its SEQ from the partner counts them (R139). In a pair a SEQ for a hub that is down on this unit's lanes stays open, since the partner's ACKs settle it. -/
def buildData (s : State) (fallback : Bool) (b : Built) : State :=
  let h := b.head.hub
  let k := streamKey h b.head.slot
  if s.twin.resyncs.contains k then s
  else if let some w := mfind s.twin.rejoins k then
    (if b.trigger < w.1 then s else setTwin s { s.twin with rejoins := mput s.twin.rejoins k (w.1, w.2 + 1) })
  else
    let st := streamOf s k
    let seq := st.next
    if 2 ^ 48 ≤ seq then s
    else
      let s := setStream s k { st with next := seq + 1 }
      let s := if fallback then { s with dlk := { s.dlk with fallbackSeqs := s.dlk.fallbackSeqs ++ [(k, seq)] } } else s
      let up := hubUp s h
      let s := match frameAt s b.frame with
        | some f =>
          let ns := b.fireAt / 65536
          setFrame s { f with
            openSeqs := f.openSeqs ++ [⟨k, seq, b.row, b.trigger, b.fireAt, !up && !inPair s⟩]
            tFirst := if f.tFirst = 0 then ns else Nat.min f.tFirst ns }
        | none => s
      if up && sendsData s then
        let f : LinkFrame := ⟨h, b.head.slot, seq, b.fireAt,
          .data b.frame b.row b.line b.phase b.nph b.start b.levels b.void, true, false, none⟩
        checkDegrade { s with dlk := { s.dlk with replay := s.dlk.replay ++ [f] } } h
      else s

/-! Control frames (R152). -/

/-- Builds a CTRL frame to a hub and awaits its response. -/
def buildCtrl (s : State) (h slot op fire : Nat) (params : List Byte) (key : Option Nat) (dest outmax : Nat) : State :=
  let u := hubOf s h
  let seq := u.ctrlSeq + 1
  let s := setHub s h { u with ctrlSeq := seq, waiting := u.waiting ++ [⟨seq, op, key, dest, outmax, s.frc⟩] }
  { s with dlk := { s.dlk with replay := s.dlk.replay ++ [⟨h, slot, seq, fire, .ctrl op params, true, false, none⟩] } }

/-! Placing frames on lanes (R155, R137, R146). -/

/-- A lane's transmitter sends its owner's data: it is ACTIVE, its quad is not changing rate, and it carries no PRBS pattern;
what is handed to it waits otherwise (R342, R351, R353). -/
def laneSends (s : State) (l : Nat) : Bool :=
  getF s LAN.LSTAT_TXST l == 0 && !flag s LAN.QSTAT_CHANGING (l / 4) && getF s LAN.LCFG_TEST l != 1

/-- The position of the lane with the fewest bytes queued, the lowest of equals; a resend avoids the lane that last carried
the frame where the set has another. -/
def chooseLane (s : State) (h : Nat) (avoid : Option Nat) : Option Nat :=
  let ps := (lanesUp s h).filter (fun p => laneSends s (hubLane s h p))
  let qs := match avoid with | some a => (let r := ps.filter (fun p => p != a); if r = [] then ps else r) | none => ps
  let load (p : Nat) : Nat := Nat.max (1000 * s.frc) (linkLane s (hubLane s h p)).busyUntil
  qs.foldl (fun a p => match a with
    | none => some p
    | some b => if load p < load b then some p else some b) none

/-- Whether a queued frame may go now: a DATA SEQ stays within 256 of DONE (R137). -/
def mayGo (s : State) (f : LinkFrame) : Bool :=
  f.queued && (match f.cargo with
    | .data .. => decide (f.seq ≤ (streamOf s (streamKey f.hub f.slot)).done + 256)
    | .ctrl .. => true)

/-- Places the oldest frame that may go to a hub on a lane of its set. -/
def placeFrame (s : State) (h : Nat) : State :=
  match s.dlk.replay.find? (fun f => f.hub == h && mayGo s f) with
  | none => s
  | some f =>
    match chooseLane s h f.lane with
    | none => s
    | some p =>
      let l := hubLane s h p
      let im := f.image s
      let s := sendLink s l p im.1 im.2
      let same (x : LinkFrame) : Bool := x.hub == h && x.slot == f.slot && x.seq == f.seq && x.queued &&
        (match x.cargo, f.cargo with | .data .., .data .. => true | .ctrl .., .ctrl .. => true | _, _ => false)
      { s with dlk := { s.dlk with replay := s.dlk.replay.map (fun x =>
          if same x then { x with queued := false, sent := true, lane := some p } else x) } }

/-! Settling SEQs (R147, R274, R275). -/

/-- Settles SEQs of every frame, then lets commits and spoils follow through their own commands. -/
def settle (s : State) (p : OpenSeq → Bool) : State :=
  { s with ledger := { s.ledger with frames := s.ledger.frames.map (fun e =>
      (e.1, { e.2 with openSeqs := e.2.openSeqs.map (fun q => if p q then { q with settled := true } else q) })) } }

/-- The frames that own an SEQ among those named. -/
def ownersOf (s : State) (p : OpenSeq → Bool) : List Frame :=
  (s.ledger.frames.map (fun e => e.2)).filter (fun f => f.openSeqs.any p)

/-- The HELD and DONE points of a stream, as an ACK or a HUBPOINT gives them: replay is freed and SEQs are settled. -/
def takePoint (s : State) (k held done : Nat) : State :=
  let st := streamOf s k
  let s := setStream s k { st with held := Nat.max st.held held, done := Nat.max st.done done }
  let s := { s with dlk := { s.dlk with
    replay := s.dlk.replay.filter (fun f => !(f.inStream false (k / 128) (k % 128) && decide (f.seq ≤ held)))
    fallbackSeqs := s.dlk.fallbackSeqs.filter (fun e => !(e.1 == k && decide (e.2 ≤ done))) } }
  let mine (q : OpenSeq) : Bool := q.stream == k && decide (q.seq ≤ done)
  forEach ((ownersOf s mine).map Frame.key) (settle s mine) markFired

/-! A hub leaves UP (R157, R274). -/

/-- What leaves UP with a hub: every row-line held for it whose fire-at time has not passed is late, and unsound for Mere (R121,
R157, R169). Its SEQs that are not settled are given up and their owners marked HUB_DOWN, except in a pair, where the partner's
lanes serve (R274, R305). -/
def giveUpHub (s : State) (h : Nat) : State :=
  let now := work32 s / 65536
  let mine (q : OpenSeq) : Bool := !q.settled && q.stream / 128 == h
  let late (q : OpenSeq) : Bool := mine q && decide (now < q.fireAt)
  let owners := (ownersOf s mine).map Frame.key
  let lines := (s.ledger.frames.flatMap (fun e => (e.2.openSeqs.filter late).map (fun q => (e.2.group, q.row, q.trigger)))).dedup
  let s := forEach lines s (fun s l =>
    markUnsound (setF (incF s LDE.LATECNT (rowChannel s l.2.1)) LDE.ERR_DATA_LATE 1) l.1 (l.2.2 - getF s LDE.ROWDLY_LINES l.2.1))
  if inPair s then s else forEach owners (settle s mine) (fun s k => markSpoil s k 0x0D)

/-- A hub goes DOWN: its lanes leave use, its data leaves replay, and what it had still to fire is given up. A HUBCTRL that
awaits a response can now only time out (R236). -/
def hubDown (s : State) (h : Nat) (failed : Bool) : State :=
  let was := hubState s h
  let s := setF (setF (setF (setF s DLK.HUBSTAT_STATE 0 h) DLK.HUBSTAT_LANEUP 0 h) DLK.HUBSTAT_DEGRADED 0 h) DLK.HUBSTAT_SILENT 0 h
  let s := setHub s h { hubOf s h with
    step := 0, failed := failed, timed := false, told := false, resendFrc := none,
    waiting := ((hubOf s h).waiting.filter (fun c => c.key.isSome)).map (fun c => { c with seq := 0 }) }
  let s := { s with dlk := { s.dlk with replay := s.dlk.replay.filter (fun f => f.hub != h) } }
  let s := refreshLaneRequests s
  if was = 3 then giveUpHub (dlkError s h 0 DLK.ERR_HUB_DOWN) h else if failed then dlkError s h 0 DLK.ERR_HUB_DOWN else s

end Sys2Proof.Machine
end

