-- ==== Sys2Proof/Machine/Lode.lean ====
section
/-!
DEFINITION. The Lodes and the Dykes: measured triggers, predicted trigger times, fire-at times, stamping, and the energy
governor (R110 to R130). Times are in units u = 2^-16 ns.
-/

namespace Sys2Proof.Machine

/-! Prediction (R114). -/

/-- The measured triggers of a group, newest first. -/
def triggersOf (s : State) (g : Nat) : List (Nat × Nat) := mget s.lode.tm g []

/-- K = 2^PERK; PERK 7 acts as 6. -/
def perK (s : State) (g : Nat) : Nat := 2 ^ Nat.min 6 (getF s LDE.PGTIM_PERK g)
/-- LAG; 0 acts as 1. -/
def lagLines (s : State) (g : Nat) : Nat := Nat.max 1 (getF s LDE.PGTIM_LAG g)
/-- TOL; 0 acts as 1. -/
def tolerance (s : State) (g : Nat) : Nat := Nat.max 1 (getF s LDE.PGTIM_TOL g)
/-- LEAD in µs; values below 20 act as 20. -/
def leadUs (s : State) (g : Nat) : Nat := Nat.max 20 (getF s LDE.PGLEAD_LEAD g)
/-- MINLEAD in µs; values below 2 act as 2. -/
def minLeadUs (s : State) (g : Nat) : Nat := Nat.max 2 (getF s LDE.PGLEAD_MINLEAD g)

/-- P(b), where Tm(b - K) exists (R114). -/
def periodOf (s : State) (g b : Nat) : Option Nat :=
  let k := perK s g
  if b < k then none
  else match measuredTm s g b, measuredTm s g (b - k) with
    | some t, some t0 => some ((t - t0) / k)
    | _, _ => none

/-- h(b) for a period (R114). -/
def horizon (s : State) (g p : Nat) : Nat :=
  if p = 0 then 4096 else Nat.min 4096 (Nat.max (lagLines s g) (ceilDiv (leadUs s g * 1000 * 65536) p))

/-- Whether a period is short enough for a basis: P ≤ 10^9 × 65,536 / MINRATE, 0 acting as 1 (R114). -/
def fastEnough (s : State) (g p : Nat) : Bool :=
  decide (p * Nat.max 1 (getF s LDE.MINRATE_RATE g) ≤ 1000000000 * 65536)

/-- Whether a measured trigger is a usable basis of trigger `n` (R114). -/
def serves (s : State) (g n b : Nat) : Bool :=
  match periodOf s g b with
  | none => false
  | some p => fastEnough s g p && decide (n ≤ b + horizon s g p) && decide (b + lagLines s g ≤ n)

/-- The basis of trigger `n`: the smallest usable trigger that serves it (R114). -/
def basisOf (s : State) (g n : Nat) : Option Nat :=
  (((triggersOf s g).map (fun e => e.1)).filter (serves s g n)).foldl
    (fun a b => match a with | none => some b | some c => some (Nat.min b c)) none

/-- T̂(n) from a basis. -/
def predicted (s : State) (g n b : Nat) : Nat :=
  (measuredTm s g b).getD 0 + (n - b) * (periodOf s g b).getD 0

/-- Whether no basis can serve trigger `n` any more: trigger n - LAG has been measured and none serves (R114). -/
def underspeed (s : State) (g n : Nat) : Bool :=
  (basisOf s g n).isNone && triggerReached s g ((n : Int) - lagLines s g)

/-! Row-lines. -/

/-- The trigger at which a row-line prints (R29). -/
def targetOf (s : State) (h : HeldLine) : Nat := h.line + getF s LDE.ROWDLY_LINES h.row

/-- The group of a row-line. -/
def HeldLine.group (h : HeldLine) : Nat := h.frame % 4

/-- SPACING of a channel in u: 10 ns units limited to 25 to 400. -/
def spacingU (s : State) (c : Nat) : Nat := Nat.min 400 (Nat.max 25 (getF s LDE.DYKCFG_SPACING c)) * 10 * 65536

/-- The fire-at time of sub-phase `j` of `nsub` for a head of a row (R115). -/
def fireAt (s : State) (t p : Nat) (r : Nat) (h : Head) (j nsub : Nat) : Int :=
  (t : Int) + floorDiv (((getF s LDE.ROWDLY_FRAC r : Int) + h.sdly) * p) 256 + floorDiv (h.tdly * 65536) 10 +
    (2 * (j : Int) - ((nsub : Int) - 1)) * (spacingU s (rowChannel s r) / 2 : Nat)

/-! The Dyke (R122 to R129). -/

def coefBase : Nat := 0x7F0000440000
def dykeBytes : Nat := 0x12000
def ceilBase : Nat := 0x7F0000450000

/-- coef(h, v) in 0.1 nJ; coef(h, 0) is 0 (R122, R124). -/
def coef (s : State) (h v : Nat) : Nat := if v = 0 then 0 else loadNat s (coefBase + 16 * h + 2 * v) 2
/-- CEIL and WCEIL of a drive group (R124). -/
def ceilOf (s : State) (d : Nat) : Nat := loadNat s (ceilBase + 8 * d) 4 % 2 ^ 24
def wceilOf (s : State) (d : Nat) : Nat := loadNat s (ceilBase + 8 * d + 4) 4
/-- A channel's share of a ceiling (R125). -/
def shareOf (s : State) (d v : Nat) : Nat := v / Nat.max 1 (mget s.lode.shares d 1)

/-- The segment of one head in a row-line: its levels by head-local index (R119). -/
structure Part where
  frame : Nat
  row : Nat
  line : Nat
  index : Nat
  head : Head
  levels : List Nat
  void : Bool
  deriving DecidableEq, Repr

/-- The parts of a row-line, by head-table index. -/
def partsOf (s : State) (h : HeldLine) : List Part :=
  let first := spanFirst s (rowChannel s h.row)
  (rowHeads s h.row).map (fun e =>
    ⟨h.frame, h.row, h.line, e.1, e.2,
      (upto e.2.len).map (fun i =>
        let p := e.2.first + i
        if h.poison ∨ p < first then 0 else nth h.levels (p - first)), h.void⟩)

/-- The nozzle levels of one sub-phase of a part: nozzle i fires in sub-phase i mod N (R127). -/
def Part.inPhase (q : Part) (nsub j : Nat) : List (Nat × Nat) :=
  ((upto q.levels.length).filter (fun i => i % nsub == j)).map (fun i => (i, nth q.levels i))

/-- The energy of one sub-phase of a part (R122). -/
def Part.energy (s : State) (q : Part) (nsub j : Nat) : Nat :=
  ((q.inPhase nsub j).map (fun e => coef s q.index e.2)).foldl (· + ·) 0

/-- Whether a sub-phase of a part holds a drop. -/
def Part.drops (q : Part) (nsub j : Nat) : Bool := !q.void && (q.inPhase nsub j).any (fun e => e.2 != 0)

/-- A slot as it is decided: its trigger time and period. -/
structure SlotTime where
  t : Nat
  p : Nat
  deriving DecidableEq, Repr

/-- The fire instants of a slot's drops with their energies. -/
def firePoints (s : State) (w : SlotTime) (qs : List Part) (nsub : Nat) : List (Int × Nat) :=
  qs.flatMap (fun q => ((upto nsub).filter (q.drops nsub)).map (fun j =>
    (fireAt s w.t w.p q.row q.head j nsub, q.energy s nsub j)))

/-- Whether two instants lie within 100 ns (R123). -/
def near (a b : Int) : Bool := decide ((a - b).natAbs ≤ 100 * 65536)

/-- The instant energy at an instant (R123). -/
def instantEnergy (pts : List (Int × Nat)) (t : Int) : Nat :=
  ((pts.filter (fun e => near e.1 t)).map (fun e => e.2)).foldl (· + ·) 0

/-- The checked instants whose instant energy exceeds a share (R123). -/
def overInstants (share : Nat) (own decided : List (Int × Nat)) : List Int :=
  let checked := own.map (fun e => e.1) ++
    (decided.filter (fun e => own.any (fun o => near e.1 o.1))).map (fun e => e.1)
  checked.filter (fun t => decide (share < instantEnergy (own ++ decided) t))

/-- NMAX of a slot (R126). -/
def nMax (s : State) (w : SlotTime) (c : Nat) (rows : List Nat) : Nat :=
  let sp := spacingU s c
  let ok (n : Nat) : Bool := rows.all (fun r =>
    decide ((n - 1) * sp * 128 ≤ getF s LDE.PLACE_BUDGET r * w.p) &&
    decide ((n - 1) * sp + 6250 * 65536 ≤ rowDistance s c r * w.p))
  ((fromTo 2 (getF s LDE.DYKCFG_MAXPH c + 1)).filter ok).foldl Nat.max 1

/-- The level that replaces a level in a clamp pass: Dv, and v - 1 where Dv is no lower (R128). -/
def downLevel (s : State) (c v : Nat) : Nat :=
  let d := bits (regRaw s (LDE.DYKDOWN_D0.off c)).toNat (3 * v) 3
  if v ≤ d then v - 1 else d

/-- One clamp pass: the drops that fire near an instant over the share go down (R128). -/
def clampPass (s : State) (w : SlotTime) (c nsub : Nat) (hots : List Int) (qs : List Part) : List Part :=
  qs.map (fun q =>
    if q.void then q
    else
      let hot := (upto nsub).filter (fun j => hots.any (near (fireAt s w.t w.p q.row q.head j nsub)))
      { q with levels := (q.levels.zip (upto q.levels.length)).map (fun e =>
          if hot.contains (e.2 % nsub) then downLevel s c e.1 else e.1) })

/-- Clamps a slot until every checked instant is within the share; seven passes suffice (R128). -/
def clampSlot (s : State) (w : SlotTime) (c nsub share : Nat) (decided : List (Int × Nat)) : Nat → List Part → List Part
  | 0, qs => qs
  | n + 1, qs =>
    match overInstants share (firePoints s w qs nsub) decided with
    | [] => qs
    | o => clampSlot s w c nsub share decided n (clampPass s w c nsub o qs)

/-- The energy of all drops of a slot. -/
def slotEnergy (pts : List (Int × Nat)) : Nat := (pts.map (fun e => e.2)).foldl (· + ·) 0

/-- Clamps a slot's drops together until the window's sum fits (R129). -/
def clampWindow (s : State) (w : SlotTime) (c nsub share before : Nat) : Nat → List Part → List Part
  | 0, qs => qs
  | n + 1, qs =>
    if before + slotEnergy (firePoints s w qs nsub) ≤ share then qs
    else clampWindow s w c nsub share before n
      (qs.map (fun q => if q.void then q else { q with levels := q.levels.map (downLevel s c) }))

def windowKey (c d : Nat) : Nat := 1024 * c + d

/-- WSUM of a slot: the 16 whole blocks before its own, and its own block up to the slot before it (R129). -/
def windowSum (s : State) (c d n : Nat) : Nat :=
  let m := mget s.lode.windows (windowKey c d) []
  ((fromTo 1 16).map (fun k => if n / 64 < k then 0 else mget m (n / 64 - k) 0)).foldl (· + ·) 0 +
  ((s.lode.slots.filter (fun t => t.channel == c && t.dgroup == d && t.trigger / 64 == n / 64 && decide (t.trigger < n))).map
    (fun t => slotEnergy t.drops)).foldl (· + ·) 0

/-- Records a slot's decided drops and their energy in the window; slots more than 4,224 triggers behind are forgotten. -/
def recordSlot (s : State) (c d n nsub : Nat) (pts : List (Int × Nat)) : State :=
  let mine (t : Slot) : Bool := t.channel == c && t.dgroup == d
  let old := match s.lode.slots.find? (fun t => mine t && t.trigger == n) with | some t => t.drops | none => []
  let keep := s.lode.slots.filter (fun t => !(mine t && (t.trigger == n || decide (t.trigger + 4224 < n))))
  let m := mget s.lode.windows (windowKey c d) []
  let m := mput m (n / 64) (mget m (n / 64) 0 + slotEnergy pts)
  let m := m.filter (fun e => decide (n / 64 ≤ e.1 + 84))
  { s with lode := { s.lode with slots := keep ++ [⟨c, d, n, nsub, old ++ pts⟩],
                                 windows := mput s.lode.windows (windowKey c d) m } }

/-- Reports clamped drops (R128). -/
def reportClamp (s : State) (c d g : Nat) (before after : List Part) : State :=
  let changed := ((before.zip after).map (fun e =>
    ((e.1.levels.zip e.2.levels).filter (fun l => l.1 != l.2)).length)).foldl (· + ·) 0
  if changed = 0 then s
  else
    let s := addF s LDE.CLAMPCNT changed c
    let s := forEach (((before.zip after).filter (fun e => e.1.levels != e.2.levels)).map (fun e => e.1)) s
      (fun s q =>
        let s := markUnsound s g q.line
        match frameAt s q.frame with | some f => setFrame s { f with degraded := true } | none => s)
    if flag s LDE.ERR_ENERGY_CLAMP then s
    else
      let s := setF (setF (setF s LDE.ERR_ENERGY_CLAMP 1) LDE.ERRDG_DGROUP d) LDE.ERRDG_CH c
      groupEvent s g 0x000A (d + 1024 * c) 0

/-- Decides a slot, or lets drops join one already decided: its N, and the parts after clamping (R127 to R129). -/
def decideSlot (s : State) (w : SlotTime) (g c d n : Nat) (qs : List Part) : Nat × List Part × State :=
  let decided := (s.lode.slots.filter (fun t => t.channel == c && t.dgroup == d)).flatMap (fun t => t.drops)
  let share := shareOf s d (ceilOf s d)
  let old := s.lode.slots.find? (fun t => t.channel == c && t.dgroup == d && t.trigger == n)
  let rows := ((qs.filter (fun q => !q.void && q.levels.any (fun v => v != 0))).map (fun q => q.row)).dedup
  let top := nMax s w c rows
  let nsub := match old with
    | some t => t.nsub
    | none => ((fromTo 1 top).find? (fun m => (overInstants share (firePoints s w qs m) decided).isEmpty)).getD top
  let s := if old.isNone ∧ 1 < nsub then incF s LDE.SPLITCNT c else s
  let own := match old with | some t => slotEnergy t.drops | none => 0
  let after := clampSlot s w c nsub share decided 8 qs
  let after := clampWindow s w c nsub (shareOf s d (wceilOf s d)) (windowSum s c d n + own) 8 after
  let s := reportClamp s c d g qs after
  (nsub, after, recordSlot s c d n nsub (firePoints s w after nsub))

/-! Building the frames of a trigger (R119). -/

/-- The link frame of one sub-phase of a part, where it holds a drop. -/
def buildPhase (s : State) (w : SlotTime) (n nsub : Nat) (q : Part) (j : Nat) : Option Built :=
  let ds := (q.inPhase nsub j).filter (fun e => e.2 != 0)
  match ds.head?, ds.getLast? with
  | some a, some z =>
    let start := a.1 / 8 * 8
    let stop := Nat.min q.levels.length ((z.1 / 8 + 1) * 8)
    some ⟨q.frame, q.row, q.line, n, q.head, (fireAt s w.t w.p q.row q.head j nsub).toNat, j, nsub - 1, start,
      (upto (stop - start)).map (fun x => if (start + x) % nsub = j then nth q.levels (start + x) else 0), q.void⟩
  | _, _ => none

/-- Link frames in ascending order of row, head-table index and sub-phase (R119). -/
def insertPart : List (Part × Nat) → Part × Nat → List (Part × Nat)
  | [], e => [e]
  | x :: r, e =>
    if e.1.row < x.1.row ∨ (e.1.row = x.1.row ∧ e.1.index < x.1.index) then e :: x :: r else x :: insertPart r e

/-- Decides every slot of a trigger that a set of row-lines meets, and gives its link frames in order. -/
def decideTrigger (s : State) (w : SlotTime) (g n : Nat) (lines : List HeldLine) : List Built × State :=
  let parts := lines.flatMap (partsOf s)
  let slots := (parts.map (fun q => (rowChannel s q.row, q.head.dgroup))).dedup
  let r := slots.foldl (fun (a : List (Part × Nat) × State) e =>
    let qs := parts.filter (fun q => rowChannel s q.row == e.1 && q.head.dgroup == e.2)
    let d := decideSlot a.2 w g e.1 e.2 n qs
    (d.2.1.foldl (fun l q => insertPart l (q, d.1)) a.1, d.2.2)) ([], s)
  (r.1.flatMap (fun e => (upto e.2).filterMap (buildPhase s w n e.2 e.1)), r.2)

/-! Stamping (R114, R120, R121). -/

/-- A row-line leaves the hold: it is stamped, suppressed, blanked or late. -/
def closeRow (s : State) (h : HeldLine) : State :=
  let s := { s with lode := { s.lode with hold := s.lode.hold.filter (fun x => decide (x ≠ h)) } }
  match frameAt s h.frame with
  | some f => markFired (setFrame s { f with openRows := f.openRows - 1 }) f.key
  | none => s

/-- Counts a row-line as late (R121). -/
def countLate (s : State) (h : HeldLine) : State :=
  markUnsound (setF (incF s LDE.LATECNT (rowChannel s h.row)) LDE.ERR_DATA_LATE 1) h.group h.line

/-- The streams of a row. -/
def rowStreams (s : State) (r : Nat) : List Nat := (rowHeads s r).map (fun e => streamKey e.2.hub e.2.slot)

/-- A row-line whose data this unit withholds in a pair: its streams stop here, and the partner's copies print (R139). -/
def withholdLine (s : State) (h : HeldLine) : State :=
  let ks := rowStreams s h.row
  closeRow (setTwin s { s.twin with
    resyncs := s.twin.resyncs.filter (fun k => !ks.contains k) ++ ks
    rejoins := s.twin.rejoins.filter (fun e => !ks.contains e.1) }) h

/-- Stopped streams that row-lines of a trigger reach from good data ask the partner for their SEQ from that trigger on (R139). -/
def resumeStreams (s : State) (n : Nat) (lines : List HeldLine) : State :=
  let ks := (lines.flatMap (fun h => rowStreams s h.row)).dedup.filter (fun k => s.twin.resyncs.contains k)
  if ks = [] then s
  else twinSend (setTwin s { s.twin with
    resyncs := s.twin.resyncs.filter (fun k => !ks.contains k)
    rejoins := ks.foldl (fun m k => mput m k (n, 0)) s.twin.rejoins }) (.resync false n (ks.map (fun k => (k, 0))))

/-- Stamps row-lines of one trigger from its basis. On arrival a row-line is late where the working time has passed its
earliest fire-at time less MINLEAD; one without a drop is judged at the unsplit times of its heads (R121). -/
def stampFrom (s : State) (g n b : Nat) (lines : List HeldLine) (arrival : Bool) : State :=
  let p := (periodOf s g b).getD 0
  let w : SlotTime := ⟨predicted s g n b, p⟩
  if p * getF s LDE.RATECAP_RATE g < 1000000000 * 65536 then
    forEach lines s (fun s h =>
      let s := markUnsound (setF (incF s LDE.OVERCNT (rowChannel s h.row)) LDE.ERR_OVERSPEED 1) h.group h.line
      markSpoil (closeRow s h) h.frame 0x0A)
  else
    let s := resumeStreams s n lines
    let fallback := s.twin.fallback.contains (g * 2 ^ 64 + b)
    let trial := decideTrigger s w g n lines
    let times := if trial.1 = [] then (lines.flatMap (partsOf s)).map (fun q => (fireAt s w.t w.p q.row q.head 0 1).toNat)
      else trial.1.map (fun x => x.fireAt)
    let first := times.foldl Nat.min (w.t + 2 ^ 40)
    let late := arrival && decide (first < work32 s / 65536 + minLeadUs s g * 1000 * 65536)
    if late then
      let s := forEach (trial.1.map (fun x => { x with void := true })) s (fun s x => buildData s fallback x)
      forEach lines s (fun s h => markLocal (closeRow (countLate s h) h) h.frame 0x0C)
    else
      let s := trial.2
      let down := (trial.1.filter (fun x => !hubUp s x.head.hub)).map (fun x => (x.row, x.line))
      let s := forEach trial.1 s (fun s x => buildData s fallback x)
      let segs := lines.map (fun h => (rowChannel s h.row, h.frame, h.line))
      let old := s.lode.stamps.find? (fun t => t.group == g && t.trigger == n)
      let stamp : Stamp := ⟨g, n, w.t, p, (match old with | some t => t.segments | none => []) ++ segs⟩
      let s := { s with lode := { s.lode with
        stamps := s.lode.stamps.filter (fun t => !(t.group == g && t.trigger == n)) ++ [stamp] } }
      forEach lines s (fun s h =>
        let s := closeRow s h
        let s := if h.poison then markLocal (markUnsound s h.group h.line) h.frame 6 else s
        if down.contains (h.row, h.line) then markLocal (countLate s h) h.frame 0x0D else s)

/-- Whether the triggers that could have been the basis of a trigger have left the Lode's memory of 4,224, so that a segment that
arrives now comes after its deadline (R114, R121). -/
def basisForgotten (s : State) (g n : Nat) : Bool :=
  let l := triggersOf s g
  l.length == 4224 && (match l.getLast? with | some t => decide (n < t.1 + lagLines s g) | none => false)

/-- Treats row-lines of one trigger whose basis is settled: withheld, underspeed or stamped. With both replay buffers full the Lode
waits, and they stay in the hold (R146). -/
def stampLines (s : State) (g n : Nat) (lines : List HeldLine) (arrival : Bool) : State :=
  if replayFull s then s
  else
  let hold (h : HeldLine) : Bool := inPair s && (h.withheld || h.poison)
  let s := forEach (lines.filter hold) s withholdLine
  let rest := (lines.filter (fun h => !hold h)).map (fun h => if h.withheld then { h with poison := true } else h)
  match basisOf s g n with
  | some b => if rest = [] then s else stampFrom s g n b rest arrival
  | none =>
    if arrival && basisForgotten s g n then forEach rest s (fun s h => markLocal (closeRow (countLate s h) h) h.frame 0x0C)
    else if underspeed s g n then forEach rest s (fun s h => markSpoil (closeRow (countLate s h) h) h.frame 0x0B)
    else s

/-- Inserts a number into an ascending list without repeats. -/
def insertNat : List Nat → Nat → List Nat
  | [], n => [n]
  | x :: r, n => if n < x then n :: x :: r else if n = x then x :: r else x :: insertNat r n

/-- Stamps every held row-line of a group whose basis has been measured, in ascending order of trigger. One that has waited beyond
the measurement of its basis is judged as one that arrives (R121). -/
def stampReady (s : State) (g : Nat) : State :=
  let mine := s.lode.hold.filter (fun h => h.group == g)
  let ns := (mine.map (targetOf s)).foldl insertNat []
  forEach ns s (fun s n =>
    if (basisOf s g n).isSome || underspeed s g n then
      stampLines s g n (s.lode.hold.filter (fun h => h.group == g && targetOf s h == n)) (basisOf s g n != some (getP s LDE.TRIG g))
    else s)

/-- A row-line by frame, row, group line and strike. -/
def HeldLine.name (h : HeldLine) : Nat × Nat × Nat × Nat := (h.frame, h.row, h.line, h.strike)

/-- A row segment reaches the hold; one already found late is discarded (R121). -/
def segmentArrive (s : State) (c : Nat) : State :=
  match mget s.print.segments c [] with
  | [] => s
  | h :: rest =>
    let s := { s with print := { s.print with segments := mput s.print.segments c rest } }
    if (frameAt s h.frame).isNone then s
    else if s.lode.late.contains h.name then
      closeRow { s with lode := { s.lode with late := s.lode.late.filter (fun x => x != h.name) } } h
    else
      let g := h.group
      let n := targetOf s h
      if ((basisOf s g n).isSome || underspeed s g n) && !replayFull s then stampLines s g n [h] true
      else { s with lode := { s.lode with hold := s.lode.hold ++ [h] } }

/-! Row-lines absent at their deadline (R121). -/

/-- Whether a FIRING frame has a group line. -/
def Frame.fires (f : Frame) (line : Nat) : Bool :=
  f.state == 4 && (match f.g0 with | some g0 => decide (g0 ≤ line) && decide (line < g0 + f.lines) | none => false)

/-- The row-lines of FIRING frames that print at a trigger, each with its channel (R29, R30). -/
def rowLinesAt (s : State) (g n : Nat) : List (Nat × HeldLine) :=
  (groupChannels s g).flatMap (fun c => (slotsOf s c).flatMap (fun t =>
    let rows := match rowPartner s t.1 with | some q => [t.1, q] | none => [t.1]
    let due (r : Nat) : Bool :=
      decide (getF s LDE.ROWDLY_LINES r ≤ n) && (n - getF s LDE.ROWDLY_LINES r) % cycleLines s c == t.2.1
    (rows.filter due).flatMap (fun r =>
      let line := n - getF s LDE.ROWDLY_LINES r
      ((groupFrames s g).filter (fun f => f.fires line)).map (fun f =>
        (c, (⟨f.key, r, line, t.2.2, [], false, f.blank, false⟩ : HeldLine))))))

/-- Whether a row-line's segment has reached the hold: its line has entered the Hummock logic and no segment of it is on its way. -/
def arrived (s : State) (c : Nat) (h : HeldLine) : Bool :=
  (match frameAt s h.frame with
    | some f => decide (h.line < f.g0.getD 0 + f.enteredOn c)
    | none => true) &&
  !(mget s.print.segments c []).any (fun x => x.name == h.name)

/-- Three triggers after its own, a row-line's last fire-at time has passed, whatever its offsets (R115). One whose segment has not
reached the hold by then is late (R121). -/
def lateAbsent (s : State) (g n : Nat) : State :=
  if n < 3 then s
  else
    forEach ((rowLinesAt s g (n - 3)).filter (fun e => !arrived s e.1 e.2 && !s.lode.late.contains e.2.name)) s (fun s e =>
      let s := { s with lode := { s.lode with late := s.lode.late ++ [e.2.name] } }
      if (basisOf s g (n - 3)).isSome then markLocal (countLate s e.2) e.2.frame 0x0C else markSpoil (countLate s e.2) e.2.frame 0x0B)

/-! A trigger is measured (R110, R117). -/

/-- Compares Tm(n) with the stamped prediction (R117). -/
def checkPlace (s : State) (g n tm : Nat) : State :=
  match s.lode.stamps.find? (fun t => t.group == g && t.trigger == n) with
  | none => s
  | some t =>
    let s := { s with lode := { s.lode with stamps := s.lode.stamps.filter (fun x => !(x.group == g && x.trigger == n)) } }
    if tolerance s g * t.period < ((tm : Int) - t.predicted).natAbs * 256 then
      let s := forEach t.segments s (fun s e => markUnsound (incF s LDE.PLACECNT e.1) g e.2.2)
      let s := setF s LDE.ERR_PLACE_ERR 1
      forEach (t.segments.map (fun e => e.2.1)).dedup s (fun s k => markSpoil s k 9)
    else s

/-- A group's trigger is measured, or taken from the active of a pair: the last trigger moves, marks are timed, frames are
released or too late, and row-lines whose basis it is are stamped (R110 to R121, R282, R302). -/
def takeTrigger (s : State) (g n tm frc : Nat) : State :=
  let s := { s with lode := { s.lode with
    tm := mput s.lode.tm g (((n, tm) :: triggersOf s g).take 4224), hitFrc := mput s.lode.hitFrc g frc } }
  let s := setP s LDE.TRIG n g
  let s := setF s LDE.TRGPER (match periodOf s g n with | some p => Nat.min (p / 65536) 0xFFFFFFFF | none => 0) g
  let s := checkPlace s g n tm
  let s := triggerCameras (timeMarks s g n tm) g n tm
  lateAbsent (stampReady (releaseLate (startFiring s g) g) g) g n

/-! Admission (R113). -/

/-- The line the Lode of a channel would admit next: the lowest line of a FIRING frame of the channel's group not yet
admitted. -/
def nextToAdmit (s : State) (c g : Nat) : Option (Frame × Nat) :=
  let next := mget s.print.nextLine c 0
  ((groupFrames s g).filter (fun f => f.state == 4)).foldl (fun a f =>
    match a, f.g0 with
    | some x, _ => some x
    | none, some g0 => if next < g0 + f.lines then some (f, Nat.max next g0) else none
    | none, none => none) none

/-- The Lode of a channel admits its next group line once the trigger is within OPEN (R113), and the replay buffers have
room (R146). -/
def lodeAdmit (s : State) (c : Nat) : State :=
  match groupOf s c with
  | none => s
  | some g =>
    match nextToAdmit s c g with
    | none => s
    | some (f, line) =>
      if triggerReached s g ((line : Int) - openLines s g) && !replayFull s then
        let l := mget s.print.admitted c []
        { s with print := { s.print with
          admitted := mput s.print.admitted c (l ++ [(f.key, line - f.g0.getD 0)]),
          nextLine := mput s.print.nextLine c (line + 1) } }
      else s

/-! Checks of a FARM (R118, R124, R157). -/

/-- Whether a drive group with a valid head in the group's channels has no ceiling (R124). -/
def noCeiling (s : State) (g : Nat) : Bool :=
  (heads s).any (fun e => (groupChannels s g).contains (rowChannel s e.2.row) &&
    (ceilOf s e.2.dgroup == 0 || wceilOf s e.2.dgroup == 0))

/-- Bytes of a held row-line (R118). -/
def rowLineBytes (s : State) (c : Nat) : Nat := ceilDiv (3 * spanCount s c) 512 * 64

/-- The hold a group needs (R118). -/
def holdNeed (s : State) (g : Nat) : Nat :=
  ((groupChannels s g).flatMap (fun c => (channelRows s c).map (fun r =>
    rowLineBytes s c * (openLines s g + 64 + getF s LDE.ROWDLY_LINES r)))).foldl (· + ·) 0

/-- Whether a group's hold does not fit beside those of the other printing groups (R118). -/
def noHoldSpace (s : State) (g : Nat) : Bool :=
  let others := (upto 4).filter (fun h => h != g && groupPrinting s h)
  decide (regionSize s 3 - 64 * 2 ^ 20 < holdNeed s g + (others.map (holdNeed s)).foldl (· + ·) 0)

/-- Whether a group has a head on a hub that is not UP (R157). -/
def hubMissing (s : State) (g : Nat) : Bool := (groupHubs s g).any (fun h => !hubUp s h)

/-- The hold meets an uncorrectable error: the held row-line is stamped as level 0 (R118). -/
def poisonHeld (s : State) (i : Nat) : State :=
  { s with lode := { s.lode with hold := (s.lode.hold.zip (upto s.lode.hold.length)).map (fun e =>
      if e.2 = i then { e.1 with poison := true } else e.1) } }

/-- The windows and slots of a channel's Dyke start empty when its Sedge domain powers down (R129). -/
def dykeLost (s : State) (c : Nat) : State :=
  { s with lode := { s.lode with slots := s.lode.slots.filter (fun t => t.channel != c),
                                 windows := s.lode.windows.filter (fun e => e.1 / 1024 != c) } }

end Sys2Proof.Machine
end

