-- ==== Sys2Proof/Machine/LedgerOps.lean ====
section
/-!
DEFINITION. The ledger operations FACCEPT, BSTAGE, FARM, MARK and LREAD, and their order within a print group (R226 to R233,
R243, R244, R286).
-/

namespace Sys2Proof.Machine

/-! Rights (R226). The function of an operation is 0 to 7, and 8 for a Reed core. -/

/-- Whether an issuer is a thread of the group's own function. -/
def ownGroup (fn g : Nat) : Bool := fn == g + 1
/-- MARK and LREAD: own group, PF0, PF5 and Reed cores. -/
def mayMark (fn g : Nat) : Bool := ownGroup fn g || fn == 0 || fn == 5 || fn == 8
/-- SCRSEL: own group, PF0 and Reed cores. -/
def maySelect (fn g : Nat) : Bool := ownGroup fn g || fn == 0 || fn == 8
/-- AXMOVE, LOOPSET and CAPTURE: PF0, PF6 and Reed cores. -/
def mayMove (fn : Nat) : Bool := fn == 0 || fn == 6 || fn == 8

/-- The group of a ledger operation: the function's own, or the one a MARK or LREAD names. -/
def ledgerGroup (o : Op) : Nat :=
  if o.sub = 14 then field o.desc 8 4 % 4 else if o.sub = 15 then field o.desc 16 8 % 4 else o.fn - 1

/-- Whether a ledger operation is denied (R226). -/
def ledgerDenied (s : State) (o : Op) : Bool :=
  let g := ledgerGroup o
  !groupOn s g || (if o.sub = 14 ∨ o.sub = 15 then !mayMark o.fn g else !(decide (1 ≤ o.fn) && decide (o.fn ≤ 4)))

/-- What becomes of a ledger operation at its place in the order: it is performed, waits, or is performed and still holds the
later ones behind it until it completes (R227). -/
inductive LedgerStep where
  | done (s : State)
  | waits
  | holds (s : State)

/-- Completes an operation with a code alone. -/
def refuse (s : State) (o : Op) (code : Nat) : LedgerStep := .done (completeOp s o.key code 0 0 0)

/-- An address of a descriptor, with the issuer's own-memory alias resolved. -/
def Op.addr (o : Op) (a : Nat) : Nat := (resolveAlias (coreNum o.issuer) a).getD a

/-! FACCEPT (R229, R286). -/

/-- Whether a frame may be named by a reprint: SPOILED, or WITHDRAWN with GO_BACK, FLR or WARM_RESET. -/
def Frame.reprintable (f : Frame) : Bool := f.state == 6 || (f.state == 7 && [0x10, 0x13, 0x12].contains f.reason)

/-- Whether a reprint of `link` is admitted (R286). -/
def reprintOk (s : State) (g link : Nat) : Bool :=
  (match frameOf s g link with | some f => f.reprintable | none => false) &&
  decide (nextFsn s g - link ≤ 65535) &&
  (match mfind s.ledger.runs g with
    | some r => (match r.lacking with | [] => true | n :: l => link == l.foldl Nat.min n)
    | none => true)

/-- A frame as FACCEPT makes it. -/
def Frame.fresh (s : State) (g jobref lines link : Nat) (reprint : Bool) (op : Option Nat) : Frame :=
  { fsn := nextFsn s g, group := g, jobref := jobref, tAccept := workNs s, tFirst := 0, tDisp := 0, pos := 0, crc64 := 0,
    lines := lines, linkback := if reprint then nextFsn s g - link else 0, state := 1, released := false, degraded := false,
    reprint := reprint, reason := 0, g0 := none, stagings := [], mark := none, entered := [], openRows := 0, openSeqs := [],
    blank := false, stripes := [], flush := .none, flushDone := false, flushBad := false, met := false, record := [], mirrored := false, op := op,
    recorded := false, partnerHas := false, firingHeld := false }

/-- A reprint has been accepted for a frame of a run; the run closes when none lacks one (R286). -/
def reprintTaken (s : State) (g link : Nat) : State :=
  match mfind s.ledger.runs g with
  | none => s
  | some r =>
    let l := r.lacking.filter (fun n => n != link)
    if l = [] then closeRun s g else { s with ledger := { s.ledger with runs := mput s.ledger.runs g { r with lacking := l } } }

/-- Assigns the next FSN to a frame and writes its ACCEPTED record. The slot's former frame, 2^20 FSNs below, is forgotten. -/
def acceptFrame (s : State) (f : Frame) (link : Nat) : State :=
  let g := f.group
  let kept := if 2 ^ 20 ≤ f.fsn then mdel s.ledger.frames (frameKey g (f.fsn - 2 ^ 20)) else s.ledger.frames
  let s := { s with ledger := { s.ledger with frames := kept } }
  let s := setP s LDG.NEXTFSN (f.fsn + 1) g
  let s := if f.reprint then reprintTaken s g link else s
  updateOldest (writeVisible s f .accepted) g

/-- Whether a FACCEPT has its frame, whose record is not yet visible. -/
def accepting (s : State) (o : Op) : Bool := s.ledger.frames.any (fun e => e.2.op == some o.key)

/-- FACCEPT at its place in the order. It waits there until its frame's record is durable (R227, R229). -/
def facceptStep (s : State) (o : Op) : LedgerStep :=
  if accepting s o then .waits
  else
  let g := ledgerGroup o
  let lines := field o.desc 8 4
  let w := field o.desc 12 4
  let link := field o.desc 16 8
  let reprint := bit w 0
  let st := getF s LDG.STAT_STATE g
  if !mireLocked s then refuse s o 0x0C
  else if lines = 0 ∨ 2 ≤ w ∨ field o.desc 24 8 ≠ 0 ∨ (!reprint ∧ link ≠ 0) ∨ (reprint ∧ !reprintOk s g link) then refuse s o 9
  else if nextFsn s g - getP s LDG.OLDEST g ≥ 2 ^ 20 ∨ !flag s LDG.MIRCFG_EN g ∨ st = 2 ∨ st = 3 ∨
      ((mfind s.ledger.runs g).isSome ∧ !reprint) then refuse s o 0x1A
  else .holds (acceptFrame s (Frame.fresh s g (field o.desc 0 8) lines link reprint (some o.key)) link)

/-! BSTAGE (R231). -/

/-- What REF of a BSTAGE names: a handle, a BLOAD to wait for, a failed BLOAD with its code, or nothing legal. -/
inductive StageRef where
  | handle (h : Nat)
  | pending
  | failed (code : Nat)
  | invalid

/-- Resolves REF (Table: BSTAGE descriptor). A handle that has been released since its BLOAD completed names no band. -/
def stageRef (s : State) (form1 : Bool) (ref : Nat) : StageRef :=
  let index := ref % 1024
  if !form1 then (if ref < 8192 then .handle ref else .invalid)
  else if ref / 1024 % 64 ≠ 0 then .invalid
  else match s.host.ops.find? (fun p => p.pool == 0 && p.index == index && p.serial == ref / 65536) with
    | some p => if p.sub = 2 then .pending else .invalid
    | none => match mfind s.host.bloads (ref / 65536) with
      | some b => if b.index ≠ index then .invalid else if b.code = 0 ∧ b.held then .handle b.handle else .failed b.code
      | none => .invalid

/-- Completes a BSTAGE that is refused: VALUE names its frame (Table: VALUE and AUX by operation). -/
def refuseStage (s : State) (o : Op) (code aux : Nat) : LedgerStep := .done (completeOp s o.key code 0 aux (field o.desc 0 8))

/-- Attaches a valid band to a frame. -/
def stageBand (s : State) (o : Op) (f : Frame) (h : Nat) : LedgerStep :=
  match bandOf s h with
  | none => refuseStage s o 0x1B 0
  | some b =>
    if b.status ≠ .valid then refuseStage s o 0x1B 0
    else if !(groupChannels s f.group).contains b.ch then refuseStage s o 0x10 0
    else if b.count ≠ spanCount s b.ch ∨ b.cdpi ≠ cdpiIn s f.group b.ch then refuseStage s o 0x1C 0
    else if f.lines ≤ b.first ∨ 256 ≤ f.stagings.length then refuseStage s o 0x1D 0
    else
      let s := setBand s h { b with frameRefs := b.frameRefs ++ [f.key] }
      let f' := { f with state := 2, stagings := f.stagings ++ [⟨h, b.crc, b.ulen, b.first, b.plane, b.ch, none⟩] }
      let s := if f.state = 1 then writeRecord s f' else setFrame s f'
      .done (completeOp s o.key 0 0 h f.fsn)

/-- BSTAGE at its place in the order. -/
def bstageStep (s : State) (o : Op) : LedgerStep :=
  let w := field o.desc 16 8
  if 2 ≤ w then refuseStage s o 9 0
  else match frameOf s (ledgerGroup o) (field o.desc 0 8) with
    | none => refuseStage s o 0x11 0
    | some f =>
      if f.state ≠ 1 ∧ f.state ≠ 2 then refuseStage s o 0x12 0
      else match stageRef s (bit w 0) (field o.desc 8 8) with
        | .pending => .waits
        | .invalid => refuseStage s o 9 0
        | .failed c => refuseStage s o 0x1B c
        | .handle h => stageBand s o f h

/-! FARM (R232, R233). -/

/-- The frames of a group before one, and not WITHDRAWN. -/
def precedingFrames (s : State) (f : Frame) : List Frame :=
  (groupFrames s f.group).filter (fun p => decide (p.fsn < f.fsn) && p.state != 7)

/-- The last group line of the preceding frames; none where there is no such line. -/
def precedingLine (s : State) (f : Frame) : Option Nat :=
  (precedingFrames s f).foldl (fun a p => match a, p.lastLine with
    | some x, some y => some (Nat.max x y)
    | none, y => y
    | a, none => a) none

/-- Whether validation, reload, rebuild or a disabled function holds a FARM (R41, R107, R263). -/
def farmHeld (s : State) (g : Nat) : Bool :=
  getF s LDE.GEOSTAT_STATE == 1 || flag s HMK.STAT_REBUILD || fnDisabled s (g + 1) ||
  (groupChannels s g).any (fun c => (channelRows s c).any (reloading s))

/-- The code of the checks of a FARM in order (Table: FARM checks), before and after the wait of check 8. -/
def farmEarly (s : State) (f : Option Frame) (g mode : Nat) (g0 : Option Nat) : Nat :=
  if !confirmed s then 0x0D
  else if !mireLocked s then 0x0C
  else match f with
    | none => 0x11
    | some f =>
      if f.state ≠ 1 ∧ f.state ≠ 2 then 0x12
      else if mode = 0 ∧ !generatorOn s (getF s LDE.PGTIM_LTG g) then 0x2B
      else match g0 with
        | none => 0x13
        | some n =>
          if (precedingFrames s f).any (fun p => decide (p.state < 3)) then 0x13
          else if (match precedingLine s f with | some l => decide (n ≤ l) | none => false) then 0x13
          else if n ≤ lineBound s g (getP s LDE.TRIG g) then 0x14
          else 0

def farmLate (s : State) (g : Nat) : Nat :=
  if getF s LDE.GEOSTAT_STATE ≠ 2 then 0x15
  else if noScreen s g then 0x16
  else if noCeiling s g then 0x17
  else if hubMissing s g then 0x18
  else if noHoldSpace s g then 0x19
  else 0

/-- A frame becomes ARMED with its G0 fixed: POS and CRC64 are set, its record goes to the rings, and its FIRING record starts
at once where the trigger has already come (R233, R278, R282). A wait may have let the trigger reach G0. -/
def armFrame (s : State) (f : Frame) (g0 : Nat) : State :=
  let j := getF s LDE.PGTIM_LTG f.group
  let f := { f with state := 3, g0 := some g0, pos := unsign (linePos s j g0 / (2 ^ 32 : Nat)) 64, crc64 := contentCrc f }
  releaseLate (startFiring (writeRecord s f) f.group) f.group

/-- The G0 an arming FARM asks for: the line at its position, or the line after the preceding frames and its gap (R232). -/
def farmLine (s : State) (o : Op) : Option Nat :=
  let g := ledgerGroup o
  (frameOf s g (field o.desc 0 8)).bind (fun f =>
    if field o.desc 16 8 = 0 then some (lineAt s (getF s LDE.PGTIM_LTG g) (signed (field o.desc 8 8) 64 * 2 ^ 32))
    else (precedingLine s f).map (fun l => l + 1 + field o.desc 8 8))

/-- Checks 8 to 12 of an arming FARM, once its waits have ended (R233). -/
def farmFinish (s : State) (o : Op) (n : Nat) : LedgerStep :=
  let g := ledgerGroup o
  let e := farmLate s g
  if e ≠ 0 then refuse s o e
  else match frameOf s g (field o.desc 0 8) with
    | some f => .done (completeOp (armFrame s f n) o.key 0 0 0 n)
    | none => refuse s o 0x11

/-- Checks 1 to 7 of an arming FARM, with G0 fixed where they pass; it then waits as R41 and R107 impose (R233). -/
def farmArm (s : State) (o : Op) : LedgerStep :=
  let g := ledgerGroup o
  let g0 := farmLine s o
  let e := farmEarly s (frameOf s g (field o.desc 0 8)) g (field o.desc 16 8) g0
  if e ≠ 0 then refuse s o e
  else
    let n := g0.getD 0
    if farmHeld s g then .holds (putOp s { o with g0 := some n }) else farmFinish s o n

/-- FARM WITHDRAW (R232). -/
def farmWithdraw (s : State) (o : Op) : LedgerStep :=
  match frameOf s (ledgerGroup o) (field o.desc 0 8) with
  | none => refuse s o 0x11
  | some f =>
    if 4 ≤ f.state then refuse s o 0x12
    else .done (completeOp (withdraw s f 0x14) o.key 0 0 0 f.fsn)

/-- FARM at its place in the order. -/
def farmStep (s : State) (o : Op) : LedgerStep :=
  let g := ledgerGroup o
  let w := field o.desc 16 8
  if fnDisabled s (g + 1) then .waits
  else match o.g0 with
    | some n => if farmHeld s g then .waits else farmFinish s o n
    | none =>
      if 3 ≤ w ∨ (w = 2 ∧ field o.desc 8 8 ≠ 0) then refuse s o 9
      else if w = 2 then farmWithdraw s o
      else farmArm s o

/-! MARK (R243) and LREAD (R244). -/

/-- Places a MARK: a stripe of 16 lines, or a marker pulse where no stripe is asked for or SLEV is 0. -/
def placeMark (s : State) (f : Frame) (g0 marker offset : Nat) (stripe : Bool) (op : Option Nat) : State :=
  if stripe ∧ getF s LDG.MARKCFG_SLEV f.group ≠ 0 then
    setFrame s { f with stripes := f.stripes ++ [(g0 + offset, Nat.min (g0 + offset + 15) (g0 + f.lines - 1), op)] }
  else placeMarker s marker (g0 + offset) op

/-- MARK at its place in the order. -/
def markStep (s : State) (o : Op) : LedgerStep :=
  let g := ledgerGroup o
  let w := field o.desc 8 4
  let offset := field o.desc 12 4
  if 32 ≤ w then refuse s o 9
  else match frameOf s g (field o.desc 0 8) with
    | none => refuse s o 0x11
    | some f => match f.g0 with
      | none => refuse s o 0x12
      | some g0 =>
        if f.lines ≤ offset then refuse s o 0x1D
        else if bit w 4 ∧ offset < f.enteredOn (rowChannel s (getF s LDG.MARKCFG_ROW g)) then refuse s o 0x14
        else .done (placeMark s f g0 (bits w 2 2) offset (bit w 4) (some o.key))

/-- LREAD at its place in the order. -/
def lreadStep (s : State) (o : Op) : LedgerStep :=
  let g := ledgerGroup o
  let dest := o.addr (field o.desc 8 8)
  if 4 ≤ field o.desc 16 8 ∨ dest % 64 ≠ 0 ∨ !destOpen s dest 64 then refuse s o 9
  else match frameOf s g (field o.desc 0 8) with
    | none => refuse s o 0x11
    | some f =>
      let s := engineStore s o.hostfn o.hwin dest f.record
      .done (completeOp s o.key 0 0 (f.recordedState + 8 * bnat f.recordedReleased) f.fsn)

/-! The order (R227). -/

/-! Divergence (R309, R310). -/

/-- A divergence: found by this unit, or received. One found while the partner is lost is not acted on. -/
def diverge (s : State) (cause detail : Nat) (found : Bool) : State :=
  if s.twin.lost || !(twinState s == 3 || twinState s == 4) then s
  else
    let s := if flag s TWN.ERR_DIVERGE then s else setF (setF s TWN.DIV_CAUSE cause) TWN.DIV_DETAIL detail
    let s := raiseEvent (setF s TWN.ERR_DIVERGE 1) 0 0x0205 (getF s TWN.DIV) 0
    let s := if found then twinSend s (.diverge cause detail) else s
    if ownClaim s < getF s TWN.PCLAIM then setF s TWN.STAT_STATE 6 else s

/-! A standby's matched operations (R303). -/

/-- The result the active has sent for an operation. -/
def resultFor (s : State) (o : Op) : Option (Word × Word) :=
  (s.twin.early.find? (fun e => e.1 == o.twinKey)).map (fun e => e.2)

/-- Forgets the result of an operation. -/
def dropResult (s : State) (o : Op) : State :=
  setTwin s { s.twin with
    early := s.twin.early.filter (fun e => e.1 != o.twinKey)
    awaiting := s.twin.awaiting.filter (fun m => m.op != o.key) }

/-- Completes an operation with a completion record of the active. -/
def completeWith (s : State) (key : Nat) (cw value : Word) : State :=
  let c := cw.toNat
  completeOp s key (bits c 0 8) (bits c 16 16) (bits c 32 32) value.toNat

/-- A standby arms a frame at the line the active has fixed; with the active's FIRING record held it fires at once (R306). Its
content is compared with that of the active's ARMED record (R309). -/
def armStandby (s : State) (f : Frame) (g0 : Nat) : State :=
  let j := getF s LDE.PGTIM_LTG f.group
  let s := setFrame s { f with
    state := if f.firingHeld then 4 else 3
    g0 := some g0
    pos := unsign (linePos s j g0 / (2 ^ 32 : Nat)) 64
    crc64 := contentCrc f }
  if f.crc64 = contentCrc f then s else diverge s 3 f.group true

/-- The stripe a standby places for a MARK; markers are the active's (R307). -/
def markFollow (s : State) (o : Op) : State :=
  let g := ledgerGroup o
  let w := field o.desc 8 4
  let offset := field o.desc 12 4
  match frameOf s g (field o.desc 0 8) with
  | none => s
  | some f => match f.g0 with
    | none => s
    | some g0 =>
      if bit w 4 ∧ offset < f.lines ∧ f.enteredOn (rowChannel s (getF s LDG.MARKCFG_ROW g)) ≤ offset ∧ getF s LDG.MARKCFG_SLEV g ≠ 0 then
        setFrame s { f with stripes := f.stripes ++ [(g0 + offset, Nat.min (g0 + offset + 15) (g0 + f.lines - 1), none)] }
      else s

/-- A standby performs a matched ledger operation at its place, with the active's result. FACCEPT completes once its own mirror
shows the record; a MARK places its stripe, and completes with the active's. -/
def followStep (s : State) (o : Op) (r : Word × Word) : State :=
  let s := dropResult s o
  let code := r.1.toNat % 256
  let g := ledgerGroup o
  if code ≠ 0 then completeWith s o.key r.1 r.2
  else if o.sub = 1 then
    match frameOf s g r.2.toNat with
    | some f => if f.flush = .accepted then setFrame s { f with op := some o.key } else completeWith s o.key r.1 r.2
    | none => completeWith s o.key r.1 r.2
  else if o.sub = 4 ∧ field o.desc 16 8 ≠ 2 then
    match frameOf s g (field o.desc 0 8) with
    | some f => completeWith (if f.state < 3 then armStandby s f r.2.toNat else s) o.key r.1 r.2
    | none => completeWith s o.key r.1 r.2
  else completeWith (if o.sub = 14 then markFollow s o else s) o.key r.1 r.2

/-- One ledger operation at the head of its group's order. Every one waits while the ledger recovers (R289), and a standby's
matched operation waits for the active's decision (R303). -/
def ledgerStep (s : State) (o : Op) : LedgerStep :=
  if flag s LDG.STAT_RECOVERING (ledgerGroup o) then .waits
  else if o.sub = 1 && accepting s o then .waits
  else if isStandby s && o.matched then
    match resultFor s o with
    | some r => let s := followStep s o r; if (opOf s o.key).isSome then .holds s else .done s
    | none => if o.sub = 14 then .done (markFollow s o) else .waits
  else match o.sub with
    | 1 => facceptStep s o
    | 3 => bstageStep s o
    | 4 => farmStep s o
    | 14 => markStep s o
    | _ => lreadStep s o

def orderOf (s : State) (g : Nat) : List Nat := mget s.ledger.order g []
def setOrder (s : State) (g : Nat) (l : List Nat) : State := { s with ledger := { s.ledger with order := mput s.ledger.order g l } }

/-- Performs the ledger operations of a group in order, up to the first that waits. -/
def runLedgerN : Nat → State → Nat → State
  | 0, s, _ => s
  | n + 1, s, g =>
    match orderOf s g with
    | [] => s
    | k :: r =>
      match opOf s k with
      | none => runLedgerN n (setOrder s g r) g
      | some o => match ledgerStep s o with
        | .waits => s
        | .holds s' => s'
        | .done s' => runLedgerN n (setOrder s' g ((orderOf s' g).filter (fun j => j != k))) g

def runLedger (s : State) (g : Nat) : State := runLedgerN ((orderOf s g).length + 1) s g

/-- The recovery of a group ends: its records are RELEASED, PF0 is enabled and the mirror holds them (Table: ledger recovery
after warm reset, steps 5 and 6). -/
def finishRecovery (s : State) (g : Nat) : State :=
  if flag s LDG.STAT_RECOVERING g && mireLocked s && !fnDisabled s 0 &&
      (groupFrames s g).all (fun f => f.released || haltedBelow s g (f.fsn + 1)) &&
      (lagOf s g).all (fun n => haltedBelow s g (n + 1)) then
    groupEvent (setF s LDG.STAT_RECOVERING 0 g) g 0x0102 g (nextFsn s g)
  else s

/-- Runs the ledger operations of every group. -/
def runLedgers (s : State) : State := forEach (upto 4) s (fun s g => runLedger (finishRecovery s g) g)

/-- A matched operation of a standby awaits its RESULT (R303). -/
def awaitResult (s : State) (o : Op) : State :=
  if isStandby s && o.matched then setTwin s { s.twin with awaiting := s.twin.awaiting ++ [⟨o.twinKey, o.key, s.frc⟩] } else s

/-- A ledger operation is issued: denied at once, or placed in its group's order. -/
def startLedger (s : State) (o : Op) : State :=
  if ledgerDenied s o then completeOp s o.key 0x10 0 0 0
  else
    let g := ledgerGroup o
    runLedger (awaitResult (setOrder s g (orderOf s g ++ [o.key])) o) g

end Sys2Proof.Machine
end

