-- ==== Sys2Proof/Machine/Intake.lean ====
section
/-!
DEFINITION. Band intake, the Mire page store and Sluice: BLOAD and its reads, the region lock, inflation for printing, refetch,
and Sluice jobs (R43 to R68).
-/

namespace Sys2Proof.Machine

/-! Dictionaries (R66). -/

def dictAddr (s : State) (k : Nat) : Nat := regionBase s 7 + 32768 * k
def dictValid (s : State) (k : Nat) : Bool := flag s SLC.DICTSTAT_VALID k
def dictLoading (s : State) (k : Nat) : Bool := flag s SLC.DICTSTAT_LOADING k

/-- The dictionary of a slot, where it holds one. -/
def dictBytes (s : State) (k : Nat) : Option Dict :=
  if dictValid s k then some ⟨getF s SLC.DICTADLER k, loadBytes s (dictAddr s k) (getF s SLC.DICTSTAT_LEN k)⟩ else none

/-- The bands in Mire that name a slot (SLC.DICTSTAT.REFS): one that waits for blocks is not yet there, and one whose report waits no
longer. -/
def dictRefs (s : State) (k : Nat) : Nat :=
  (s.intake.bands.filter (fun e => e.2.dicten && e.2.dict == k && e.2.status != .waiting && e.2.status != .reporting)).length

/-- The bytes a deflate engine proposes (R63). -/
def freeDeflate (s : State) : List Byte × State := (Config.deflateBytes s.fresh, { s with fresh := s.fresh + 1 })

/-! The band descriptor (R44, R45). -/

/-- LB: bytes of a band line of a plane on a channel of a group (R43). -/
def lineBytes (s : State) (g c plane : Nat) : Nat :=
  let n := spanCount s c
  if plane = 0 then n / hIn s g c else if plane = 1 then n / 8 else if plane = 2 then n / (4 * hIn s g c) else 3 * n / 8

/-- The band a descriptor describes, before anything is loaded. -/
def bandOfDesc (s : State) (o : Op) : Band :=
  let d := o.desc
  let w := field d 16 4
  let c := bits w 4 3
  { status := .waiting, fn := o.fn, src := field d 0 8, clen := field d 8 4, ulen := field d 12 4, plane := bits w 0 2,
    comp := bits w 2 2, ch := c, recomp := bit w 8, verify := bit w 9, level := bits w 12 4, dict := bits w 16 4,
    dicten := bit w 20, lines := field d 20 4, first := field d 24 4, crc := field d 28 4, cookie := field d 32 8,
    count := spanCount s c, cdpi := cdpiIn s (o.fn - 1) c, blocks := [], stored := 0, storedComp := 0, storedRaw := false,
    todo := [], outstanding := [], buffer := [], verified := 0, suspended := false, op := some o.key, loadRef := some (o.queue, o.entry),
    frameRefs := [], refetch := none, reported := false }

/-- Whether a descriptor breaks R45. -/
def bandInvalid (s : State) (o : Op) (b : Band) : Bool :=
  let w := field o.desc 16 4
  bit w 7 || bits w 10 2 != 0 || bits w 21 11 != 0 || (slice o.desc 40 24).any (fun x => x != 0) || b.comp == 3 ||
  b.lines == 0 || decide (4096 < b.lines) || b.clen == 0 ||
  b.ulen != b.lines * lineBytes s (o.fn - 1) b.ch b.plane || (b.comp == 0 && b.clen != b.ulen) ||
  (b.recomp && (b.comp != 0 || b.level == 0 || decide (9 < b.level))) || (!b.recomp && b.level != 0) ||
  (b.dicten && b.comp == 0 && !b.recomp) || !(groupChannels s (o.fn - 1)).contains b.ch ||
  getF s LDE.GEOSTAT_STATE != 2

/-- The 64 KiB blocks a band reserves (R52). -/
def bandNeed (b : Band) : Nat := ceilDiv (if b.recomp then b.ulen else b.clen) 65536

/-! Reads of the source (R48, R268). -/

def sourceReads (s : State) (b : Band) : List (Nat × Nat) := readsOf s b.fn b.src b.clen

/-- Issues the reads of a band that the pool has room for; a disabled function's reads wait (R48). -/
def issueReads (s : State) (h : Nat) : State :=
  match bandOf s h with
  | none => s
  | some b =>
    if fnDisabled s b.fn then s
    else
      let now := b.todo.take (bulkRoom s b.fn)
      let s := setBand s h { b with todo := b.todo.drop now.length, outstanding := b.outstanding ++ now }
      forEach now s (fun s r => send s (.hostRead b.fn (b.src + r.1) r.2))

/-- Issues what the pool has room for, of every band that is loading. -/
def issueAllReads (s : State) : State :=
  forEach (s.intake.bands.map (fun e => e.1)) s (fun s h =>
    match bandOf s h with
    | some b => if b.todo = [] then s else issueReads s h
    | none => s)

/-- SLC.ERR's bit of a result code (Table: SLC.ERR). -/
def codeFlag (code : Nat) : Fld :=
  if code = 3 then SLC.ERR_STREAM else if code = 4 then SLC.ERR_LENGTH else if code = 5 then SLC.ERR_CRC
  else if code = 6 then SLC.ERR_DICT else if code = 7 then SLC.ERR_POISON else SLC.ERR_SOURCE

/-- SLC.ERR and SLC.ERRBAND record a band that failed. -/
def bandError (s : State) (h code : Nat) (e : Fld) : State :=
  let s := if getF s SLC.ERR = 0 then setF (setF s SLC.ERRBAND_BAND h) SLC.ERRBAND_CODE code else s
  setF s e 1

/-! The deflate engines (R63). -/

/-- Whether a band compresses: its source is being read, to go through a deflate engine. -/
def compresses (b : Band) : Bool :=
  b.status == .reading && b.recomp && !b.storedRaw && !(b.todo.isEmpty && b.outstanding.isEmpty && b.buffer.isEmpty)

/-- Whether a job may run on a deflate engine. -/
def deflatesNow (s : State) (j : Job) : Bool := j.kind == 1 && !j.waiting && !(j.dicten && dictLoading s j.dict)

def deflating (s : State) (w : DeflateWork) : Bool := s.intake.deflate.any (fun e => e.2 == w)

/-- The work that takes a free deflate engine next: a band's recompression ahead of a job's. -/
def nextDeflate (s : State) : Option DeflateWork :=
  match s.intake.bands.find? (fun x => compresses x.2 && !deflating s (.band x.1)) with
  | some x => some (.band x.1)
  | none => (s.intake.jobs.find? (fun j => deflatesNow s j && !deflating s (.job j.op))).map (fun j => .job j.op)

/-- Engines whose work has ended are free, and a free engine takes the next work; work in progress is never displaced. -/
def serveDeflate (s : State) : State :=
  let going (w : DeflateWork) : Bool := match w with
    | .band h => (match bandOf s h with | some b => compresses b | none => false)
    | .job k => s.intake.jobs.any (fun j => j.op == k)
  let s : State := { s with intake := { s.intake with deflate := s.intake.deflate.filter (fun e => going e.2) } }
  forEach (upto 2) s (fun s d => match mfind s.intake.deflate d, nextDeflate s with
    | none, some w => { s with intake := { s.intake with deflate := mput s.intake.deflate d w } }
    | _, _ => s)

/-- A BLOAD fails: its blocks and entry are freed and it completes with a code (R48, R67). -/
def failLoad (s : State) (h code : Nat) : State :=
  match bandOf s h with
  | none => s
  | some b =>
    let s := abandonBand (bandError s h code (codeFlag code)) h
    let s := match b.op with | some k => completeOp s k code 0 h b.cookie | none => s
    runLedgers (issueAllReads (serveDeflate s))

/-- Starts reading the source, once a dictionary slot that is LOADING has its outcome (R63, R66). -/
def beginReads (s : State) (h : Nat) : State :=
  match bandOf s h with
  | none => s
  | some b =>
    if b.dicten ∧ dictLoading s b.dict then s
    else if b.recomp ∧ b.dicten ∧ !dictValid s b.dict then failLoad s h 6
    else serveDeflate (issueReads (setBand s h { b with todo := sourceReads s b }) h)

/-- A BLOAD that waits takes an entry of the band table, where one is free (R48, R53). -/
def takeBandEntry (s : State) (key : Nat) : State :=
  match mfind s.intake.described key, freeHandle s with
  | some b, some h => setBand { s with intake := { s.intake with described := mdel s.intake.described key } } h b
  | _, _ => s

/-- A BLOAD takes its entry and its blocks and starts (R48, R52); whether it has, since they may not be free (R53). -/
def admitLoad (s : State) (key : Nat) : Bool × State :=
  let s := takeBandEntry s key
  match s.intake.bands.find? (fun x => x.2.op == some key && x.2.status == .waiting) with
  | none => (false, s)
  | some (h, b) =>
    if freeBlockCount s < bandNeed b then (false, s)
    else (true, beginReads (setBand s h { b with status := .reading, blocks := takeBlocks s (bandNeed b) }) h)

/-- A BLOAD is issued (R45, R47, R53, R226). -/
def startBload (s : State) (o : Op) : State :=
  let b := bandOfDesc s o
  let fin (code : Nat) : State := completeOp s o.key code 0 0 b.cookie
  if !(decide (1 ≤ o.fn) && decide (o.fn ≤ 4)) || !groupOn s (o.fn - 1) then fin 0x10
  else if !confirmed s then fin 0x0D
  else if !mireLocked s then fin 0x0C
  else if bandInvalid s o b then fin 9
  else if poolBlocks s < bandNeed b then fin 0x0A
  else
    let first : Bool := s.intake.waiting.isEmpty
    let s := takeBandEntry { s with intake := { s.intake with described := mput s.intake.described o.key b } } o.key
    let wait (s : State) : State := { s with intake := { s.intake with waiting := s.intake.waiting ++ [o.key] } }
    if first then (let r := admitLoad s o.key; if r.1 then r.2 else wait r.2) else wait s

/-! Decoding a stored band (R57, R59, R62). -/

/-- What decoding a band gives: its output, how many bytes of it are good, and its result code. -/
structure Decoded where
  out : List Byte
  good : Nat
  code : Nat
  deriving DecidableEq, Repr

/-- The first poisoned byte of a list of blocks. -/
def firstPoison (s : State) (blocks : List Nat) (n : Nat) : Option Nat :=
  (upto (ceilDiv n 64)).findSome? (fun w =>
    if poisoned s (blockByte s blocks (64 * w)) (Nat.min 64 (n - 64 * w)) then some (64 * w) else none)

/-- The dictionary a band's stream uses. -/
def bandDict (s : State) (b : Band) : Option Dict := if b.dicten then dictBytes s b.dict else none

/-- How many output bytes a compressed stream gives before it needs a poisoned word of its blocks or of its dictionary (R62). -/
def goodBytes (s : State) (b : Band) (blocks : List Nat) (stored comp : Nat) : Option Nat :=
  let input := blockLoad s blocks 0 stored
  let dict := bandDict s b
  let fromBlocks := (firstPoison s blocks stored).map (fun k => producedBefore comp b.ulen k dict input)
  let fromDict := match dict with
    | some d => producedBeforeDict comp b.ulen d (fun i => poisoned s (dictAddr s b.dict + i) 1) input
    | none => none
  match fromBlocks, fromDict with
  | some m, some n => some (Nat.min m n)
  | some m, none | none, some m => some m
  | none, none => none

/-- Decodes a stored band, or the code that stops it. -/
def decodeStream (s : State) (b : Band) (blocks : List Nat) (stored comp : Nat) : Decoded :=
  if comp ≠ 0 ∧ b.dicten ∧ !dictValid s b.dict then ⟨[], 0, 6⟩
  else
    let r := inflate comp b.ulen (bandDict s b) (blockLoad s blocks 0 stored)
    let bad := if comp = 0 then (firstPoison s blocks stored).map (fun _ => b.ulen) else goodBytes s b blocks stored comp
    match bad with
    | some n => ⟨r.out, n, 7⟩
    | none =>
      if r.code ≠ 0 then ⟨r.out, r.out.length, r.code⟩
      else if crc32c r.out = b.crc then ⟨r.out, b.ulen, 0⟩ else ⟨r.out, b.ulen, 5⟩

def decodeBand (s : State) (b : Band) : Decoded := decodeStream s b b.blocks b.stored b.storedComp

/-! The engines and what they decode next (R56). -/

def inflationOf (s : State) (key h : Nat) : Inflation :=
  (s.intake.inflations.find? (fun i => i.frame == key && i.band == h)).getD ⟨key, h, 0, 0⟩

/-- Changes an inflation, or ends it. -/
def setInflation (s : State) (key h : Nat) (i : Option Inflation) : State :=
  let rest := s.intake.inflations.filter (fun x => !(x.frame == key && x.band == h))
  { s with intake := { s.intake with inflations := rest ++ (match i with | some x => [x] | none => []) } }

/-- A candidate for the next line of an engine: frame, staging and the frame line its next band line starts at. -/
structure NextLine where
  frame : Frame
  staging : Staging
  line : Nat

/-- The inflations an engine may serve: bands of its planes staged to FIRING frames whose inflation has not ended. -/
def engineWork (s : State) (e : Nat) : List NextLine :=
  match groupOf s (e / 2) with
  | none => []
  | some g => ((groupFrames s g).filter (fun f => f.state == 4)).flatMap (fun f =>
      (f.stagings.filter (fun t => t.ch == e / 2 && engineOf t.ch t.plane == e && t.verdict.isNone)).map (fun t =>
        ⟨f, t, t.first + (inflationOf s f.key t.band).next * planeV s f t.ch t.plane⟩))

/-- The next line of an engine in frame line order: the lowest frame, then the lowest frame line, then the lowest plane. -/
def nextLine (s : State) (e : Nat) : Option NextLine :=
  (engineWork s e).foldl (fun a n => match a with
    | none => some n
    | some m =>
      if n.frame.fsn < m.frame.fsn ∨ (n.frame.fsn = m.frame.fsn ∧ (n.line < m.line ∨
          (n.line = m.line ∧ n.staging.plane < m.staging.plane))) then some n else some m) none

/-- Whether a verification or a job runs on an engine. -/
def engineWorks (s : State) (e : Nat) : Bool :=
  s.intake.bands.any (fun x => x.2.status == .verifying && !x.2.suspended && engineOf x.2.ch x.2.plane == e) ||
  s.intake.jobs.any (fun j => j.engine == some e && !j.suspended)

/-- Whether an engine may take a verification or a job: it has none, and holds its full lead or has no line to decode (R60). -/
def engineFree (s : State) (e : Nat) : Bool :=
  (decide (8 ≤ (leadOf s e).length) || (engineWork s e).isEmpty) && !engineWorks s e

/-! Refetch (R61). -/

/-- Starts the refetch of a band: new blocks are reserved where they are free. -/
def startRefetch (s : State) (h : Nat) : State :=
  match bandOf s h with
  | none => s
  | some b =>
    if b.status = .valid ∧ b.refetch = none then
      let n := bandNeed b
      setBand s h { b with
        reported := false, refetch := some ⟨if n ≤ freeBlockCount s then takeBlocks s n else [], 0, false, 0, 0⟩ }
    else s

/-- An uncorrectable error is reported in a block: the band that holds it is refetched, or the report is held while its BLOAD, or
the refetch that has taken the block, is in progress (R61). -/
def bandPoison (s : State) (h block : Nat) : State :=
  match bandOf s h with
  | none => s
  | some b =>
    let old : Bool := b.blocks.contains block
    let new : Bool := match b.refetch with | some r => r.blocks.contains block | none => false
    if old && b.status == .valid then startRefetch s h
    else if old && b.status != .bad || new then setBand s h { b with reported := true }
    else s

/-- What a band's source becomes in Mire: the bytes stored, how they are stored, and whether they are stored raw. -/
structure Stored where
  bytes : List Byte
  comp : Nat
  raw : Bool
  /-- compression has been abandoned, and the source is to be read again (R63) -/
  again : Bool

/-- Stores what has been read: as received, or through a deflate engine (R48, R63); a CRC error of the incoming data is code 5. -/
def storeSource (s : State) (b : Band) (data : List Byte) : Nat × Stored × State :=
  if b.comp = 0 ∧ crc32c data ≠ b.crc then (5, ⟨[], 0, false, false⟩, s)
  else if b.recomp ∧ !b.storedRaw then
    let (p, s) := freeDeflate s
    let out := deflateRaw p (dictHistory (bandDict s b)) data
    if b.ulen ≤ out.length then (0, ⟨[], 0, true, true⟩, s) else (0, ⟨out, 1, false, false⟩, s)
  else (0, ⟨data, b.comp, b.storedRaw, false⟩, s)

/-- The source bytes that a band has received, in order. -/
def received (b : Band) : List Byte := b.buffer.flatMap (fun e => e.2)

/-- A BLOAD's band is valid: the BLOAD completes with its handle, and a held report starts its refetch (R48, R61). -/
def validLoad (s : State) (h : Nat) : State :=
  match bandOf s h with
  | none => s
  | some b =>
    let s := setBand s h { b with status := .valid, op := none, buffer := [] }
    let s := match b.op with | some k => completeOp s k 0 (bnat b.storedRaw) h b.cookie | none => s
    let s := if b.reported then startRefetch s h else s
    runLedgers s

/-- The verification at load ends, where it runs (R59, R60). -/
def verifyLoad (s : State) (h : Nat) : State :=
  match bandOf s h with
  | none => s
  | some b =>
    if b.suspended then s
    else
      let d := decodeBand s b
      if d.code = 0 then validLoad s h else failLoad s h d.code

/-- A BLOAD's reads are done: its data is checked, stored and, where asked, verified (R48, R59, R63). A verification waits for its
engine's full lead. -/
def finishLoad (s : State) (h : Nat) : State :=
  match bandOf s h with
  | none => s
  | some b =>
    if b.status = .verifying then verifyLoad s h
    else if b.status ≠ .reading ∨ b.op = none ∨ b.todo ≠ [] ∨ b.outstanding ≠ [] ∨ b.buffer = [] then s
    else if compresses b && !deflating s (.band h) then s
    else
      let (code, d, s) := storeSource s b (received b)
      if code ≠ 0 then failLoad s h code
      else if d.again then serveDeflate (issueReads (setBand s h { b with storedRaw := true, buffer := [], todo := sourceReads s b }) h)
      else
        let s := blockStore s b.blocks d.bytes
        let b := { b with blocks := b.blocks.take (ceilDiv d.bytes.length 65536), stored := d.bytes.length, storedComp := d.comp,
                          buffer := [] }
        if d.comp ≠ 0 ∧ (b.verify ∨ flag s SLC.CFG_VERIFY_ALL) then
          let free : Bool := engineFree s (engineOf b.ch b.plane)
          verifyLoad (serveDeflate (setBand s h { b with status := .verifying, suspended := !free })) h
        else serveDeflate (validLoad (setBand s h b) h)

/-- A completion of a source read: the data goes to its offset, or the BLOAD fails (R48). -/
def readReturn (s : State) (h off : Nat) (reply : HostReply) : State :=
  match discardStale s (.band h off), bandOf s h with
  | some s, _ => issueAllReads s
  | none, none => s
  | none, some b =>
    match b.outstanding.find? (fun r => r.1 == off) with
    | none => s
    | some r =>
      match reply with
      | .failed => failLoad s h 8
      | .data bs =>
        issueAllReads (setBand s h { b with
          outstanding := b.outstanding.filter (fun x => x.1 != off),
          buffer := mput b.buffer off (slice bs 0 r.2) })

/-- The longest waiting BLOAD or job takes its blocks, or completes with MIRE_FULL where no frame that references a band is ARMED
or FIRING (R53). Jobs are served through `admit`. -/
def noRelease (s : State) : Bool :=
  !(s.ledger.frames.any (fun e => (e.2.state == 3 || e.2.state == 4) && !e.2.stagings.isEmpty && !e.2.released))

/-- Whether a refetch attempt may end now: its blocks are reserved, its function is enabled, the pool has room for its reads, a deflate
engine is free where it compresses, and the engine that verifies it is free (R48, R60, R61, R63). -/
def refetchReady (s : State) (b : Band) (blocks : List Nat) : Bool :=
  !blocks.isEmpty && !fnDisabled s b.fn && bulkRoom s b.fn != 0 && engineFree s (engineOf b.ch b.plane) &&
  (!b.recomp || b.storedRaw || (upto 2).any (fun d => (mfind s.intake.deflate d).isNone))

/-- A refetch attempt ends (R61): the whole source has been read, or a read of it has failed. -/
def refetchEnd (s : State) (h : Nat) (reply : HostReply) : State :=
  match bandOf s h with
  | none => s
  | some b =>
    match b.refetch with
    | none => s
    | some r =>
      let blocks := if r.blocks = [] ∧ bandNeed b ≤ freeBlockCount s then takeBlocks s (bandNeed b) else r.blocks
      if r.done || !refetchReady s b blocks then s
      else
        let s := sendReads s b.fn b.src b.clen
        let (code, d, s) := match reply with
          | .failed => (8, (⟨[], 0, false, false⟩ : Stored), s)
          | .data bs => storeSource s b (slice bs 0 b.clen)
        let bytes := match reply with | .data bs => if d.again then slice bs 0 b.clen else d.bytes | .failed => []
        let comp := if d.again then 0 else d.comp
        let s := if code = 0 then blockStore s blocks bytes else s
        let keep := blocks.take (ceilDiv bytes.length 65536)
        let code := if code ≠ 0 then code else if comp = 0 then 0 else (decodeStream s b keep bytes.length comp).code
        if code = 0 then setBand s h { b with refetch := some ⟨keep, r.failures, true, bytes.length, comp⟩ }
        else if getF s SLC.CFG_REFETCH_MAX ≤ r.failures then
          setBand (bandError s h code SLC.ERR_REFETCH_FAIL) h { b with status := .bad, refetch := none }
        else setBand s h { b with refetch := some ⟨blocks, r.failures + 1, false, 0, 0⟩ }

/-- The refetched blocks replace the old ones while no inflation of the band is in progress (R61). -/
def swapBlocks (s : State) (h : Nat) : State :=
  match bandOf s h with
  | none => s
  | some b =>
    match b.refetch with
    | none => s
    | some r =>
      if r.done ∧ !(s.intake.inflations.any (fun i => i.band == h)) then
        let s := setBand s h { b with blocks := r.blocks, stored := r.stored, storedComp := r.comp, refetch := none }
        if b.reported then startRefetch s h else s
      else s

/-! Inflation for printing (R56, R60, R62). -/

/-- The reason of a spoil mark for a band that fails with a code (Table: disposition reasons). -/
def bandReason (code : Nat) : Nat :=
  if code = 3 then 1 else if code = 4 then 2 else if code = 6 then 3 else if code = 5 then 4 else 6

/-- A print-time inflation meets a fault: the error is recorded, frames are marked and the band is refetched (R60, R62). In a
pair only a CRC failure marks (R305). -/
def inflateFault (s : State) (key h code : Nat) : State :=
  let s := if code = 7 then bandError s h 7 SLC.ERR_POISON else bandFault s h code (codeFlag code)
  let s :=
    if inPair s ∧ code ≠ 5 then s
    else if code = 7 then markSpoil s key 6
    else markBandFrames s h (bandReason code)
  startRefetch s h

/-- Sets the verdict of a staging (R59). In a pair a unit whose copy falls short for any cause but CRC does not hold the frame
back (R305). -/
def setVerdict (s : State) (key h : Nat) (ok : Bool) : State :=
  match frameAt s key with
  | none => s
  | some f => setFrame s { f with stagings := f.stagings.map (fun t => if t.band = h then { t with verdict := some ok } else t) }

/-- Whether a band line governs a line of its frame that has not entered Sedge; other lines are decoded and discarded. -/
def lineNeeded (s : State) (f : Frame) (t : Staging) (h line : Nat) : Bool :=
  let v := planeV s f t.ch t.plane
  (upto v).any (fun k =>
    let i := t.first + line * v + k
    decide (i < f.lines) && (match governing s f t.ch t.plane i with | some x => x.band == h | none => false))

/-- Whether a poisoned word feeds a line of a band that is stored as it is (R62). -/
def rawLinePoisoned (s : State) (b : Band) (off n : Nat) : Bool :=
  (upto n).any (fun i => poisoned s (blockByte s b.blocks (off + i)) 1)

/-- An inflate engine decodes its next line (R56 to R62). -/
def inflateLine (s : State) (e : Nat) : State :=
  match nextLine s e with
  | none => s
  | some n =>
    let h := n.staging.band
    match bandOf s h with
    | none => s
    | some b =>
      if 8 ≤ (leadOf s e).length ∧ lineNeeded s n.frame n.staging h (inflationOf s n.frame.key h).next then s
      else
        let key := n.frame.key
        let i := inflationOf s key h
        let lb := b.ulen / b.lines
        let last := i.next + 1 == b.lines
        let d := if b.status = .bad then ⟨[], 0, 0⟩ else decodeBand s b
        let zero := b.status == .bad ||
          (if b.storedComp = 0 then rawLinePoisoned s b (i.next * lb) lb else decide (d.good < (i.next + 1) * lb))
        let met := d.code != 0 && i.fault == 0 &&
          (last || (d.code != 5 && (if b.storedComp = 0 then zero else decide (d.good < (i.next + 1) * lb))))
        let line : LeadLine := ⟨key, h, i.next, b.plane, if zero then List.replicate lb 0 else slice d.out (i.next * lb) lb, zero⟩
        let s :=
          if lineNeeded s n.frame n.staging h i.next then
            { s with intake := { s.intake with leads := mput s.intake.leads e (leadOf s e ++ [line]) } }
          else s
        let s := setInflation s key h (some { i with next := i.next + 1, fault := if met then d.code else i.fault })
        let s := if met then inflateFault s key h d.code else s
        let s := if b.status = .bad ∧ !inPair s then markSpoil s key 5 else s
        if last then
          let fault := if met then d.code else i.fault
          setVerdict (setInflation s key h none) key h (fault == 0 && b.status != .bad || inPair s && fault != 5)
        else s

/-! Sluice jobs (R64 to R66). -/

/-- The job a descriptor body describes. -/
def jobOfDesc (o : Op) : Job :=
  let d := o.desc.drop 8
  let w := field d 24 4
  { op := o.key, src := o.addr (field d 0 8), dest := o.addr (field d 8 8), slen := field d 16 4, outmax := field d 20 4,
    kind := bits w 0 2, wrap := bits w 2 2, level := bits w 4 4, dict := bits w 8 4, dicten := bit w 12,
    flushk := bits w 16 8, blocks := [], engine := none, progress := 0, suspended := false, waiting := true }

/-- Whether a job descriptor breaks a field's range (R64, R66). -/
def jobInvalid (s : State) (o : Op) (j : Job) : Bool :=
  let d := o.desc.drop 8
  let w := field d 24 4
  j.slen == 0 || j.outmax == 0 || decide (2 ^ 28 < j.outmax) || j.kind == 3 || decide (2 ≤ j.wrap) ||
  (if j.kind = 1 then j.level == 0 || decide (9 < j.level) else j.level != 0) || bits w 13 3 != 0 || bits w 24 8 != 0 ||
  field d 28 4 != 0 || (j.kind == 2 && decide (32768 < j.slen)) || (j.kind != 2 && !destOpen s j.dest j.outmax)

def setJob (s : State) (j : Job) : State :=
  { s with intake := { s.intake with jobs := s.intake.jobs.filter (fun x => x.op != j.op) ++ [j] } }

def dropJob (s : State) (key : Nat) : State :=
  { s with intake := { s.intake with jobs := s.intake.jobs.filter (fun x => x.op != key) } }

/-- The first engine that may take a job. -/
def engineForJob (s : State) : Option Nat := (upto 16).find? (engineFree s)

/-- An INFLATE job goes to an engine that may take it, or is suspended until one may (R60, R65). -/
def placeJob (s : State) (j : Job) : State :=
  if j.kind = 0 then
    match engineForJob s with
    | some e => setJob s { j with engine := some e, suspended := false }
    | none => setJob s { j with suspended := true }
  else serveDeflate (setJob s j)

/-- A job takes its blocks and starts; whether it has, since they may not be free. -/
def admitJob (s : State) (j : Job) : Bool × State :=
  let n := ceilDiv j.outmax 65536
  if freeBlockCount s < n then (false, s) else (true, placeJob s { j with blocks := takeBlocks s n, waiting := false })

/-- Whether a dictionary slot is busy for a DICT_LOAD (R66). -/
def dictBusy (s : State) (k : Nat) : Bool :=
  dictRefs s k != 0 || dictLoading s k || s.intake.jobs.any (fun j => j.kind != 2 && j.dicten && j.dict == k)

/-- A Sluice job is issued (R64 to R66). -/
def startSluice (s : State) (o : Op) : State :=
  let j := jobOfDesc o
  let fin (code : Nat) : State := completeOp s o.key code 0 0 0
  if !confirmed s then fin 0x0D
  else if !mireLocked s then fin 0x0C
  else if jobInvalid s o j then fin 9
  else if j.kind = 2 then
    (if dictBusy s j.dict then fin 0x0E else setJob (setF s SLC.DICTSTAT_LOADING 1 j.dict) { j with waiting := false })
  else if poolBlocks s < ceilDiv j.outmax 65536 then fin 0x0A
  else
    let wait : State := setJob { s with intake := { s.intake with waiting := s.intake.waiting ++ [o.key] } } j
    if s.intake.waiting ≠ [] then wait else (let r := admitJob s j; if r.1 then r.2 else wait)

/-- What a waiting BLOAD holds is given up: its description, or its entry. -/
def dropWaiting (s : State) (key : Nat) : State :=
  let gone := (s.intake.bands.filter (fun x => x.2.op == some key && x.2.status == .waiting)).map (fun x => x.1)
  forEach gone { s with intake := { s.intake with described := mdel s.intake.described key } } dropBand

/-- The BLOAD or job that has waited longest takes blocks and an entry, or completes with MIRE_FULL (R53). -/
def serveWaiting (s : State) : State :=
  match s.intake.waiting with
  | [] => s
  | k :: rest =>
    let s' : State := { s with intake := { s.intake with waiting := rest } }
    match opOf s k with
    | none => s'
    | some o =>
      let served := match s.intake.jobs.find? (fun j => j.op == k) with
        | some j => admitJob s' j
        | none => admitLoad s' k
      if served.1 then served.2
      else if noRelease s then
        let cookie := if o.sub = 2 then field o.desc 32 8 else 0
        runLedgers (completeOp (dropWaiting (dropJob s' k) k) k 0x0B 0 0 cookie)
      else if o.sub = 2 then takeBandEntry s k
      else s

/-- The output of an INFLATE job, or the code it fails with. -/
def inflateJob (s : State) (j : Job) (data : List Byte) : Nat × List Byte :=
  if j.dicten ∧ !dictValid s j.dict then (6, [])
  else
    let dict := if j.dicten then dictBytes s j.dict else none
    let r := if j.wrap = 0 then inflateRaw (j.outmax + 1) (dictHistory dict) data else inflateZlib (j.outmax + 1) dict data
    if j.outmax < r.out.length then (2, []) else (r.code, if r.code = 0 then r.out else [])

/-- The raw stream of an input with a flush after every `part` bytes that input follows; history is kept across them (R65). -/
def deflateFlushed (part : Nat) : Nat → State → List Byte → List Byte → List Byte × State
  | 0, s, _, _ => ([], s)
  | n + 1, s, history, data =>
    let (p, s) := freeDeflate s
    if part = 0 ∨ data.length ≤ part then (deflateRaw p history data, s)
    else
      let (rest, t) := deflateFlushed part n s (history ++ data.take part) (data.drop part)
      (deflatePart p history (data.take part) ++ rest, t)

/-- The output of a DEFLATE job, or the code it fails with (R65). -/
def deflateJob (s : State) (j : Job) (data : List Byte) : Nat × List Byte × State :=
  if j.dicten ∧ !dictValid s j.dict then (6, [], s)
  else
    let dict := if j.dicten then dictBytes s j.dict else none
    let (raw, s) := deflateFlushed (4096 * j.flushk) (data.length + 1) s (dictHistory dict) data
    let out := if j.wrap = 0 then raw else zlibWrap j.level (dict.map (fun d => d.adler)) data raw
    if j.slen ≤ out.length ∧ j.slen ≤ j.outmax then (1, [], s)
    else if j.outmax < out.length then (2, [], s)
    else if j.slen ≤ out.length then (1, [], s)
    else (0, out, s)

/-- A Sluice job ends as a whole: its output goes to DEST, or its code alone is reported (R65, R66). -/
def endJob (s : State) (o : Op) (j : Job) (data : List Byte) : State :=
  if j.kind = 2 then
    let s := putBytes (clearPoison s (dictAddr s j.dict) 32768) (dictAddr s j.dict) data
    let s := setF (setF (setF s SLC.DICTSTAT_LEN data.length j.dict) SLC.DICTSTAT_VALID 1 j.dict) SLC.DICTSTAT_LOADING 0 j.dict
    let s := setF s SLC.DICTADLER (adler32 data) j.dict
    completeOp (dropJob s o.key) o.key 0 0 data.length (crc32c data + 2 ^ 32 * (if j.wrap = 1 then adler32 data else 0))
  else
    let (code, out, s) := if j.kind = 0 then (let r := inflateJob s j data; (r.1, r.2, s)) else deflateJob s j data
    let s := dropJob s o.key
    if code ≠ 0 then completeOp s o.key code 0 0 0
    else
      let plain := if j.kind = 0 then out else data
      let s := engineStore s o.hostfn o.hwin j.dest out
      completeOp s o.key 0 0 out.length (crc32c plain + 2 ^ 32 * (if j.wrap = 1 then adler32 plain else 0))

/-- A DICT_LOAD has ended: the BLOADs that waited for its slot go on (R66). -/
def dictServed (s : State) (k : Nat) : State :=
  forEach ((s.intake.bands.filter (fun e => e.2.dicten && e.2.dict == k && e.2.status == .reading && e.2.todo.isEmpty &&
    e.2.outstanding.isEmpty && e.2.buffer.isEmpty)).map (fun e => e.1)) s beginReads

/-- Whether a job's engine has it: an inflate engine that is not suspended, a deflate engine, or none for a DICT_LOAD. -/
def jobRuns (s : State) (j : Job) : Bool :=
  if j.kind = 0 then j.engine.isSome && !j.suspended else if j.kind = 1 then deflating s (.job j.op) else true

/-- A Sluice job's engine finishes. A job whose slot is LOADING waits, and one without an engine too. -/
def completeJob (s : State) (key : Nat) (reply : HostReply) : State :=
  match s.intake.jobs.find? (fun j => j.op == key), opOf s key with
  | some j, some o =>
    if j.waiting ∨ (j.kind ≠ 2 ∧ j.dicten ∧ dictLoading s j.dict) ∨ !jobRuns s j ∨ (2 ^ 47 ≤ j.src ∧ bulkRoom s o.hostfn = 0) then s
    else match engineRead s o.hostfn o.hwin j.src j.slen reply with
      | (.waits, _) => s
      | (.bytes data, s) => issueAllReads (serveDeflate (if j.kind = 2 then dictServed (endJob s o j data) j.dict else endJob s o j data))
      | (.poison, s) | (.failed, s) =>
        let code := if poisoned s j.src j.slen then 7 else 8
        let s := serveDeflate (completeOp (dropJob s key) key code 0 0 0)
        if j.kind = 2 then dictServed (setF s SLC.DICTSTAT_LOADING 0 j.dict) j.dict else s
  | _, _ => s

/-- A suspended verification or job of an engine resumes once the engine holds its full lead (R60). -/
def resumeEngine (s : State) (e : Nat) : State :=
  if !engineFree s e then s
  else match s.intake.bands.find? (fun x => x.2.status == .verifying && engineOf x.2.ch x.2.plane == e) with
    | some x => setBand s x.1 { x.2 with suspended := false }
    | none => match s.intake.jobs.find? (fun j => j.kind == 0 && j.suspended && (j.engine == none || j.engine == some e)) with
      | some j => setJob s { j with engine := some e, suspended := false }
      | none => s

/-! The region lock (R49 to R51). -/

/-- Minimum size of a Mire region, in 2 MiB units (Table: Mire regions). -/
def regionMin (s : State) (k : Nat) : Nat :=
  if k = 4 then (if throughput s then 0 else 128) else nth [32, 128, 128, 32, 0, 1, 7, 1, 0] k

def mireSize (s : State) (k : Nat) : Nat := getF s SLC.MIRESIZE_SIZE k
def mireEnd (s : State) (k : Nat) : Nat := getF s SLC.MIREBASE_BASE k + mireSize s k

/-- The channels on which part of a region lies: those of each set it meets (R318). -/
def regionChannels (s : State) (k : Nat) : List Nat :=
  (upto 4).flatMap (fun j =>
    if decide (getF s SLC.MIREBASE_BASE k < (setBase s j + setGib s j) * 512) && decide (setBase s j * 512 < mireEnd s k)
    then setChannels s j else [])

/-- The first failure of a lock, CODE and INDEX (Table: SLC.MIRECTL.CODE encoding). -/
def mireCheck (s : State) : Nat × Nat :=
  let present (k : Nat) : Bool := mireSize s k != 0
  let limit := Nat.min (sdramTop s / 2 ^ 21) (512 * 512)
  if getF s MEM.CAP_GIB = 0 then (1, 0)
  else match (upto 16).find? (fun k => if 9 ≤ k then present k else present k && decide (limit < mireEnd s k)) with
    | some k => (2, k)
    | none => match (upto 9).find? (fun k => decide (mireSize s k < regionMin s k)) with
      | some k => (3, k)
      | none => match (upto 9).find? (fun k => present k && (upto k).any (fun j => present j &&
            decide (getF s SLC.MIREBASE_BASE k < mireEnd s j) && decide (getF s SLC.MIREBASE_BASE j < mireEnd s k))) with
        | some k => (4, k)
        | none =>
          if (regionChannels s 1).any (fun m => (regionChannels s 2).contains m) then (5, 1)
          else match s.ledger.mossHeld, s.ledger.mossBases with
            | true, some (a, b) =>
              if getF s SLC.MIREBASE_BASE 1 ≠ a then (6, 1) else if getF s SLC.MIREBASE_BASE 2 ≠ b then (6, 2) else (0, 0)
            | _, _ => (0, 0)

/-- A write of LOCK and UNLOCK to SLC.MIRECTL (R50, R51). -/
def mireUnlockOk (s : State) : Bool :=
  (upto 4).all (fun g => !groupOn s g) && s.ledger.frames.all (fun e => e.2.released) && s.intake.bands.isEmpty &&
  s.intake.jobs.isEmpty

def mireWrite (s : State) (lock unlock : Bool) : State :=
  if lock && unlock then setF s SLC.MIRECTL_UNLOCK_REF 1
  else if lock then
    (if mireLocked s || s.intake.locking then s else { s with intake := { s.intake with locking := true } })
  else if unlock then
    (if mireUnlockOk s then (if s.intake.locking then s else setF s SLC.MIRECTL_STATE 0) else setF s SLC.MIRECTL_UNLOCK_REF 1)
  else s

/-- The region check ends (R50): a lock that passes gives the ring bases to Moss. -/
def lockEnd (s : State) : State :=
  if !s.intake.locking then s
  else
    let r := mireCheck s
    let s := setF (setF { s with intake := { s.intake with locking := false } } SLC.MIRECTL_CODE r.1) SLC.MIRECTL_INDEX r.2
    if r.1 = 0 then
      let s := setF s SLC.MIRECTL_STATE 1
      { s with ledger := { s.ledger with mossBases := some (getF s SLC.MIREBASE_BASE 1, getF s SLC.MIREBASE_BASE 2), mossHeld := false } }
    else setF s SLC.MIRECTL_STATE 2

/-! SLC registers that are computed when read. -/

/-- SLC.IENG of an engine: what it prints, or while its lead is full the verification or job it runs. -/
def iengValue (s : State) (e : Nat) : Nat :=
  let lead := (leadOf s e).length
  let shown := 2 ^ 29 * Nat.min 7 lead
  let printing := if lead < 8 then nextLine s e else none
  let verifying := s.intake.bands.find? (fun x => x.2.status == .verifying && !x.2.suspended && engineOf x.2.ch x.2.plane == e)
  match printing, verifying with
  | some n, _ =>
    1 + 2 * n.staging.plane + 16 * n.staging.band + 2 ^ 17 * ((inflationOf s n.frame.key n.staging.band).next % 4096) + shown
  | none, some x => 1 + 2 * x.2.plane + 8 + 16 * x.1 + 2 ^ 17 * (x.2.verified / Nat.max 1 (x.2.ulen / x.2.lines) % 4096) + shown
  | none, none => if engineWorks s e then 1 + 8 + shown else shown

/-- SLC.DENG of an engine: KIND and LEVEL of its work. -/
def dengValue (s : State) (d : Nat) : Nat :=
  match mfind s.intake.deflate d with
  | some (.band h) => 1 + 4 * (match bandOf s h with | some b => b.level | none => 0)
  | some (.job k) => 1 + 2 + 4 * (match s.intake.jobs.find? (fun j => j.op == k) with | some j => j.level | none => 0)
  | none => 0

/-- SLC.BANDS.WAITING: a BLOAD waits under R53; a waiting Sluice job does not show. -/
def loadsWait (s : State) : Bool := s.intake.waiting.any (fun k => !s.intake.jobs.any (fun j => j.op == k))

end Sys2Proof.Machine
end

