-- ==== Sys2Proof/Machine/Changes.lean ====
section
/-!
DEFINITION. The stated-line changes MAPSET and SCRSEL, in a single unit and in a pair (R102 to R106, R85, R238, R239, R303, R304).
-/

namespace Sys2Proof.Machine

/-! MAPSET (R238, R103). -/

/-- The update a MAPSET descriptor asks for, from a source. -/
def updateOfDesc (d : List Byte) (source : Nat) (op : Option Nat) : Update :=
  let w := field d 16 8
  { ge := field d 0 8, a := bits (field d 8 4) 0 23, n := field d 12 2,
    state := if bit w 5 then some (bits w 0 2) else none, gclass := if bit w 6 then some (bits w 2 2) else none,
    lock := if bit w 7 then some (bits w 4 1) else none, source := source, skipped := [], poisonedNoz := [], op := op }

/-- GE of a descriptor that asks for AUTO. -/
def geAuto : Nat := 0xFFFFFFFFFFFFFFFF

/-- Whether a MAPSET descriptor breaks R238. -/
def mapsetInvalid (d : List Byte) (source : Nat) : Bool :=
  let w := field d 16 8
  bits (field d 8 4) 23 9 != 0 || field d 14 2 != 0 || decide (256 ≤ w) || bits w 5 3 == 0 || (source == 1 && bit w 7)

/-- Whether an issuer may change the rows of a run (Table: issuer rights). -/
def mapsetDenied (s : State) (fn a : Nat) : Bool :=
  let r := a / rowWidth
  if 1 ≤ fn ∧ fn ≤ 4 then
    !(groupOn s (fn - 1)) || decide (128 ≤ r) || !(groupChannels s (fn - 1)).contains (rowChannel s r)
  else !(fn == 0 || fn == 5 || fn == 8)

/-- The runs of an update that are not skipped: first nozzle and length. -/
def keptRuns (u : Update) : List (Nat × Nat) :=
  (fromTo u.a (u.a + u.n - 1)).foldr (fun a l =>
    if u.skipped.contains a then l
    else match l with
      | (b, n) :: r => if b = a + 1 then (a, n + 1) :: r else (a, 1) :: l
      | [] => [(a, 1)]) []

/-- The descriptor of a run of an update, with its Ge in force. -/
def updateDesc (u : Update) (a n : Nat) : List Byte :=
  let part (v : Option Nat) (lo en : Nat) : Nat := match v with | some x => 2 ^ lo * x + 2 ^ en | none => 0
  toBytes 8 u.ge ++ toBytes 4 a ++ toBytes 4 n ++ toBytes 8 (part u.state 0 5 + part u.gclass 2 6 + part u.lock 4 7)

/-- The active sends an accepted update to the standby (R303, R304). -/
def sendUpdate (s : State) (key : TwinKey) (u : Update) : State :=
  if isActive s then forEach (keptRuns u) s (fun s r => twinSend s (.change key (updateDesc u r.1 r.2) u.ge)) else s

/-- Checks and performs an update: its code, and the update as accepted (R103, R104). -/
def decideUpdate (s : State) (key : TwinKey) (u : Update) : Nat × Update × State :=
  let auto := u.ge == geAuto
  let code := updateCheck s u auto
  if code ≠ 0 then (code, u, s)
  else
    let (v, s) := acceptUpdate s u auto
    if v.skipped.length = v.n then (0x20, v, s) else (0, v, sendUpdate s key v)

/-- Completes a MAPSET; one with Ge 0 that a reload holds completes when it applies (R107). -/
def finishMapset (s : State) (o : Op) : State :=
  let source := if o.pool = 0 then 0 else if 9 ≤ o.pool ∧ o.pool ≤ 12 then 1 else 0
  let u := updateOfDesc o.desc source (some o.key)
  let (code, v, s) := decideUpdate s o.twinKey u
  if code ≠ 0 then completeOp s o.key code 0 (if code = 0x20 then v.skipped.length else 0) 0
  else if s.print.afterReload.any (fun x => x.op == some o.key) then s
  else completeOp s o.key 0 0 v.skipped.length v.ge

/-- A standby's change awaits the active's RESULT, or takes the one that has come (R303). -/
def awaitDecision (s : State) (o : Op) : State :=
  match resultFor s o with
  | some r => completeWith (dropResult s o) o.key r.1 r.2
  | none => setTwin s { s.twin with awaiting := s.twin.awaiting ++ [⟨o.twinKey, o.key, s.frc⟩] }

/-- A MAPSET is issued (R238). A Reed core's on a standby goes to the active as a REQUEST (R303). -/
def startMapset (s : State) (o : Op) : State :=
  let source := if 9 ≤ o.pool ∧ o.pool ≤ 12 then 1 else 0
  if mapsetInvalid o.desc source then completeOp s o.key 9 0 0 0
  else if isStandby s then
    (if o.pool = 0 then awaitDecision s o else twinSend (awaitDecision s o) (.request o.twinKey o.desc))
  else finishMapset s o

/-! SCRSEL (R239, R85). -/

/-- The bank selection a descriptor asks for; none where its frame's G0 is not fixed. -/
def selectOfDesc (s : State) (d : List Byte) : Option Select :=
  let w := field d 16 8
  let g := bits w 0 2
  let q (ge : Nat) : Select := ⟨g, bits w 8 8, bits w 3 1, bit w 4, bits w 5 1, ge⟩
  if bit w 2 then
    match frameOf s g (field d 8 8) with
    | some f => if f.state = 3 ∨ f.state = 4 ∨ f.state = 5 then f.g0.map (fun g0 => q (g0 + field d 0 8)) else none
    | none => none
  else some (q (field d 0 8))

/-- Whether an SCRSEL descriptor breaks R239. -/
def selectInvalid (d : List Byte) : Bool :=
  let w := field d 16 8
  bits w 6 2 != 0 || decide (65536 ≤ w) || (!bit w 2 && field d 8 8 != 0) || (bits w 8 8 == 0 && !bit w 4)

/-- The descriptor of an accepted selection in FORM 0. -/
def selectDesc (q : Select) : List Byte :=
  toBytes 8 q.ge ++ toBytes 8 0 ++ toBytes 8 (q.group + 8 * q.bank + 16 * bnat q.limiter + 32 * q.lbank + 256 * q.chmask)

/-- Checks and performs an SCRSEL. -/
def finishSelect (s : State) (o : Op) : State :=
  match selectOfDesc s o.desc with
  | none => completeOp s o.key 0x12 0 0 0
  | some q =>
    let code := selectCheck s q
    if code ≠ 0 then completeOp (selectRefuse s q code) o.key code 0 0 0
    else
      let s := selectApply s q
      let s := if isActive s then twinSend s (.change o.twinKey (selectDesc q) q.ge) else s
      completeOp s o.key 0 0 0 q.ge

/-- An SCRSEL is issued (R239). -/
def startSelect (s : State) (o : Op) : State :=
  if selectInvalid o.desc then completeOp s o.key 9 0 0 0
  else if isStandby s && o.matched then awaitDecision s o
  else finishSelect s o

end Sys2Proof.Machine
end

