-- ==== Sys2Proof/Machine/Claims.lean ====
section
/-!
DEFINITION. Claims and roles in a pair, divergence, and the reports of a hub (R147 to R149, R298 to R301, R309, R310).
-/

namespace Sys2Proof.Machine

/-! Live values of the twin registers (Table: TWN.STAT, Table: TWN.HBAGE). -/

/-- µs since an FRC value, saturating; 0xFFFF where there is none. The FRC counts 1,250 in a µs. -/
def ageUs (s : State) (at_ : Option Nat) (top : Nat) : Nat :=
  match at_ with
  | some f => Nat.min top ((s.frc - f) / 1250)
  | none => top

/-- Whether a path has been silent for a number of µs. -/
def silentFor (s : State) (at_ : Option Nat) (us : Nat) : Bool :=
  match at_ with
  | some f => decide (1250 * us ≤ s.frc - f)
  | none => true

def twinEnabled (s : State) : Bool := flag s GLB.STRAPS_TWIN_EN
def unitId (s : State) : Nat := getF s GLB.STRAPS_UNIT_ID
def preference (s : State) : Nat := getF s GLB.STRAPS_PREFERRED

def hbAge (s : State) : Nat := ageUs s s.twin.linkAt 0xFFFF + 65536 * ageUs s s.twin.backupAt 0xFFFF

/-- The value of TWN.STAT. -/
def twinStat (s : State) : Nat :=
  twinState s + 8 * getF s TWN.STAT_CODE + 128 * bnat (!silentFor s s.twin.linkAt 400) +
  256 * bnat (!silentFor s s.twin.backupAt 400) + 512 * unitId s + 1024 * preference s + 2048 * bnat (twinEnabled s)

/-! Claims (R149, R299, R300). -/

/-- Gives the unit a claim: its epoch, kept in Moss, and a preference. -/
def setClaim (s : State) (epoch pref : Nat) : State :=
  setTwin (setF s TWN.CLAIM (16 * epoch + pref)) { s.twin with epoch := epoch }

/-- Sends a CLAIM frame on each lane to each hub (R149). -/
def claimSend (s : State) : State :=
  forEach ((upto (hubLimit s)).filter (fun h => flag s DLK.HUBCTL_EN h)) s (fun s h =>
    forEach ((hubPositions s h).filter (fun p => flag s LAN.LCFG_EN (hubLane s h p) && laneSends s (hubLane s h p))) s (fun s p =>
      sendLink s (hubLane s h p) p ⟨5, h, 0, 0, ownClaim s, 0, 0, 0, 0, 0, false, false, 0, 0⟩
        (toBytes 8 (unitId s + 2 * preference s))))

/-- Takes another claim, and sends it at once where it is a change (R149). -/
def takeClaim (s : State) (epoch pref : Nat) : State :=
  let t := setClaim s epoch pref
  if ownClaim t = ownClaim s then t else claimSend t

/-- Hubs enabled, and those whose last ACK came within 1 ms. -/
def quorumHubs (s : State) : List Nat := (upto 40).filter (fun h => flag s DLK.HUBCTL_EN h)
def quorum (s : State) : Bool :=
  decide ((quorumHubs s).length < 2 * ((quorumHubs s).filter (fun h => !silentFor s (hubOf s h).ackFrc 1000)).length)

/-- Whether the quorum is waived: at pairing while no hub is in CONFIG or UP (R300). -/
def quorumWaived (s : State) : Bool := (upto 40).all (fun h => decide (hubState s h < 2))

/-- The highest epoch seen: the unit's, its partner's, and any hub's. -/
def topEpoch (s : State) : Nat :=
  ((upto 40).map (fun h => getF s DLK.HUBCLAIM h / 16)).foldl Nat.max (Nat.max (ownClaim s / 16) (getF s TWN.PCLAIM / 16))

/-- Raises the epoch where the quorum holds; otherwise the raise is refused and retried (R300). -/
def raiseClaim (s : State) (waived : Bool) : State :=
  if waived || quorum s then
    let old := ownClaim s
    let s := setClaim s (topEpoch s + 1) (preference s)
    let s := setTwin s { s.twin with raisePending := false }
    let s := raiseEvent (incF s TWN.CNT 4) 0 0x0203 old (ownClaim s)
    claimSend s
  else setTwin (setF (incF s TWN.CNT 5) TWN.ERR_QUORUM 1) { s.twin with raisePending := true }

/-- Steps down on reading a higher claim (R301). -/
def stepDown (s : State) (claim : Nat) : State :=
  let s := raiseEvent (setF (incF s TWN.CNT 3) TWN.ERR_STEPDOWN 1) 0 0x0204 (ownClaim s) claim
  setF s TWN.STAT_STATE 4

/-- Whether the unit decides: active, lone, or still looking for a partner. -/
def decides (s : State) : Bool := twinState s == 3 || twinState s == 5

/-- A claim read in a hub ACK (R300, R301). -/
def hubClaimSeen (s : State) (claim : Nat) : State :=
  if claim ≤ ownClaim s then s
  else if !decides s then s
  else if ownClaim s / 16 < claim / 16 then raiseClaim s false
  else stepDown s claim

/-- A claim read in the partner's heartbeat (R299, R301). A standby takes the epoch of its active (R311). -/
def partnerClaimSeen (s : State) (claim : Nat) : State :=
  let s := setF s TWN.PCLAIM claim
  if ownClaim s < claim ∧ decides s then stepDown s claim
  else if twinState s = 4 ∧ ownClaim s / 16 < claim / 16 then
    (if preference s = 0 then takeClaim s (claim / 16) 0 else takeClaim s (claim / 16 - 1) 1)
  else s

/-! Divergence (R309, R310). -/

/-- The frame of a CONTENT divergence: the active withdraws it while ARMED, and marks it once FIRING (R309). -/
def divergeFrame (s : State) (f : Frame) : State :=
  if !authority s then s
  else if f.state = 3 then withdraw s f 0x17
  else markSpoil s f.key 0x17

/-- A DIVERGE of the partner. It names a group and no frame, so which of the group's frames ARMED or FIRING differs is open. -/
def takeDiverge (s : State) (cause detail : Nat) : State :=
  let acts : Bool := !s.twin.lost && twinState s == 3 && cause == 3
  let s := diverge s cause detail false
  let fs := (groupFrames s detail).filter (fun f => f.state == 3 || f.state == 4)
  if acts then
    match fs[(free s).1 % fs.length]? with
    | some f => divergeFrame (free s).2 f
    | none => s
  else s

/-! Reports of a hub (R148). -/

/-- Marks the owners of the SEQs a report names (R147), and the prediction blocks of their lines (R169). -/
def markOwners (s : State) (h : Nat) (r : ReportEntry) (reason : Nat) : State :=
  let mine (q : OpenSeq) : Bool := q.stream == streamKey h r.slot && decide (r.seq ≤ q.seq) && decide (q.seq < r.seq + r.count)
  let s := forEach (ownersOf s mine) s (fun s f => forEach (f.openSeqs.filter mine) s (fun s q =>
    markUnsound s f.group (q.trigger - getF s LDE.ROWDLY_LINES q.row)))
  forEach ((ownersOf s mine).map Frame.key) s (fun s k => markSpoil s k reason)

/-- A hub's link state falls back to ALIGN where a lane of its set is locked (R157). -/
def laneLocked (s : State) (l : Nat) : Bool := flag s LAN.LSTAT_LOCK l

def hubAlign (s : State) (h : Nat) : State :=
  if flag s DLK.HUBCTL_EN h && hubState s h == 0 && !(hubOf s h).failed &&
      (hubPositions s h).any (fun p => laneLocked s (hubLane s h p)) then setF s DLK.HUBSTAT_STATE 1 h
  else s

/-- A hub leaves its state for DOWN, and for ALIGN at once where it may (R157). -/
def hubLeaves (s : State) (h : Nat) (failed : Bool) : State := hubAlign (hubDown s h failed) h

/-- Acts on a report entry of an ACK (R148). -/
def takeReport (s : State) (h : Nat) (r : ReportEntry) : State :=
  let own := r.detail / 4 % 2 == unitId s
  let l := hubLane s h (r.detail % 4)
  match r.code with
  | 1 => markOwners (dlkError (hubCount s h 2 r.count) h 1 DLK.ERR_FRAME_LATE) h r 0x0E
  | 2 =>
    let s := dlkError (hubCount s h 3 r.count) h 2 DLK.ERR_DUP_MISMATCH
    let s := raiseEvent s 0 0x0D (h + 65536 * streamKey (h % 32) r.slot) r.seq
    let own (e : Nat × Nat) : Bool := e.1 == streamKey h r.slot && decide (r.seq ≤ e.2) && decide (e.2 < r.seq + r.count)
    if s.dlk.fallbackSeqs.any own then incF s TWN.CNT 1 else diverge s 4 h true
  | 3 => markOwners (dlkError (hubCount s h 4 r.count) h 3 DLK.ERR_ENERGY_REFUSE) h r 0x0F
  | 4 => if own then setLinkLane s l { linkLane s l with lost := true, hubClean := false } else s
  | 5 => if own then setLinkLane s l { linkLane s l with hubClean := true } else s
  | 6 | 7 => s
  | 8 => raiseEvent s 0 0x0E (h + 256 * (r.detail % 128)) (r.detail / 256)
  | 9 => hubLeaves s h false
  | c => dlkError (hubCount s h 5 1) h c DLK.ERR_FORMAT

/-- The reports of an ACK the partner has forwarded: the owners are marked as if it had come here (R305). -/
def takePartnerReport (s : State) (h : Nat) (r : ReportEntry) : State :=
  match r.code with
  | 1 => markOwners s h r 0x0E
  | 3 => markOwners s h r 0x0F
  | _ => s

end Sys2Proof.Machine
end

