-- ==== Sys2Proof/Machine/DlkOps.lean ====
section
/-!
DEFINITION. The Dusiane Link at work: bring-up of hubs, upstream link frames, resends, lanes, time exchange and control operations
(R143 to R157, R236).
-/

namespace Sys2Proof.Machine

/-! PRBS31 (R155): x^31 + x^28 + 1, the newest bit at bit 0 of the state. -/

/-- The next state of a PRBS31 register; the bit it sends is bit 0 of the new state. -/
def prbsNext (st : Nat) : Nat := (2 * st + nxor (bits st 30 1) (bits st 27 1)) % 2 ^ 31

/-- `n` bits of the sequence from a state, first bit first, with the state after them. -/
def prbsBits : Nat → Nat → List Bool → List Bool × Nat
  | 0, st, acc => (acc.reverse, st)
  | n + 1, st, acc => prbsBits n (prbsNext st) (bit (prbsNext st) 0 :: acc)

/-- Bytes of a bit string, least significant bit first. -/
def bitBytes (bs : List Bool) (n : Nat) : List Byte :=
  (upto n).map (fun i => BitVec.ofNat 8 (((upto 8).map (fun j => 2 ^ j * bnat (bs.getD (8 * i + j) false))).foldl (· + ·) 0))

/-- The 64-byte payload of a SYNC-IDLE from a state, and the state after it. -/
def prbsPayload (st : Nat) : List Byte × Nat :=
  let r := prbsBits 512 st []
  (bitBytes r.1 64, r.2)

/-- The state that a received payload leaves. -/
def prbsAfter (bs : List Byte) : Nat :=
  ((upto 31).map (fun i => 2 ^ (30 - i) * bnat (bit ((bs.getD ((481 + i) / 8) 0 : Byte)).toNat ((481 + i) % 8)))).foldl (· + ·) 0

/-! Lanes of enabled hubs. -/

/-- The hubs a lane serves, in enabled sets. -/
def laneHubs (s : State) (l : Nat) : List (Nat × Nat) := hubsOfLane s l

/-- Whether a unit sends CTRL frames (R301, R311, R236). -/
def sendsCtrl (s : State) : Bool := !(twinState s == 4 || twinState s == 2 || twinState s == 6)

/-- Whether a lane has been clean for 1 ms (R155). -/
def laneClean (s : State) (l : Nat) : Bool :=
  laneLocked s l && (match (linkLane s l).cleanFrom with | some f => decide (1250000 ≤ s.frc - f) | none => false)

/-! Bring-up (R152, R153, R157). -/

def clampTper (n : Nat) : Nat := Nat.min 1000 (Nat.max 1 n)

/-- Parameters of HUB_CONFIG, HEAD_MAP, ENERGY_TABLE and STREAM_SET (Table: CTRL parameters). -/
def hubConfigParams (s : State) (h : Nat) : List Byte :=
  toBytes 8 (unitId s + 2 * getF s DLK.HUBCTL_NLANES h + 256 * clampTper (getF s DLK.HUBCTL_TPER h))

def headMapParams (s : State) (h : Nat) : List Byte :=
  let hs := (hubHeads s h).map (fun e => e.2)
  toBytes 4 hs.length ++ hs.flatMap (fun e =>
    toBytes 4 (e.slot + 65536 * e.len) ++ toBytes 4 e.dgroup ++ toBytes 4 (getF s LDE.ROWDLY_LINES e.row))

def energyParams (s : State) (h : Nat) : List Byte :=
  let hs := hubHeads s h
  let gs := (hs.map (fun e => e.2.dgroup)).dedup
  toBytes 4 (hs.length + 256 * gs.length) ++
  hs.flatMap (fun e => toBytes 2 e.2.slot ++ (fromTo 1 7).flatMap (fun v => toBytes 2 (coef s e.1 v))) ++
  gs.flatMap (fun d => toBytes 4 d ++ toBytes 4 (ceilOf s d) ++ toBytes 4 (wceilOf s d))

def streamSetParams (s : State) (h : Nat) : List Byte :=
  let hs := (hubHeads s h).map (fun e => e.2)
  toBytes 4 hs.length ++ hs.flatMap (fun e => toBytes 2 e.slot ++ toBytes 6 (streamOf s (streamKey h e.slot)).next)

/-- Builds the control operation of a bring-up step, 1 IDENTIFY to 5 STREAM_SET. STREAM_SET sets HELD and DONE, and a stream that
has run out of SEQs begins at 1 again while no group with heads on the hub is ARMED or FIRING (R139). -/
def sendStep (s : State) (h step : Nat) : State :=
  match step with
  | 1 => buildCtrl s h 0 1 0 [] none 0 0
  | 2 => buildCtrl s h 0 2 0 (hubConfigParams s h) none 0 0
  | 3 => buildCtrl s h 0 3 0 (headMapParams s h) none 0 0
  | 4 => buildCtrl s h 0 4 0 (energyParams s h) none 0 0
  | _ =>
    let s := forEach (hubHeads s h) s (fun s e =>
      let k := streamKey h e.2.slot
      let st := streamOf s k
      let busy : Bool := (upto 4).any (fun g => groupPrinting s g && (groupHubs s g).contains h)
      let n := if 2 ^ 48 ≤ st.next ∧ !busy then 1 else st.next
      setStream s k ⟨n, n - 1, n - 1⟩)
    buildCtrl s h 0 5 0 (streamSetParams s h) none 0 0

/-- A hub in CONFIG becomes UP once its control sequence is answered, or its partner's HUBPOINT shows it UP where this unit sends no
CTRL, and its TIME exchange is done (R157, R311). -/
def hubCheckUp (s : State) (h : Nat) : State :=
  let u := hubOf s h
  if hubState s h == 2 && u.timed && u.told && (u.step == 5 || (!sendsCtrl s && u.partnerFrc.isSome)) then
    setF s DLK.HUBSTAT_STATE 3 h
  else s

/-- A hub in ALIGN with a lane clean for 1 ms goes to CONFIG, and its control stream begins afresh (R152, R157). -/
def hubConfigStart (s : State) (h : Nat) : State :=
  let ps := (hubPositions s h).filter (fun p => laneClean s (hubLane s h p))
  if hubState s h == 1 && !ps.isEmpty then
    let s := setF s DLK.HUBSTAT_STATE 2 h
    let s := forEach ps s (fun s p =>
      let l := hubLane s h p
      setLinkLane (setFlagBit s DLK.HUBSTAT_LANEUP p true h) l { linkLane s l with lost := false })
    let s := setHub s h { hubOf s h with
      ctrlSeq := 0, ctrlHeld := 0, step := 0, timed := false, told := false, upFrc := some s.frc, configFrc := some s.frc,
      waiting := (hubOf s h).waiting.filter (fun c => c.key.isSome) }
    let s := { s with dlk := { s.dlk with replay := s.dlk.replay.filter (fun f => !(f.inStream true h 0)) } }
    if sendsCtrl s then sendStep s h 1 else s
  else s

/-- A write of EN (R157). -/
def hubEnable (s : State) (h : Nat) (on : Bool) : State :=
  if on then
    (if flag s DLK.HUBCTL_EN h then s
     else hubAlign (setHub (setF s DLK.HUBCTL_EN 1 h) h { hubOf s h with failed := false }) h)
  else if flag s DLK.HUBCTL_EN h then setF (hubDown s h false) DLK.HUBCTL_EN 0 h
  else s

/-- A write of 1 to RESTART (R157). -/
def hubRestart (s : State) (h : Nat) : State := if flag s DLK.HUBCTL_EN h then hubLeaves s h false else s

/-- The DOWNTO silence (R157). -/
def hubSilence (s : State) (h : Nat) : State :=
  if 2 ≤ hubState s h ∧ silentFor s (hubOf s h).upFrc (100 * Nat.max 1 (getF s DLK.CFG_DOWNTO)) then hubLeaves s h false else s

/-- An upstream frame of a hub has come. -/
def heardFrom (s : State) (h : Nat) : State := setHub s h { hubOf s h with upFrc := some s.frc }

/-- Whether a lane carries an enabled hub's frames. -/
def fromHub (s : State) (l h : Nat) : Bool := (laneHubs s l).any (fun e => e.1 == h)

/-! ACK and NAK (R144 to R147). -/

/-- Entries of an ACK payload. -/
def ackPoints (p : List Byte) : List PointEntry :=
  (upto (field p 8 1)).map (fun i =>
    let a := field p (16 + 16 * i) 8
    ⟨a % 128, bit a 12, a / 65536, field p (24 + 16 * i) 6⟩)

def ackReports (p : List Byte) : List ReportEntry :=
  (upto (field p 9 1)).map (fun i =>
    let o := 16 + 16 * field p 8 1 + 16 * i
    ⟨field p o 1, field p (o + 2) 2 % 128, field p (o + 4) 6, field p (o + 10) 4, field p (o + 14) 2⟩)

/-- Takes one stream entry of an ACK. -/
def takeEntry (s : State) (h : Nat) (e : PointEntry) : State :=
  if e.ctrl then
    let s := setHub s h { hubOf s h with ctrlHeld := Nat.max (hubOf s h).ctrlHeld e.held }
    { s with dlk := { s.dlk with replay := s.dlk.replay.filter (fun f => !(f.inStream true h 0 && decide (f.seq ≤ e.held))) } }
  else takePoint s (streamKey h e.slot) e.held e.done

/-- An ACK (R147): its FIRED time, its claim, its reports, then its points; in a pair it is forwarded as a HUBPOINT (R305). Lodes that
have waited for room in replay go on (R146). -/
def takeAck (s : State) (l h claim : Nat) (payload : List Byte) : State :=
  if !fromHub s l h || hubState s h == 0 then s
  else
    let full := replayFull s
    let s := setHub s h { hubOf s h with
      ackFrc := some s.frc, upFrc := some s.frc, resendFrc := none, fired := Nat.max (hubOf s h).fired (field payload 0 8) }
    let s := setF (setF s DLK.HUBCLAIM claim h) DLK.HUBSTAT_SILENT 0 h
    let s := hubClaimSeen s claim
    let pts := ackPoints payload
    let rs := ackReports payload
    let s := if inPair s then twinSend s (.hubpoint h (pts.filter (fun e => !e.ctrl)) rs) else s
    let s := forEach rs s (fun s r => takeReport s h r)
    let s := forEach pts s (fun s e => takeEntry s h e)
    if full && !replayFull s then forEach (upto 4) s stampReady else s

/-- A NAK (R146). -/
def takeNak (s : State) (l h : Nat) (payload : List Byte) : State :=
  if !fromHub s l h || hubState s h == 0 then s
  else
    let n := field payload 0 1
    let s := hubCount (heardFrom s h) h 0 n
    forEach (upto n) s (fun s i =>
      let a := field payload (8 + 16 * i) 8
      let ctrl := bit a 12
      let first := a / 65536
      let run := field payload (16 + 16 * i) 2
      let held := if ctrl then (hubOf s h).ctrlHeld else (streamOf s (streamKey h (a % 128))).held
      if first ≤ held then dlkError s h 0 DLK.ERR_NAK_STALE
      else resend s (fun f => f.inStream ctrl h (a % 128) && decide (first ≤ f.seq) && decide (f.seq < first + run)) h)

/-- ACKTO has run out with frames outstanding (R146). -/
def ackTimeout (s : State) (h : Nat) : State :=
  let us := Nat.max 20 (getF s DLK.CFG_ACKTO)
  let u := hubOf s h
  let out := s.dlk.replay.any (fun f => f.hub == h && f.sent)
  if 2 ≤ hubState s h ∧ out ∧ silentFor s u.ackFrc us ∧ silentFor s u.configFrc us ∧ silentFor s u.resendFrc us then
    let s := setHub (setF s DLK.HUBSTAT_SILENT 1 h) h { u with resendFrc := some s.frc }
    resend s (fun _ => true) h
  else s

/-- Link frames of a lane are discarded (R132, R135). -/
def discardFrames (s : State) (l n : Nat) : State :=
  if n = 0 then s else forEach ((laneHubs s l).map (fun e => e.1)) s (fun s h => dlkError (hubCount s h 5 n) h 0 DLK.ERR_FORMAT)

/-- Blocks received on a lane after 58 given bits: what they hold that is no good link frame is discarded and counted, and a control
block of another type outside a frame is a block error of the lane (R131, R132). -/
def takeLinkBlocks (s : State) (l : Nat) (before : BitVec 58) (blocks : List LinkBlock) : State :=
  let n := receiveBlocks none (descramble before.toNat blocks)
  addF (discardFrames s l n.1) LAN.BLKERR n.2 l

/-! SYNC-IDLE and lanes (R155, R156). -/

/-- Sends a SYNC-IDLE on a lane. -/
def syncIdleSend (s : State) (l : Nat) : State :=
  match laneHubs s l with
  | [] => s
  | (h, p) :: _ =>
    if !laneSends s l then s
    else
    let ln := linkLane s l
    let r := prbsPayload ln.prbsOut
    let s := setLinkLane s l { ln with syncSeq := ln.syncSeq + 1, prbsOut := r.2 }
    sendLink s l p ⟨0, h, 0, ln.syncSeq + 1, ownClaim s, 0, 0, 0, 0, 0, false, false, 0, 0⟩ r.1

/-- A SYNC-IDLE received: its CRC and its PRBS decide whether the lane is clean. -/
def syncIdleTake (s : State) (l h : Nat) (crcOk : Bool) (payload : List Byte) : State :=
  if !fromHub s l h then s
  else
    let ln := linkLane s l
    if !crcOk then discardFrames (setLinkLane s l { ln with cleanFrom := none }) l 1
    else
      let s := heardFrom s h
      let good := match ln.prbsIn with
        | none => true
        | some st => (prbsPayload st).1 == slice payload 0 64
      let next := match ln.prbsIn with
        | some st => if good then (prbsPayload st).2 else prbsAfter payload
        | none => prbsAfter payload
      setLinkLane s l { ln with
        prbsIn := some next
        cleanFrom := if good && laneLocked s l then some (ln.cleanFrom.getD s.frc) else none }

/-- A lane loses lock: its removal is due, and a hub with no lane locked goes DOWN (R156, R157). -/
def linkLaneLost (s : State) (l : Nat) : State :=
  let s := setLinkLane s l { linkLane s l with lost := true, cleanFrom := none, prbsIn := none, hubClean := false }
  forEach ((laneHubs s l).map (fun e => e.1)) s (fun s h =>
    if hubState s h ≠ 0 ∧ !(hubPositions s h).any (fun p => laneLocked s (hubLane s h p)) then hubDown s h false else s)

/-- A lane locks: a hub that a CONFIG failure keeps DOWN, or that waits for a lane, enters ALIGN (R157). -/
def linkLaneLocked (s : State) (l : Nat) : State :=
  forEach ((laneHubs s l).map (fun e => e.1)) s (fun s h => hubAlign (setHub s h { hubOf s h with failed := false }) h)

/-- The link manager removes a lane that lost lock (Table: lane removal, steps 2 to 4). -/
def laneRemove (s : State) (h pos : Nat) : State :=
  let l := hubLane s h pos
  if (lanesUp s h).contains pos && (linkLane s l).lost then
    let s := setFlagBit s DLK.HUBSTAT_LANEUP pos false h
    let s := hubCount (dlkError s h 0 DLK.ERR_LANE_DOWN) h 6 1
    let s := raiseEvent s 0 0x0B (l + 256 * h) 0
    checkDegrade (resend s (fun f => f.lane == some pos) h) h
  else s

/-- A lane clean for 1 ms on both sides rejoins (Table: lane removal, step 5). -/
def laneRejoin (s : State) (h pos : Nat) : State :=
  let l := hubLane s h pos
  if 2 ≤ hubState s h && (hubPositions s h).contains pos && !(lanesUp s h).contains pos && laneClean s l && (linkLane s l).hubClean then
    let s := setLinkLane (setFlagBit s DLK.HUBSTAT_LANEUP pos true h) l { linkLane s l with lost := false }
    let s := if (lanesUp s h).length = (hubPositions s h).length then setF s DLK.HUBSTAT_DEGRADED 0 h else s
    refreshLaneRequests s
  else s

/-! Time (R151). -/

/-- D as a TIME frame carries it in 32 bits; what stands there for a delay beyond them is open. -/
def delayField (s : State) (delay : Option Nat) : Nat × State :=
  match delay with
  | some d => if d < 2 ^ 32 then (d, s) else let (n, s) := free s; (n % 2 ^ 32, s)
  | none => (0, s)

/-- A TIME frame goes on each lane of each enabled hub. -/
def timeSend (s : State) : State :=
  forEach ((upto (hubLimit s)).filter (fun h => flag s DLK.HUBCTL_EN h)) s (fun s h =>
    let s := forEach ((hubPositions s h).filter (fun p => laneSends s (hubLane s h p))) s (fun s p =>
      let l := hubLane s h p
      let ln := linkLane s l
      let t1 := work32 s / 65536
      let (d, s) := delayField s ln.delay
      let s := setLinkLane s l { ln with timeSeq := ln.timeSeq + 1, t1 := some t1 }
      let s := sendLink s l p ⟨6, h, 0, ln.timeSeq + 1, ownClaim s, t1, 0, 0, 0, 0, false, false, 0, 0⟩ (toBytes 8 d)
      if hubState s h = 2 ∧ (hubOf s h).timed ∧ ln.delay.isSome then setHub s h { hubOf s h with told := true } else s)
    hubCheckUp s h)

/-- An upstream TIME frame: D = ((t4 − t1) − (t3 − t2)) / 2, and never below 0. -/
def timeTake (s : State) (l h k t3ns t3frac : Nat) (payload : List Byte) : State :=
  if !fromHub s l h then s
  else
    let s := heardFrom s h
    let ln := linkLane s l
    match ln.t1 with
    | none => s
    | some t1 =>
      if ln.timeSeq ≠ k then s
      else
        let t4 : Int := (work32 s / 65536 : Nat)
        let t3 : Int := (65536 * t3ns + t3frac : Nat)
        let t2 : Int := (65536 * field payload 0 8 + field payload 8 2 : Nat)
        let d := (((t4 - t1) - (t3 - t2)) / 2).toNat
        let s := setLinkLane s l { ln with t1 := none, delay := some d }
        let s := setF s DLK.LANEDLY_DELAY (Nat.min (2 ^ 24 - 1) (d / 4096)) l
        if hubState s h = 2 then setHub s h { hubOf s h with timed := true } else s

/-! Control operations (R152, R236). -/

/-- An upstream CTRL answers a control operation. -/
def ctrlTake (s : State) (l h seq : Nat) (payload : List Byte) : State :=
  if !fromHub s l h then s
  else
    let s := heardFrom s h
    let u := hubOf s h
    match u.waiting.find? (fun c => c.seq == seq && c.op == field payload 0 1 && seq != 0) with
    | none => s
    | some c =>
      let st := if 5 < field payload 1 1 then 5 else field payload 1 1
      let u := { u with waiting := u.waiting.filter (fun x => x.seq != seq) }
      let s := setHub s h u
      match c.key with
      | some k =>
        let n := field payload 4 4
        let bs := slice payload 8 (Nat.min n (payload.length - 8))
        (match opOf s k with
         | none => s
         | some o =>
           let s := if c.dest = 0 then s else engineStore s o.hostfn o.hwin c.dest (bs.take c.outmax)
           completeOp s k 0 (bnat (decide (c.outmax < n))) st 0)
      | none =>
        if hubState s h ≠ 2 then s
        else if st ≠ 0 then hubDown s h true
        else
          let s := setHub s h { u with step := u.step + 1 }
          if u.step + 1 < 5 then sendStep s h (u.step + 2) else hubCheckUp s h

/-- A control operation has waited out the response time of R152: 1 ms, or 10 ms for WAVE_WRITE (R236, R157). -/
def ctrlTimeout (s : State) (h seq : Nat) : State :=
  let u := hubOf s h
  match u.waiting.find? (fun c => c.seq == seq) with
  | none => s
  | some c =>
    if s.frc - c.sentFrc < 1250000 * (if c.op = 6 then 10 else 1) then s
    else
      let s := setHub s h { u with waiting := u.waiting.filter (fun x => x != c) }
      match c.key with
      | some k => completeOp s k 0x25 0 0 0
      | none => if hubState s h = 2 then hubDown s h true else s

/-- Where a hub's telemetry report of `n` bytes lies: in the USER region, at an offset that the spec leaves open (R154). -/
def telemetryAt (s : State) (h n : Nat) : Nat := regionBase s 8 + Config.telemetryAddr h % (regionSize s 8 - n + 1)

/-- A telemetry report is written to Mire, where its region holds it (R154). -/
def telemetryTake (s : State) (l h : Nat) (payload : List Byte) : State :=
  if !fromHub s l h then s
  else
    let s := heardFrom s h
    if mireLocked s && decide (payload.length ≤ regionSize s 8) then engineWrite s (telemetryAt s h payload.length) payload else s

/-- Whether a HUBCTRL body breaks R236. -/
def hubctrlInvalid (s : State) (o : Op) : Bool :=
  let d := o.desc.drop 8
  let w := field d 0 4
  bits w 24 8 != 0 || !([1, 6, 7, 8].contains (bits w 16 8)) || decide (8184 < field d 4 4) || field d 28 4 != 0 ||
  (field d 16 8 != 0 && !destOpen s (o.addr (field d 16 8)) (field d 24 4))

/-- A HUBCTRL is issued (R236). The time a WAVE_SWITCH takes effect stands in no field of the descriptor: it is a free value. -/
def startHubctrl (s : State) (o : Op) (reply : HostReply) : State :=
  let d := o.desc.drop 8
  let w := field d 0 4
  let h := bits w 0 6
  let op := bits w 16 8
  let fin (s : State) (code : Nat) : State := completeOp s o.key code 0 0 0
  if hubctrlInvalid s o then fin s 9
  else if !sendsCtrl s then fin s 0x2A
  else if hubLimit s ≤ h ∨ hubState s h < 2 then fin s 0x18
  else
    let (r, s) := if field d 4 4 = 0 then (Fetched.bytes [], s)
      else engineRead s o.hostfn o.hwin (o.addr (field d 8 8)) (field d 4 4) reply
    match r with
    | .poison => fin s 7
    | .failed => fin s 8
    | .waits => setPower s { s.power with deferred := s.power.deferred ++ [(o.key, reply)] }
    | .bytes ps =>
      let s := if (hubOf s h).ctrlSeq = 0 then sendStep s h 1 else s
      let (t, s) := if op = 7 then free s else (0, s)
      buildCtrl s h (bits w 8 7) op t ps (some o.key) (o.addr (field d 16 8)) (field d 24 4)

end Sys2Proof.Machine
end

