-- ==== Sys2Proof/Machine/TwinOps.lean ====
section
/-!
DEFINITION. Twin operation: pairing and joining, the messages of the partner and what they do, heartbeats, the loss of the partner,
and divergence (R294 to R314).
-/

namespace Sys2Proof.Machine

/-! Sending and acknowledging (R296). -/

/-- Acknowledges messages up to a TSEQ; messages kept behind the 4,096 that may be outstanding then go out. -/
def ackTwin (s : State) (tack : Nat) : State :=
  let old := s.twin.unacked
  let kept := old.filter (fun e => decide (tack < e.1))
  let gone := old.length - kept.length
  let s := setTwin s { s.twin with unacked := kept }
  forEach ((kept.take 4096).drop (4096 - gone)) s (fun s e => send s (.twin e.1 s.twin.applied e.2))

/-- The partner is heard. A standby that had declared it lost may declare it lost again; a lone unit pairs anew (R298, R301), and so does
one whose lost partner sends HELLO (R311). -/
def heard (s : State) : State := if twinState s = 4 then setTwin s { s.twin with lost := false } else s

/-- Takes a message in TSEQ order and applies it; any other is discarded. A HELLO restarts the sender's count. -/
def twinReceive (s : State) (tseq tack : Nat) (restart : Bool) (apply : State → State) : State :=
  if !twinEnabled s then s
  else
    let s := ackTwin s tack
    if restart ∨ tseq = s.twin.applied + 1 then
      let s := setTwin s { s.twin with applied := tseq, linkAt := some s.frc }
      apply (if restart then s else heard s)
    else s

/-- Resends an unacknowledged message (R296). -/
def twinResend (s : State) (tseq : Nat) : State :=
  match (s.twin.unacked.take 4096).find? (fun e => e.1 == tseq) with
  | some e => incF (send s (.twin e.1 s.twin.applied e.2)) TWN.CNT 2
  | none => s

/-! Pairing (R311). -/

/-- Whether the unit holds ledger authority with a frame ARMED or FIRING. -/
def printing (s : State) : Bool := authority s && (upto 4).any (groupPrinting s)

/-- The pair settings (R307). -/
def pairSettings (s : State) : List Nat :=
  (upto 4).flatMap (fun g => [getF s LDE.PGTIM g, getF s LDE.PGLEAD g, getF s LDE.MINRATE g, getF s LDG.POLICY g]) ++ [getF s LDG.CFG]

/-- The confirmed profile, or 2 where none is. -/
def profileValue (s : State) : Nat := if confirmed s then getF s GLB.PROFILE_STRAP else 2

def helloBody (s : State) : TwinBody :=
  .hello (unitId s) (preference s) (profileValue s) (getF s GLB.ID) (ownClaim s) (getF s LDE.GEOHASH) (getP s TWN.TABSUM)
    (pairSettings s) (printing s)

def sendHello (s : State) : State := twinSend s (helloBody s)

/-- Sparse bytes of a range of device memory, by offset. -/
def cellsOf (s : State) (a n : Nat) : List (Nat × Byte) :=
  (s.mem.filter (fun c => decide (a ≤ c.1) && decide (c.1 < a + n))).map (fun c => (c.1 - a, c.2))

/-- The bytes of the NOZZLE records, 2 a nozzle. -/
def recordBytesAll : Nat := 2 * 128 * rowWidth

/-- Delivers the state a joiner needs (Table: joining a printing partner, steps 2 and 4). -/
def sendCopies (s : State) (full : Bool) : State :=
  let copy (s : State) (p : CopyPart) : State := twinSend s (.stateCopy p)
  let s := forEach (upto 4) s (fun s g => copy s (.group g (nextFsn s g) (getP s LDG.OLDEST g)))
  if full then
    let s := forEach (s.ledger.frames.filter (fun e => decide (getP s LDG.OLDEST e.2.group ≤ e.2.fsn))) s
      (fun s e => copy s (.slot e.2.record))
    let s := copy s (.map (cellsOf s mapBase mapBytes))
    let s := copy s (.records (cellsOf s (regionBase s 6) recordBytesAll))
    let s := forEach (upto 8) s (fun s c => forEach (updatesOf s c) s (fun s u =>
      copy s (.update ⟨c, u.ge, u.a, u.n, u.state, u.gclass, u.lock⟩)))
    let s := forEach ((upto 8).filter (bankPending s)) s (fun s c => copy s (.bank c (getF s SDG.CHSTAT_PBANK c) (getP s SDG.PENDLINE c)))
    forEach ((upto 64).filter (fun q => flag s PCI.QCFG_EN q)) s (fun s q => copy s (.joinq q (getF s PCI.QSEQ q)))
  else s

/-- The unit becomes one of a pair: TWIN_PAIRED is raised. -/
def paired (s : State) (state : Nat) : State :=
  let s := setF s TWN.STAT_STATE state
  raiseEvent s 0 0x0201 (twinStat s) (getF s TWN.PCLAIM)

/-- The code of the pairing checks (Table: pairing codes). -/
def pairingCode (s : State) (unit preferred profile id : Nat) (settings : List Nat) (other : Bool) : Nat :=
  if unit = unitId s ∨ preferred = preference s then 2
  else if profile ≠ profileValue s ∨ !confirmed s then 3
  else if id ≠ getF s GLB.ID then 4
  else if settings ≠ pairSettings s then 5
  else if other && printing s then 6
  else 0

/-- A partner's HELLO (R311). -/
def takeHello (s : State) (unit preferred profile id claim : Nat) (settings : List Nat) (other : Bool) : State :=
  if twinState s = 4 ∧ !s.twin.lost ∨ twinState s = 6 then s
  else
    let code := pairingCode s unit preferred profile id settings other
    let s := setF s TWN.STAT_CODE code
    if code ≠ 0 then (if twinState s = 1 ∨ twinState s = 2 then setF s TWN.STAT_STATE 5 else s)
    else
      let s := setTwin (setF s TWN.PCLAIM claim) { s.twin with lost := false, awaiting := [], early := [], joinStep := 0 }
      if printing s then sendCopies (paired s 3) true
      else if other then
        let s := if preference s = 0 then takeClaim s (claim / 16) 0 else takeClaim s (claim / 16 - 1) 1
        setTwin (setF s TWN.STAT_STATE 2) { s.twin with joinStep := 1 }
      else if preference s = 1 then sendCopies (paired (raiseClaim s (quorumWaived s)) 3) false
      else sendCopies (paired (takeClaim s (Nat.max (claim / 16) s.twin.epoch) 0) 4) false

/-- No HELLO has come within 100 ms (Table: pairing codes). -/
def pairingTimeout (s : State) : State :=
  if twinState s = 1 ∨ (twinState s = 2 ∧ s.twin.joinStep = 0) then setF (setF s TWN.STAT_CODE 1) TWN.STAT_STATE 5 else s

/-- A write of 1 to PAIR: HELLO goes out, and a unit that has no partner seeks one. -/
def twinPair (s : State) : State :=
  if !twinEnabled s then s
  else
    let s := if twinState s = 5 ∨ twinState s = 0 then setF s TWN.STAT_STATE 1 else s
    sendHello s

/-- A write of 1 to REJOIN: a diverged unit leaves DIVERGED and rejoins (R310). -/
def twinRejoin (s : State) : State :=
  if twinEnabled s ∧ twinState s = 6 then sendHello (setTwin (setF s TWN.STAT_STATE 2) { s.twin with joinStep := 0 }) else s

/-! Records and copies (R306, R311). -/

/-- A frame as a ledger record shows it. -/
def frameOfRecord (s : State) (bs : List Byte) : Frame :=
  let w := field bs 62 1
  let g := bits w 0 2
  { Frame.fresh s g (field bs 8 8) (field bs 56 4) 0 (bit w 7) none with
    fsn := field bs 0 8, tAccept := field bs 16 8, tFirst := field bs 24 8, tDisp := field bs 32 8, pos := field bs 40 8,
    crc64 := field bs 48 8, linkback := field bs 60 2, state := bits w 2 3, released := bit w 5, degraded := bit w 6,
    reason := field bs 63 1, recorded := decide (5 ≤ bits w 2 3), record := bs, firingHeld := decide (4 ≤ bits w 2 3) }

/-- Writes a record of the partner to both rings and posts it to the own mirror. -/
def storeRecord (s : State) (bs : List Byte) : State :=
  let g := bits (field bs 62 1) 0 2
  let fsn := field bs 0 8
  let s := if mireLocked s then engineWrite (engineWrite s (slotAddr s 1 g fsn) bs) (slotAddr s 2 g fsn) bs else s
  let s := setLag s g ((lagOf s g).filter (fun n => n != fsn) ++ [fsn])
  if mirrorOpen s g then hostWrite s 0 (mirrorAddr s g fsn) bs else s

/-- NEXTFSN of a group lies above every frame it has. -/
def raiseNext (s : State) (g fsn : Nat) : State := if nextFsn s g ≤ fsn then setP s LDG.NEXTFSN (fsn + 1) g else s

/-- What a record does to a frame the standby already holds. -/
def recordFrame (s : State) (f r : Frame) : State :=
  if r.released then releaseFrame (setFrame s { f with state := r.state, reason := r.reason, tDisp := r.tDisp, recorded := true }) { f with state := r.state, reason := r.reason, tDisp := r.tDisp, recorded := true } true
  else if 5 ≤ r.state then
    setFrame s { f with state := r.state, reason := r.reason, tDisp := r.tDisp, recorded := true, degraded := r.degraded }
  else if r.state = 4 then setFrame s { f with state := if f.state = 3 then 4 else f.state, firingHeld := true }
  else if r.state = 3 ∧ f.state < 3 then setFrame s { f with crc64 := r.crc64 }
  else if r.state = 3 ∧ f.crc64 ≠ r.crc64 then diverge s 3 f.group true
  else s

/-- A RECORD of the active (R306). -/
def takeRecord (s : State) (bs : List Byte) : State :=
  let r := frameOfRecord s bs
  let s := storeRecord s bs
  let s := match frameOf s r.group r.fsn with
    | some f => let f := { f with record := bs }; recordFrame (setFrame s f) f r
    | none =>
      let f := { r with flush := if r.state = 1 then .accepted else .none }
      let s := raiseNext (setFrame s f) r.group r.fsn
      flushRead s f
  let s := twinSend (updateOldest s r.group) (.ringAck r.group r.fsn)
  runLedger s r.group

/-- A RING_ACK (R306). -/
def takeRingAck (s : State) (g fsn : Nat) : State :=
  match frameOf s g fsn with
  | none => s
  | some f => takeVisible (setFrame s { f with partnerHas := true }) f.key

/-- A part of a STATE_COPY (R311). -/
def takeCopy (s : State) (p : CopyPart) : State :=
  let s := if twinState s = 2 ∧ s.twin.joinStep = 1 then setTwin s { s.twin with joinStep := 2 } else s
  match p with
  | .group g next oldest =>
    if 4 ≤ g then s
    else
      let n := Nat.max (nextFsn s g) next
      let s := setP (setP s LDG.NEXTFSN n g) LDG.OLDEST (Nat.max (getP s LDG.OLDEST g) oldest) g
      if getF s LDG.STAT_STATE g = 3 ∧ n ≠ 0 then setF s LDG.STAT_STATE (if flag s LDG.MIRCFG_EN g then 0 else 1) g else s
  | .slot bs =>
    let r := frameOfRecord s bs
    raiseNext (setFrame (storeRecord s bs) r) r.group r.fsn
  | .map cells =>
    forEach cells (zeroRange s mapBase mapBytes) (fun s c => if c.1 < mapBytes then putBytes s (mapBase + c.1) [c.2] else s)
  | .records cells =>
    if mireLocked s then
      forEach cells (zeroRange s (regionBase s 6) recordBytesAll)
        (fun s c => if c.1 < recordBytesAll then putBytes s (regionBase s 6 + c.1) [c.2] else s)
    else s
  | .update u =>
    setUpdates s u.ch (insertUpdate (updatesOf s u.ch) ⟨u.ge, u.a, u.n, u.state, u.gclass, u.lock, 2, [], [], none⟩)
  | .bank c b line => setP (setF (setF s SDG.CHSTAT_PENDING 1 c) SDG.CHSTAT_PBANK b c) SDG.PENDLINE line c
  | .joinq q n => setF s TWN.JOINQ n q

/-! Decisions of the active (R303, R304). -/

/-- A CHANGE: the standby applies it at its stated line; one that comes too late makes it diverge (R304). -/
def takeChange (s : State) (key : TwinKey) (desc : List Byte) (ge : Nat) : State :=
  if !isStandby s then s
  else if key.sub = 9 then
    let u := { updateOfDesc desc 2 none with ge := ge }
    let c := rowChannel s (u.a / rowWidth)
    let s := (acceptUpdate s u false).2
    if ge ≠ 0 ∧ ge ≤ getP s HMK.LASTLINE c then diverge s 5 c true else s
  else
    match selectOfDesc s desc with
    | none => s
    | some q =>
      let s := selectApply s { q with ge := ge }
      match (upto 8).find? (fun c => bit q.chmask c && decide (ge ≤ getP s SDG.LASTLINE c)) with
      | some c => diverge s 5 c true
      | none => s

/-- The streams of a group's rows, each with the trigger at which its row prints a line. -/
def groupStreams (s : State) (g line : Nat) : List (Nat × Nat) :=
  (((heads s).filter (fun e => (groupChannels s g).contains (rowChannel s e.2.row))).map (fun e =>
    (streamKey e.2.hub e.2.slot, line + getF s LDE.ROWDLY_LINES e.2.row))).dedup

/-- A joiner's first matched FARM: it takes the SEQs of the frame's streams from G0, which each row prints at its own trigger
(R29, R311, step 5). -/
def joinAtFarm (s : State) (key : TwinKey) (code value : Word) : State :=
  if twinState s = 2 ∧ 2 ≤ s.twin.joinStep ∧ s.twin.joinStep < 5 ∧ key.sub = 4 ∧ code.toNat % 256 = 0 then
    let g := getF s PCI.QCFG_FN key.queue - 1
    let asks := groupStreams s g value.toNat
    let s := setTwin s { s.twin with
      joinStep := 5
      resyncs := s.twin.resyncs.filter (fun k => !asks.any (fun e => e.1 == k))
      rejoins := asks.foldl (fun m e => mput m e.1 (e.2, 0)) s.twin.rejoins }
    forEach (asks.map (fun e => e.2)).dedup s (fun s n =>
      twinSend s (.resync false n ((asks.filter (fun e => e.2 == n)).map (fun e => (e.1, 0)))))
  else s

/-- The entry of a key has been fetched and has ended on this unit, so that no operation of it can have the key any more: a RESULT
for it names an operation that the unit's program did not issue (Table: divergence causes, MATCH). -/
def entryEnded (s : State) (k : TwinKey) : Bool :=
  decide (k.queue < 64) && flag s PCI.QCFG_EN k.queue && decide (k.qseq < getF s PCI.QSEQ k.queue) &&
    (match (queueOf s k.queue).entry with | some e => e.qseq != k.qseq | none => true)

/-- A RESULT (R303): the operation with its key completes with the active's record; at a FARM the tables are compared (R309). -/
def takeResult (s : State) (key : TwinKey) (code value : Word) (geohash tabsum : Nat) : State :=
  if !isStandby s then s
  else
    let s := if key.sub = 4 ∧ (geohash ≠ getF s LDE.GEOHASH ∨ tabsum ≠ getP s TWN.TABSUM) then
        diverge s 6 (getF s PCI.QCFG_FN key.queue - 1) true else s
    let s := joinAtFarm s key code value
    match s.twin.awaiting.find? (fun m => m.key == key) with
    | some m =>
      if key.sub = 9 ∨ key.sub = 10 ∨ key.sub = 14 then
        completeWith (setTwin s { s.twin with awaiting := s.twin.awaiting.filter (fun x => x.key != key) }) m.op code value
      else
        runLedgers (setTwin s { s.twin with
          awaiting := s.twin.awaiting.filter (fun x => x.key != key), early := s.twin.early ++ [(key, code, value)] })
    | none =>
      let s := if entryEnded s key then diverge s 2 key.queue true else s
      setTwin s { s.twin with early := s.twin.early ++ [(key, code, value)] }

/-- A REQUEST of the standby: decided as a MERE update, and answered (R303). -/
def takeRequest (s : State) (key : TwinKey) (desc : List Byte) : State :=
  if !isActive s then s
  else
    let u := updateOfDesc desc 1 none
    let (code, v, s) := if mapsetInvalid desc 1 then (9, u, s) else decideUpdate s key u
    twinSend s (.result key (word (codeWord code 9 0 v.skipped.length)) (word (if code = 0 then v.ge else 0))
      (getF s LDE.GEOHASH) (getP s TWN.TABSUM))

/-- No RESULT has come within MATCHTO (R303, R309). -/
def matchTimeout (s : State) (key : Nat) : State :=
  match s.twin.awaiting.find? (fun m => m.op == key) with
  | some m => if s.frc < m.since + 1250000 * Nat.max 1 (getF s TWN.CFG_MATCHTO) then s else diverge s 2 m.key.queue true
  | none => s

/-! ENTRY (R309). -/

/-- The unit has fetched an entry: it sends the hashes, and compares them with the partner's where those have come. A RESULT left
over from an earlier entry named an operation its program did not issue. -/
def entryFetched (s : State) (q qseq blockCrc argCrc : Nat) : State :=
  if !inPair s then s
  else
    let stray (e : TwinKey × Word × Word) : Bool := e.1.queue == q && decide (e.1.qseq < qseq)
    let s := if s.twin.early.any stray then
        diverge (setTwin s { s.twin with early := s.twin.early.filter (fun e => !stray e) }) 2 q true
      else s
    let s := twinSend s (.entry q qseq blockCrc argCrc)
    match s.twin.partnerEntries.find? (fun e => e.1 == q && e.2.1 == qseq) with
    | some e =>
      let s := setTwin s { s.twin with partnerEntries := s.twin.partnerEntries.filter (fun x => !(x.1 == q && x.2.1 == qseq)) }
      if e.2.2 = (blockCrc, argCrc) then s else diverge s 1 q true
    | none => setTwin s { s.twin with entries := s.twin.entries ++ [(q, qseq, blockCrc, argCrc)] }

/-- An ENTRY of the partner. -/
def takeEntryHash (s : State) (q qseq blockCrc argCrc : Nat) : State :=
  match s.twin.entries.find? (fun e => e.1 == q && e.2.1 == qseq) with
  | some e =>
    let s := setTwin s { s.twin with entries := s.twin.entries.filter (fun x => !(x.1 == q && x.2.1 == qseq)) }
    if e.2.2 = (blockCrc, argCrc) then s else diverge s 1 q true
  | none => setTwin s { s.twin with partnerEntries := s.twin.partnerEntries ++ [(q, qseq, blockCrc, argCrc)] }

/-! HUBPOINT and RESYNC (R305, R139). -/

/-- A HUBPOINT (R305): points and reports of an ACK the partner received; a hub it names is UP there (R311). -/
def takeHubpoint (s : State) (h : Nat) (pts : List PointEntry) (rs : List ReportEntry) : State :=
  let s := setHub s h { hubOf s h with partnerFrc := some s.frc }
  let s := forEach rs s (fun s r => takePartnerReport s h r)
  let full := replayFull s
  let s := forEach (pts.filter (fun e => !e.ctrl)) s (fun s e => takePoint s (streamKey h e.slot) e.held e.done)
  let s := if full && !replayFull s then forEach (upto 4) s stampReady else s
  hubCheckUp s h

/-- The next SEQ of a stream from a trigger: that of the first frame built for it, or the next to be built. -/
def seqFrom (s : State) (k trigger : Nat) : Nat :=
  (s.ledger.frames.flatMap (fun e => e.2.openSeqs.filter (fun q => q.stream == k && decide (trigger ≤ q.trigger)))).foldl
    (fun a q => Nat.min a q.seq) (streamOf s k).next

/-- A RESYNC: a request is answered, and an answer gives the streams their SEQ at the trigger they named, which the frames built
since then have moved on (R139). -/
def takeResync (s : State) (answer : Bool) (trigger : Nat) (streams : List (Nat × Nat)) : State :=
  if answer then
    let s := forEach (streams.filter (fun e => ((mfind s.twin.rejoins e.1).map (fun w => w.1)) == some trigger)) s (fun s e =>
      let built := ((mfind s.twin.rejoins e.1).getD (0, 0)).2
      setTwin (setStream s e.1 { streamOf s e.1 with next := e.2 + built }) { s.twin with rejoins := mdel s.twin.rejoins e.1 })
    if twinState s = 2 ∧ s.twin.joinStep = 5 ∧ s.twin.rejoins = [] then paired (setTwin s { s.twin with joinStep := 0 }) 4 else s
  else twinSend s (.resync true trigger (streams.map (fun e => (e.1, seqFrom s e.1 trigger))))

/-! Triggers of a standby (R302). -/

/-- The key of a standby's own measurement. -/
def ownKey (g n : Nat) : Nat := g * 2 ^ 64 + n

/-- A TRIG of the active. -/
def takeTwinTrigger (s : State) (g n tm : Nat) : State :=
  if !isStandby s ∨ 4 ≤ g then s
  else
    let frc := match mfind s.twin.own (ownKey g n) with | some e => e.2.1 | none => s.frc
    let s := setTwin s { s.twin with own := mdel s.twin.own (ownKey g n) }
    match lastTrigger s g with
    | some last => if n ≤ last then s else takeTrigger s g n tm frc
    | none => takeTrigger s g n tm frc

/-- The oldest own measurement of a group that still awaits the active's. -/
def oldestOwn (s : State) (g : Nat) : Option (Nat × Nat × Nat × Nat) := s.twin.own.find? (fun e => e.1 / 2 ^ 64 == g)

/-- TMWAIT has run out without the active's trigger and without any message (R302). -/
def triggerFallback (s : State) (g : Nat) : State :=
  let us := Nat.max 1 (getF s TWN.CFG_TMWAIT)
  match oldestOwn s g with
  | none => s
  | some (k, tm, hit, at_) =>
    if isStandby s ∧ 1250 * us ≤ s.frc - at_ ∧ silentFor s s.twin.linkAt us then
      let n := k % 2 ^ 64
      let s := setTwin s { s.twin with own := mdel s.twin.own k, fallback := s.twin.fallback ++ [k] }
      takeTrigger (incF s TWN.CNT 0) g n tm hit
    else s

/-! Heartbeats and the loss of the partner (R297, R298, R300). -/

/-- A HEARTBEAT of the partner. -/
def takeHeartbeat (s : State) (claim state : Nat) : State :=
  partnerClaimSeen (setTwin s { s.twin with partnerState := state }) claim

def heartbeatSend (s : State) : State :=
  if twinEnabled s then twinSend s (.heartbeat (ownClaim s) (twinState s) ((upto 4).map (fun g => getP s LDE.TRIG g))) else s

/-- CRC-8 of a heartbeat word, over bits 0 to 55 in the order sent (R297). -/
def hbCrc (w : Nat) : Nat := crcMsb 8 0x07 0 ((upto 56).map (fun i => bit w i))

def hbWord (s : State) : Nat :=
  let w := ownClaim s + 2 ^ 32 * unitId s + 2 ^ 33 * twinState s
  w + 2 ^ 56 * hbCrc w

/-- The unit has paired since reset: HB_TX is low until then (R450). A unit left LONE by a pairing that failed shows the code. -/
def hasPaired (s : State) : Bool :=
  twinEnabled s && decide (3 ≤ twinState s) && (twinState s != 5 || getF s TWN.STAT_CODE == 0)

/-- A heartbeat word is due on HB_TX (R297). -/
def hbWordSend (s : State) : State := if hasPaired s then send s (.hbWord (word (hbWord s))) else s

/-- A heartbeat word on HB_RX. -/
def hbWordTake (s : State) (w : Nat) : State :=
  if !twinEnabled s ∨ bits w 56 8 ≠ hbCrc w then s
  else takeHeartbeat (heard (setTwin s { s.twin with backupAt := some s.frc })) (bits w 0 32) (bits w 33 3)

/-- The unit runs alone: what waited on the partner goes on, and its own measurements that awaited the active's are its triggers
(R302, R303, R306). -/
def becomeLone (s : State) : State :=
  let s := setF s TWN.STAT_STATE 5
  let waiting := s.twin.awaiting
  let own := s.twin.own
  let s := setTwin s { s.twin with awaiting := [], early := [], own := [], resyncs := [], rejoins := [], joinStep := 0 }
  let s := forEach own s (fun s e => takeTrigger s (e.1 / 2 ^ 64) (e.1 % 2 ^ 64) e.2.1 e.2.2.1)
  let s := forEach ((upto 40).filter (fun h => !hubUp s h)) s giveUpHub
  let s := forEach waiting s (fun s m => match opOf s m.op with
    | some o => if o.sub = 9 then finishMapset s o else if o.sub = 10 then finishSelect s o else s
    | none => s)
  let s := forEach (s.ledger.frames.map (fun e => e.1)) s takeVisible
  runLedgers (forEach (upto 4) s recordDispositions)

/-- Both paths have been silent for 400 µs (R298, R300). -/
def partnerLost (s : State) : State :=
  if twinEnabled s ∧ !s.twin.lost ∧ (twinState s = 3 ∨ twinState s = 4 ∨ twinState s = 2) ∧ silentFor s s.twin.linkAt 400 ∧
      silentFor s s.twin.backupAt 400 then
    let s := setTwin (setF s TWN.ERR_LOST 1) { s.twin with lost := true }
    let s := raiseEvent s 0 0x0202 (hbAge s) (ownClaim s)
    if twinState s = 2 then setF s TWN.STAT_STATE 1
    else
      let active := twinState s == 3
      let s := raiseClaim s false
      if active || !s.twin.raisePending then becomeLone s else s
  else s

/-- A refused raise is tried again (R300). -/
def quorumRetry (s : State) : State :=
  if s.twin.raisePending then
    let s := raiseClaim s false
    if !s.twin.raisePending && s.twin.lost && twinState s == 4 then becomeLone s else s
  else s

/-- One path has been silent for 400 µs while the other is not (R298). -/
def pathSilent (s : State) (link : Bool) : State :=
  let a := if link then s.twin.linkAt else s.twin.backupAt
  let b := if link then s.twin.backupAt else s.twin.linkAt
  if twinEnabled s && silentFor s a 400 && !silentFor s b 400 then raiseEvent (setF s TWN.ERR_PATH 1) 0 0x0206 (bnat link) 0 else s

/-- A write of PRESET with its key (R314). -/
def partnerReset (s : State) (key : Nat) : State := if twinEnabled s ∧ key = 0x5A then twinSend s (.resetReq (ownClaim s)) else s

end Sys2Proof.Machine
end

