-- ==== Sys2Proof/Machine/FeedbackOps.lean ====
section
/-!
DEFINITION. Position and speed feedback: transitions and serial readings, the index, speed, the line-trigger generators, loss
and freeze, and the release of WAITPOS (R369 to R383, R234, R302).
-/

namespace Sys2Proof.Machine

/-! WAITPOS (R234). -/

/-- What a WAITPOS returns now: 0 where its channel or generator is disabled or PD_MOTION is held, the FRC of the edge or
trigger where its condition holds; nothing while it must wait. At issue, a channel that has accepted no transition, or a generator
that has measured no trigger since it was enabled, gives the FRC; a first serial reading that ends a wait gives its own stamp. -/
def posReturn (s : State) (target selector : Word) (issue : Bool) : Option Nat :=
  let w := selector.toNat
  if domainHeld s 12 then some 0
  else if bit w 4 then
    let g := bits w 0 2
    if !generatorOn s (getF s LDE.PGTIM_LTG g) then some 0
    else if target.toNat ≤ getP s LDE.TRIG g then some (mget s.lode.hitFrc g s.frc)
    else none
  else
    let c := bits w 0 4
    let ch := channelOf s c
    let stamp := match ch.last, ch.reading with
      | some t, _ => t.frc
      | none, some r => if issue then s.frc else r.2
      | none, none => s.frc
    if 12 ≤ c || !flag s ENC.CFG_EN c then some 0
    else if (if bit w 5 then decide (ch.x ≤ target.toInt) else decide (target.toInt ≤ ch.x)) then some stamp
    else none

/-- Releases every WAITPOS that need not wait. -/
def wakeWaits (s : State) : State :=
  forEach (upto 48) s (fun s k => match (coreOf s k).stall with
    | .waitPos rd target sel _ => (match posReturn s target sel false with
        | some v => unstall s k rd (word v)
        | none => s)
    | _ => s)

/-! Line triggers (R110, R377, R378). -/

/-- The working time of an FRC stamp, in 2^-16 ns. -/
def stampTime (s : State) (frc : Nat) : Nat := workAt s frc / 65536

/-- A measured trigger of a generator reaches the groups it times. A standby keeps its own measurement until the active's comes,
and the active sends its own (R302). -/
def groupTrigger (s : State) (g n tm stamp : Nat) : State :=
  if isStandby s then setTwin s { s.twin with own := mput s.twin.own (ownKey g n) (tm, stamp, s.frc) }
  else
    let s := takeTrigger s g n tm stamp
    if isActive s then twinSend s (.trig g n tm) else s

/-- Tm(n) of a trigger hit at count m: interpolated where the transition into the count before it was forward, and since the
generator was enabled (R110). -/
def triggerTime (s : State) (j : Nat) (p : Int) (m : Int) (stamp : Nat) (prev : Option Transition) : Nat :=
  let k := floorDiv p (2 ^ 32)
  let f := (p % 2 ^ 32).toNat / 65536
  let tm := stampTime s stamp
  match prev with
  | some t =>
    if m = k + 1 ∧ t.counted ∧ t.sign = 1 ∧ (generatorOf s j).since ≤ t.frc then
      let tk := stampTime s t.frc
      tk + f * (tm - tk) / 65536
    else tm
  | none => tm

/-- Moves a generator past its next line, absorbing up to SPACING/64 of its correction (R380). -/
def passLine (s : State) (j : Nat) : State :=
  let g := generatorOf s j
  setGenerator s j { g with next := g.next + 1, absorbed := absorbedAt s j g.next }

/-- Hits every trigger of a generator that a forward transition into count m reaches, in ascending order; at most `fuel`, which
SPACING bounds. -/
def hitLines : Nat → State → Nat → Int → Nat → Option Transition → State
  | 0, s, _, _, _, _ => s
  | k + 1, s, j, m, stamp, prev =>
    let n := (generatorOf s j).next
    let p := linePos s j n
    if floorDiv p (2 ^ 32) + 1 ≤ m then
      let tm := triggerTime s j p m stamp prev
      let s := passLine s j
      let s := forEach ((upto 4).filter (fun g => groupOn s g && getF s LDE.PGTIM_LTG g == j)) s (fun s g => groupTrigger s g n tm stamp)
      hitLines k s j m stamp prev
    else s

/-- An upper bound of the lines a generator has at or below a count. -/
def lineFuel (s : State) (j : Nat) (m : Int) : Nat :=
  let n := (generatorOf s j).next
  (floorDiv ((m + 1) * 2 ^ 32 - linePos s j n) (Nat.max 1 (lineSpacing s j - lineSpacing s j / 64))).toNat + 2

/-- The generators that follow a channel in RUN. -/
def followers (s : State) (c : Nat) : List Nat :=
  (upto 8).filter (fun j => generatorOn s j && getF s ENC.LTGCFG_SRC j == c && getF s ENC.STAT_STATE c == 1)

/-- LTGREM of a generator: CORR − ABS in Q16.16 counts, saturating (R380). -/
def remaining (s : State) (j : Nat) : Nat :=
  unsign (clampInt (-(2 ^ 31)) (2 ^ 31 - 1) (floorDiv (correction s j - (generatorOf s j).absorbed) 65536)) 32

/-- A generator passes, without measurement, every line at or below the present position (R378). -/
def passLines : Nat → State → Nat → Int → State
  | 0, s, _, _ => s
  | k + 1, s, j, m =>
    let g := generatorOf s j
    if floorDiv (linePos s j g.next) (2 ^ 32) + 1 ≤ m then passLines k (passLine s j) j m else s

/-! Counting (R371, R372, R376). -/

/-- A step of the count: the position moves, and the step is a counted edge where its sign is that of the transition before it.
Speed by the PERIOD method, and the triggers reached, follow. -/
def countStep (s : State) (c stamp : Nat) (sign : Int) : State :=
  let ch := channelOf s c
  let held : Int := match ch.last with | some t => t.sign | none => if flag s ENC.STAT_DIR c then -1 else 1
  let counted : Bool := held == sign
  let x := ch.x + sign
  let run : Bool := getF s ENC.STAT_STATE c == 1
  let edge := if counted then
      some ⟨stamp, sign, match ch.edge with
        | some e => if e.sign = sign then some (stamp - e.frc) else none
        | none => none⟩
    else ch.edge
  let valid : Bool := match edge with | some e => e.delta.isSome | none => false
  let s := setChannel s c { ch with
    x := x, last := some ⟨stamp, sign, counted⟩, edge := edge, windowEdges := ch.windowEdges + bnat counted,
    indexed := ch.indexed && !counted, movedFrc := s.frc }
  let s := if counted then setF s ENC.STAT_DIR (bnat (sign == -1)) c else s
  let s := if counted && run && !isSerial s c && !flag s ENC.STAT_SPDMODE c then setF s ENC.STAT_SPDVALID (bnat valid) c else s
  let s := if counted && sign == 1 then
      forEach (followers s c) s (fun s j => hitLines (lineFuel s j x) s j x stamp ch.last)
    else s
  wakeWaits s

/-- A channel becomes LOST or FROZEN (R381). -/
def channelFails (s : State) (c : Nat) (freeze : Bool) : State :=
  if getF s ENC.STAT_STATE c ≠ 1 then s
  else
    let s := setF (setF s ENC.STAT_STATE (if freeze then 3 else 2) c) ENC.STAT_SPDVALID 0 c
    let s := setF (setP s ENC.SPEED 0 c) (if freeze then ENC.ERR_FROZEN else ENC.ERR_LOST) 1
    let s := forEach [0, 6] s (fun s f => raiseEvent s f (if freeze then 0x0602 else 0x0601) c (getF s ENC.STAT c))
    channelFailed s c freeze

/-- An illegal transition; ILLMAX of them within 1 ms lose the channel (R371, R381). -/
def illegal (s : State) (c : Nat) : State :=
  let ch := channelOf s c
  let recent := s.frc :: ch.illegal.filter (fun f => decide (s.frc < f + 1250000))
  let most := Nat.max 1 (getF s ENC.LOSS_ILLMAX c)
  let s := setChannel s c { ch with illegal := recent.take most, badFrc := s.frc }
  let s := incF (setF s ENC.STAT_ILLEGAL_EDGE 1 c) ENC.ILLCNT c
  if most ≤ recent.length then channelFails s c false else s

/-- The place of a state of A and B, or of U, V and W, in its sequence (Table: feedback modes). -/
def quadPlace (l : Nat) : Nat := nth [0, 1, 3, 2] (l % 4)
def hallPlace (l : Nat) : Option Nat := [1, 3, 2, 6, 4, 5].findIdx? (fun x => x == l % 8)

/-- What a change of levels does to the count: +1, −1, nothing, or illegal. -/
inductive CountMove where
  | step (sign : Int)
  | still
  | bad
  deriving DecidableEq, Repr

/-- Decodes a change of the accepted levels by the mode (R369, R371). -/
def decodeLevels (mode old new : Nat) : CountMove :=
  if mode = 0 then
    let d := (quadPlace new + 4 - quadPlace old) % 4
    if d = 0 then .still else if d = 1 then .step 1 else if d = 3 then .step (-1) else .bad
  else if mode = 1 then
    if old % 8 = new % 8 then .still
    else match hallPlace old, hallPlace new with
      | some a, some b => let d := (b + 6 - a) % 6; if d = 1 then .step 1 else if d = 5 then .step (-1) else .bad
      | none, some _ => .still
      | _, none => .bad
  else if mode = 2 then (if bit new 0 && !bit old 0 then .step 1 else .still)
  else .still

/-- New levels of A, B and Z are accepted, stamped at the first of the FILT + 1 ticks they held (R370 to R372). With their bank off
they read 0 (R450). -/
def transition (s : State) (c levels : Nat) : State :=
  let ch := channelOf s c
  let levels := if bankOn s 4 then levels else 0
  let s := setChannel s c { ch with levels := levels }
  if !flag s ENC.CFG_EN c then s
  else
    let inv : Int := if flag s ENC.CFG_DIR c then -1 else 1
    match decodeLevels (getF s ENC.CFG_MODE c) ch.levels levels with
    | .step d => countStep s c (s.frc - getF s ENC.CFG_FILT c) (d * inv)
    | .still => s
    | .bad => illegal s c

/-! Serial encoders (R373). -/

/-- Bits of a reading. -/
def serialBits (s : State) (c : Nat) : Nat := getF s ENC.SER_MTBITS c + getF s ENC.SER_STBITS c

/-- Binary from Gray code. -/
def fromGray (n : Nat) : Nat → Nat
  | 0 => n
  | k + 1 => nxor n (fromGray (n / 2) k)

/-- Signed difference of two readings of so many bits. -/
def serialDiff (bs new old : Nat) : Int := signed ((new + 2 ^ bs - old % 2 ^ bs) % 2 ^ bs) bs

/-- Steps of a reading's difference, each stamped by interpolation between the readings. -/
def serialSteps : Nat → State → Nat → Int → Nat → Nat → Nat → Nat → State
  | 0, s, _, _, _, _, _, _ => s
  | k + 1, s, c, sign, t0, t1, i, n => serialSteps k (countStep s c (t0 + (t1 - t0) * (i + 1) / n) sign) c sign t0 t1 (i + 1) n

/-- No good reading for four periods (R381). -/
def readingsOverdue (s : State) (c : Nat) : Bool :=
  let ch := channelOf s c
  let last := match ch.reading with | some r => Nat.max ch.since r.2 | none => ch.since
  isSerial s c && decide (last + 4 * 1250 * getF s ENC.SERPER_PERIOD c ≤ s.frc)

/-- A failed reading; CRCMAX in a row, or four periods without a good one, lose the channel (R373, R381). -/
def readingFails (s : State) (c : Nat) : State :=
  let ch := channelOf s c
  let s := incF (setChannel s c { ch with failed := ch.failed + 1, badFrc := s.frc }) ENC.CRCCNT c
  if Nat.max 1 (getF s ENC.SER_CRCMAX c) ≤ ch.failed + 1 ∨ readingsOverdue s c then channelFails s c false else s

/-- A good reading, stamped at the first falling edge of SC: the first sets X, later ones move it (R373, R376). -/
def readingGood (s : State) (c value stamp : Nat) : State :=
  let ch := channelOf s c
  let dir : Int := if flag s ENC.CFG_DIR c then -1 else 1
  match ch.reading with
  | none => wakeWaits (setChannel s c { ch with x := dir * value, reading := some (value, stamp), failed := 0, movedFrc := s.frc })
  | some r =>
    let d := serialDiff (serialBits s c) value r.1 * dir
    let s := setChannel s c { ch with reading := some (value, stamp), failed := 0 }
    let s := serialSteps d.natAbs s c (Int.sign d) r.2 stamp 0 d.natAbs
    if getF s ENC.STAT_STATE c = 1 then
      let v := truncDiv (d * 1250000000 * 65536) (Nat.max 1 (stamp - r.2))
      setF (setP s ENC.SPEED (unsign v 64) c) ENC.STAT_SPDVALID 1 c
    else s

/-- What a serial frame holds, as its bits give it: the data bits, nERR, nWARN and CRC-6 of BISS, the trailing bit of SSI, and
whether BISS never answered. With their bank off the inputs read 0, so that a BISS encoder never answers (R450). -/
def serialReading (s : State) (c data : Nat) (nerr nwarn : Bool) (crc : Nat) (trailing timeout : Bool) (stamp : Nat) : State :=
  let n := serialBits s c
  let on := bankOn s 4
  let data := if on then data % 2 ^ n else 0
  let trailing := trailing && on
  let timeout := timeout || !on
  if !flag s ENC.CFG_EN c || !isSerial s c then s
  else if getF s ENC.CFG_MODE c = 3 then
    if timeout then readingFails (setF s ENC.STAT_TMOUT 1 c) c
    else
      let want := 63 - crcMsb 6 0x03 0 (msbBits n data ++ [nerr, nwarn])
      let s := if nwarn then s else setF s ENC.STAT_WARN 1 c
      if crc % 64 ≠ want ∨ !nerr then readingFails s c else readingGood s c data stamp
  else if trailing then readingFails s c
  else readingGood s c (if flag s ENC.SER_GRAY c then fromGray data n else data) stamp

/-! Index (R375). -/

/-- An accepted edge of FBc_Z. -/
def indexEdge (s : State) (c : Nat) (rising : Bool) : State :=
  let ch := channelOf s c
  let mode := getF s ENC.CFG_IDXMODE c
  if !flag s ENC.CFG_EN c || !bankOn s 4 || isSerial s c || mode == 0 || rising == flag s ENC.CFG_ZINV c || ch.indexed then s
  else
    let cpr := countsPerRev s c
    let corr := if mode = 2 then signed (getP s ENC.CORR c) 64 else 0
    let r := ((wrapped s c : Int) - (getF s ENC.IDXPOS c + corr)) % (cpr : Int)
    let d := if (cpr : Int) ≤ 2 * r then r - cpr else r
    let s := setChannel s c { ch with indexed := true }
    let s := setF (setF s ENC.IDXCAP (wrapped s c) c) ENC.IDXERR (unsign d 32) c
    let s := if getF s ENC.IDXTOL_TOL c < d.natAbs then
        forEach [0, 6] (incF s ENC.IDXCNT c) (fun s f => raiseEvent s f 0x0603 c (unsign d 64))
      else s
    if mode = 2 then setP s ENC.CORR (unsign (signed (getP s ENC.CORR c) 64 + d) 64) c else s

/-! Speed (R376) and freeze (R381). -/

/-- A 10 µs window ends. -/
def speedWindow (s : State) (c : Nat) : State :=
  if !flag s ENC.CFG_EN c || isSerial s c then s
  else
    let ch := channelOf s c
    let v := (ch.x - ch.windowX) * 100000 * 65536
    let n := ch.windowEdges
    let s := setChannel s c { ch with windowX := ch.x, windowEdges := 0 }
    if getF s ENC.STAT_STATE c ≠ 1 then s
    else if 64 ≤ n ∨ (flag s ENC.STAT_SPDMODE c ∧ 32 < n) then
      setF (setF (setP s ENC.SPEED (unsign v 64) c) ENC.STAT_SPDMODE 1 c) ENC.STAT_SPDVALID 1 c
    else if flag s ENC.STAT_SPDMODE c then
      setF (setF s ENC.STAT_SPDMODE 0 c) ENC.STAT_SPDVALID (bnat (match ch.edge with | some e => e.delta.isSome | none => false)) c
    else s

/-- No counted edge, or no change of a serial reading, for TMO ms: the speed is 0, and valid. -/
def standstill (s : State) (c : Nat) : State :=
  let ch := channelOf s c
  let last := if isSerial s c then ch.movedFrc else match ch.edge with | some e => Nat.max ch.since e.frc | none => ch.since
  if getF s ENC.STAT_STATE c = 1 ∧ last + 1250000 * Nat.max 1 (getF s ENC.SPDCFG_TMO c) ≤ s.frc then
    setF (setF (setP (setChannel s c { ch with edge := none }) ENC.SPEED 0 c) ENC.STAT_SPDMODE 0 c) ENC.STAT_SPDVALID 1 c
  else s

/-- No count has changed for FRZTIME ms while an effort was above FRZEFF. -/
def frozen (s : State) (c : Nat) : State :=
  let t := getF s ENC.LOSS_FRZTIME c
  let ch := channelOf s c
  if t ≠ 0 ∧ effortHigh s c ∧ Nat.max ch.movedFrc ch.quietFrc + 1250000 * t ≤ s.frc then
    channelFails (setChannel s c { ch with badFrc := s.frc }) c true
  else s

/-! Enables (R369, R373, R377, R379, R382). -/

/-- A configuration that refuses EN. -/
def channelBad (s : State) (c : Nat) : Bool :=
  let mode := getF s ENC.CFG_MODE c
  let mt := getF s ENC.SER_MTBITS c
  let st := getF s ENC.SER_STBITS c
  let clk := getF s ENC.SER_CLK c + 1
  let per := 10 * getF s ENC.SERPER_PERIOD c
  let parts : Bool := st == 0 || decide (32 < st) || decide (24 < mt)
  decide (5 ≤ mode) || getF s ENC.CFG_IDXMODE c == 3 ||
    (mode == 3 && (parts || decide (40 < mt + st) || decide (per < (mt + st + 9) * clk))) ||
    (mode == 4 && (parts || decide (32 < mt + st) || decide (clk < 5) || decide (per < (mt + st + 1) * clk)))

/-- A write of ENC.CFG[c].EN, after the other fields. -/
def channelEnable (s : State) (c : Nat) (en : Bool) : State :=
  if !en then
    if flag s ENC.CFG_EN c then wakeWaits (setF (setF (setF s ENC.CFG_EN 0 c) ENC.STAT_STATE 0 c) ENC.STAT_SPDVALID 0 c) else s
  else if flag s ENC.CFG_EN c then s
  else if channelBad s c then setF s ENC.ERR_CFG 1
  else
    let s := setChannel s c { Channel.fresh with levels := (channelOf s c).levels, movedFrc := s.frc, quietFrc := s.frc, since := s.frc }
    let s := setP (setP (setF s ENC.CFG_EN 1 c) ENC.CORR 0 c) ENC.SPEED 0 c
    let s := setF (setF (setF s ENC.STAT_SPDVALID 0 c) ENC.STAT_SPDMODE 0 c) ENC.STAT_DIR 0 c
    setF s ENC.STAT_STATE 1 c

/-- Lines a generator has passed at its enable. -/
def passBelow (s : State) (j : Nat) : State :=
  let x := (channelOf s (getF s ENC.LTGCFG_SRC j)).x
  passLines (lineFuel s j x) s j x

/-- A write of ENC.LTGCFG[j].EN, after the other fields. -/
def generatorEnable (s : State) (j : Nat) (en : Bool) : State :=
  if !en then
    if !generatorOn s j then s
    else if (upto 4).any (fun g => getF s LDE.PGTIM_LTG g == j && groupPrinting s g) then setF s ENC.ERR_LTG_BUSY 1
    else wakeWaits (setF s ENC.LTGCFG_EN 0 j)
  else if generatorOn s j then s
  else if 12 ≤ getF s ENC.LTGCFG_SRC j ∨ lineSpacing s j = 0 then setF s ENC.ERR_CFG 1
  else
    let fresh := (upto 4).filter (fun g => getF s LDE.PGTIM_LTG g == j)
    let s : State := { s with lode := { s.lode with hitFrc := s.lode.hitFrc.filter (fun e => !fresh.contains e.1) } }
    passBelow (setF (setGenerator s j ⟨getP s ENC.LTGLN j, 0, s.frc⟩) ENC.LTGCFG_EN 1 j) j

/-- ENC.CTL[c].CLR (R382): refused until the cause, an illegal transition, a failed or missing reading, or the freeze, has been
absent for 1 ms; the generators that follow resume without the triggers passed. -/
def channelClear (s : State) (c : Nat) : State :=
  if getF s ENC.STAT_STATE c < 2 ∨ s.frc < (channelOf s c).badFrc + 1250000 ∨ readingsOverdue s c then setF s ENC.ERR_CLR_REF 1
  else
    let s := setChannel (setF s ENC.STAT_STATE 1 c) c { channelOf s c with edge := none, failed := 0, illegal := [], movedFrc := s.frc, since := s.frc }
    forEach (followers s c) s passBelow

/-- ENC_TRANSITION: new accepted levels of A, B and Z in bits 0 to 2. -/
def execEncTransition (c : Fin 12) (levels : Fin 8) (s : State) : Result := .next (whenUp pllMotion s (runLedgers (transition s c levels)))
/-- SERIAL_READING: a frame of a BISS or SSI encoder, whose first falling edge of SC came so many ticks ago. -/
def execSerialReading (c : Fin 12) (data : Nat) (nerr nwarn : Bool) (crc : Nat) (trailing timeout : Bool) (ago : Nat) (s : State) : Result :=
  .next (whenUp pllMotion s (runLedgers (serialReading s c data nerr nwarn crc trailing timeout (s.frc - ago))))
/-- INDEX_EDGE: an accepted edge of Z. -/
def execIndexEdge (c : Fin 12) (rising : Bool) (s : State) : Result := .next (whenUp pllMotion s (indexEdge s c rising))
/-- SPEED_WINDOW. -/
def execSpeedWindow (c : Fin 12) (s : State) : Result := .next (whenUp pllMotion s (speedWindow s c))
/-- STANDSTILL. -/
def execStandstill (c : Fin 12) (s : State) : Result := .next (whenUp pllMotion s (standstill s c))
/-- FB_FROZEN. -/
def execFbFrozen (c : Fin 12) (s : State) : Result := .next (whenUp pllMotion s (frozen s c))

end Sys2Proof.Machine
end

