-- ==== Sys2Proof/Machine/Brofer.lean ====
section
/-!
DEFINITION. The core instructions of Brofer that reach no memory: ALU and immediate operations, branches and jumps, special
registers, fences, waits for events, EXIT, and debug (R184 to R195, R203, R208, R211, R214, R215).
-/

namespace Sys2Proof.Machine


/-! ALU operations (R190). -/

/-- An operation on two registers. -/
def alu (c : CoreId) (rd ra rb : GReg) (f : Word → Word → Word) (s : State) : State :=
  runInstr c (fun k s => .ok (writeG s k rd (f (readG s k ra) (readG s k rb)))) s

/-- Sets the sticky STATUS bits (R185). -/
def raiseStatus (s : State) (k : Nat) (sat ovf : Bool) : State :=
  let r := coreOf s k
  setCore s k { r with sat := r.sat || sat, ovf := r.ovf || ovf }

/-- An operation on two registers that may set SAT and OVF. -/
def aluFlags (c : CoreId) (rd ra rb : GReg) (f : Word → Word → Word) (sat ovf : Word → Word → Bool) (s : State) : State :=
  runInstr c (fun k s =>
    let a := readG s k ra
    let b := readG s k rb
    .ok (writeG (raiseStatus s k (sat a b) (ovf a b)) k rd (f a b))) s

/-- An operation on one register. -/
def alu1 (c : CoreId) (rd ra : GReg) (f : Word → Word) (s : State) : State :=
  runInstr c (fun k s => .ok (writeG s k rd (f (readG s k ra)))) s

def boolWord (b : Bool) : Word := if b then 1 else 0

/-- The least and the greatest signed word. -/
def minWord : Int := -(2 ^ 63)
def maxWord : Int := 2 ^ 63 - 1

/-- Whether an integer is no signed word. -/
def outside (i : Int) : Bool := decide (i < minWord) || decide (maxWord < i)

def never (_ _ : Word) : Bool := false

/-- High 64 bits of the signed and of the unsigned product. -/
def mulHigh (a b : Word) : Word := BitVec.ofInt 64 (a.toInt * b.toInt / 2 ^ 64)
def mulHighU (a b : Word) : Word := BitVec.ofNat 64 (a.toNat * b.toNat / 2 ^ 64)

/-- The corners in which a signed division sets OVF. -/
def divCorner (a b : Word) : Bool := b == 0 || (decide (a.toInt = minWord) && decide (b.toInt = -1))

def divSigned (a b : Word) : Word := if b = 0 then -1 else BitVec.ofInt 64 (Int.tdiv a.toInt b.toInt)
def divUnsigned (a b : Word) : Word := if b = 0 then -1 else BitVec.ofNat 64 (a.toNat / b.toNat)
def remSigned (a b : Word) : Word := if b = 0 then a else a - b * divSigned a b
def remUnsigned (a b : Word) : Word := if b = 0 then a else BitVec.ofNat 64 (a.toNat % b.toNat)
def divZero (_ b : Word) : Bool := b == 0

def addSat (a b : Word) : Word := BitVec.ofInt 64 (clampInt minWord maxWord (a.toInt + b.toInt))
def subSat (a b : Word) : Word := BitVec.ofInt 64 (clampInt minWord maxWord (a.toInt - b.toInt))
def addOut (a b : Word) : Bool := outside (a.toInt + b.toInt)
def subOut (a b : Word) : Bool := outside (a.toInt - b.toInt)
def mulOut (a b : Word) : Bool := outside (a.toInt * b.toInt)

/-- Counts of leading zeros, trailing zeros and set bits. -/
def leadingZeros (a : Word) : Word := if a = 0 then 64 else BitVec.ofNat 64 (63 - Nat.log2 a.toNat)
def trailingZeros (a : Word) : Word := BitVec.ofNat 64 (((upto 64).find? (fun i => bit a.toNat i)).getD 64)
def setBitCount (a : Word) : Word := BitVec.ofNat 64 ((upto 64).filter (fun i => bit a.toNat i)).length

/-- A shift amount: rb[5:0]. -/
def amount (b : Word) : Nat := b.toNat % 64

def execAdd (c : CoreId) (rd ra rb : GReg) (s : State) : Result := .next (whenUp pllControl s (alu c rd ra rb (fun a b => a + b) s))
def execSub (c : CoreId) (rd ra rb : GReg) (s : State) : Result := .next (whenUp pllControl s (alu c rd ra rb (fun a b => a - b) s))
def execAnd (c : CoreId) (rd ra rb : GReg) (s : State) : Result := .next (whenUp pllControl s (alu c rd ra rb (fun a b => a &&& b) s))
def execOr (c : CoreId) (rd ra rb : GReg) (s : State) : Result := .next (whenUp pllControl s (alu c rd ra rb (fun a b => a ||| b) s))
def execXor (c : CoreId) (rd ra rb : GReg) (s : State) : Result := .next (whenUp pllControl s (alu c rd ra rb (fun a b => a ^^^ b) s))
def execSll (c : CoreId) (rd ra rb : GReg) (s : State) : Result := .next (whenUp pllControl s (alu c rd ra rb (fun a b => a <<< amount b) s))
def execSrl (c : CoreId) (rd ra rb : GReg) (s : State) : Result := .next (whenUp pllControl s (alu c rd ra rb (fun a b => a >>> amount b) s))
def execSra (c : CoreId) (rd ra rb : GReg) (s : State) : Result := .next (whenUp pllControl s (alu c rd ra rb (fun a b => a.sshiftRight (amount b)) s))
def execSlt (c : CoreId) (rd ra rb : GReg) (s : State) : Result := .next (whenUp pllControl s (alu c rd ra rb (fun a b => boolWord (a.slt b)) s))
def execSltu (c : CoreId) (rd ra rb : GReg) (s : State) : Result := .next (whenUp pllControl s (alu c rd ra rb (fun a b => boolWord (a.ult b)) s))
def execMul (c : CoreId) (rd ra rb : GReg) (s : State) : Result := .next (whenUp pllControl s (alu c rd ra rb (fun a b => a * b) s))
def execMulh (c : CoreId) (rd ra rb : GReg) (s : State) : Result := .next (whenUp pllControl s (alu c rd ra rb mulHigh s))
def execMulhu (c : CoreId) (rd ra rb : GReg) (s : State) : Result := .next (whenUp pllControl s (alu c rd ra rb mulHighU s))
def execDiv (c : CoreId) (rd ra rb : GReg) (s : State) : Result := .next (whenUp pllControl s (aluFlags c rd ra rb divSigned never divCorner s))
def execDivu (c : CoreId) (rd ra rb : GReg) (s : State) : Result := .next (whenUp pllControl s (aluFlags c rd ra rb divUnsigned never divZero s))
def execRem (c : CoreId) (rd ra rb : GReg) (s : State) : Result := .next (whenUp pllControl s (aluFlags c rd ra rb remSigned never divCorner s))
def execRemu (c : CoreId) (rd ra rb : GReg) (s : State) : Result := .next (whenUp pllControl s (aluFlags c rd ra rb remUnsigned never divZero s))
def execAdds (c : CoreId) (rd ra rb : GReg) (s : State) : Result := .next (whenUp pllControl s (aluFlags c rd ra rb addSat addOut never s))
def execSubs (c : CoreId) (rd ra rb : GReg) (s : State) : Result := .next (whenUp pllControl s (aluFlags c rd ra rb subSat subOut never s))
def execAddv (c : CoreId) (rd ra rb : GReg) (s : State) : Result := .next (whenUp pllControl s (aluFlags c rd ra rb (fun a b => a + b) never addOut s))
def execSubv (c : CoreId) (rd ra rb : GReg) (s : State) : Result := .next (whenUp pllControl s (aluFlags c rd ra rb (fun a b => a - b) never subOut s))
def execMulv (c : CoreId) (rd ra rb : GReg) (s : State) : Result := .next (whenUp pllControl s (aluFlags c rd ra rb (fun a b => a * b) never mulOut s))
def execMin (c : CoreId) (rd ra rb : GReg) (s : State) : Result := .next (whenUp pllControl s (alu c rd ra rb (fun a b => if a.slt b then a else b) s))
def execMax (c : CoreId) (rd ra rb : GReg) (s : State) : Result := .next (whenUp pllControl s (alu c rd ra rb (fun a b => if a.slt b then b else a) s))
def execMinu (c : CoreId) (rd ra rb : GReg) (s : State) : Result := .next (whenUp pllControl s (alu c rd ra rb (fun a b => if a.ult b then a else b) s))
def execMaxu (c : CoreId) (rd ra rb : GReg) (s : State) : Result := .next (whenUp pllControl s (alu c rd ra rb (fun a b => if a.ult b then b else a) s))
def execClz (c : CoreId) (rd ra : GReg) (s : State) : Result := .next (whenUp pllControl s (alu1 c rd ra leadingZeros s))
def execCtz (c : CoreId) (rd ra : GReg) (s : State) : Result := .next (whenUp pllControl s (alu1 c rd ra trailingZeros s))
def execPopc (c : CoreId) (rd ra : GReg) (s : State) : Result := .next (whenUp pllControl s (alu1 c rd ra setBitCount s))

/-! Immediate operations (R191). -/

def sext16 (i : BitVec 16) : Word := i.signExtend 64
def zext16 (i : BitVec 16) : Word := i.zeroExtend 64

def execAddi (c : CoreId) (rd ra : GReg) (imm : BitVec 16) (s : State) : Result := .next (whenUp pllControl s (alu1 c rd ra (fun a => a + sext16 imm) s))
def execAndi (c : CoreId) (rd ra : GReg) (imm : BitVec 16) (s : State) : Result := .next (whenUp pllControl s (alu1 c rd ra (fun a => a &&& zext16 imm) s))
def execOri (c : CoreId) (rd ra : GReg) (imm : BitVec 16) (s : State) : Result := .next (whenUp pllControl s (alu1 c rd ra (fun a => a ||| zext16 imm) s))
def execXori (c : CoreId) (rd ra : GReg) (imm : BitVec 16) (s : State) : Result := .next (whenUp pllControl s (alu1 c rd ra (fun a => a ^^^ zext16 imm) s))
def execShori (c : CoreId) (rd ra : GReg) (imm : BitVec 16) (s : State) : Result :=
  .next (whenUp pllControl s (alu1 c rd ra (fun a => (a <<< 16) ||| zext16 imm) s))
def execSlti (c : CoreId) (rd ra : GReg) (imm : BitVec 16) (s : State) : Result :=
  .next (whenUp pllControl s (alu1 c rd ra (fun a => boolWord (a.slt (sext16 imm))) s))
def execSltiu (c : CoreId) (rd ra : GReg) (imm : BitVec 16) (s : State) : Result :=
  .next (whenUp pllControl s (alu1 c rd ra (fun a => boolWord (a.ult (sext16 imm))) s))
def execShiLeft (c : CoreId) (rd ra : GReg) (sh : Fin 64) (s : State) : Result := .next (whenUp pllControl s (alu1 c rd ra (fun a => a <<< sh.val) s))
def execShiRightLogical (c : CoreId) (rd ra : GReg) (sh : Fin 64) (s : State) : Result :=
  .next (whenUp pllControl s (alu1 c rd ra (fun a => a >>> sh.val) s))
def execShiRightArith (c : CoreId) (rd ra : GReg) (sh : Fin 64) (s : State) : Result :=
  .next (whenUp pllControl s (alu1 c rd ra (fun a => a.sshiftRight sh.val) s))
def execShiRotate (c : CoreId) (rd ra : GReg) (sh : Fin 64) (s : State) : Result :=
  .next (whenUp pllControl s (alu1 c rd ra (fun a => a.rotateRight sh.val) s))

/-! Branches and jumps (R194). -/

/-- A branch: the target is pc + sext(off16) × 4. -/
def branch (c : CoreId) (ra rb : GReg) (off : BitVec 16) (p : Word → Word → Bool) (s : State) : State :=
  runInstr c (fun k s =>
    if p (readG s k ra) (readG s k rb) then .goto s ((coreOf s k).pc + sext16 off * 4) else .ok s) s

def execBeq (c : CoreId) (ra rb : GReg) (off : BitVec 16) (s : State) : Result := .next (whenUp pllControl s (branch c ra rb off (fun a b => a == b) s))
def execBne (c : CoreId) (ra rb : GReg) (off : BitVec 16) (s : State) : Result := .next (whenUp pllControl s (branch c ra rb off (fun a b => a != b) s))
def execBlt (c : CoreId) (ra rb : GReg) (off : BitVec 16) (s : State) : Result := .next (whenUp pllControl s (branch c ra rb off (fun a b => a.slt b) s))
def execBge (c : CoreId) (ra rb : GReg) (off : BitVec 16) (s : State) : Result := .next (whenUp pllControl s (branch c ra rb off (fun a b => !a.slt b) s))
def execBltu (c : CoreId) (ra rb : GReg) (off : BitVec 16) (s : State) : Result := .next (whenUp pllControl s (branch c ra rb off (fun a b => a.ult b) s))
def execBgeu (c : CoreId) (ra rb : GReg) (off : BitVec 16) (s : State) : Result := .next (whenUp pllControl s (branch c ra rb off (fun a b => !a.ult b) s))

def jumpOff (off : BitVec 26) : Word := off.signExtend 64 * 4

def execJ (c : CoreId) (off : BitVec 26) (s : State) : Result :=
  .next (whenUp pllControl s (runInstr c (fun k s => .goto s ((coreOf s k).pc + jumpOff off)) s))
def execJal (c : CoreId) (off : BitVec 26) (s : State) : Result :=
  .next (whenUp pllControl s (runInstr c (fun k s =>
    let pc := (coreOf s k).pc
    .goto (writeG s k 31 (pc + 4)) (pc + jumpOff off)) s))
def execJalr (c : CoreId) (rd ra : GReg) (s : State) : Result :=
  .next (whenUp pllControl s (runInstr c (fun k s =>
    let t := readG s k ra
    if t.toNat % 4 ≠ 0 then .fault 2 t.toNat else .goto (writeG s k rd ((coreOf s k).pc + 4)) t) s))

/-! Special registers (R185 to R187). -/

/-- TIMER of a Reed core now: it counts down by 1 per control clock (s18). -/
def timerNow (s : State) (r : Core) : Nat := r.timer.toNat - cyclesSince s r.timerFrc

/-- The value of a special register (Table: special registers); a reserved one reads 0. -/
def specialRead (s : State) (k : Nat) (sr : Nat) : Word :=
  let r := coreOf s k
  if sr = 0 then word (bnat r.sat + 2 * bnat r.ovf)
  else if sr = 1 then word (if isThread k then 32 + 256 * k else k - 16)
  else if sr = 2 then word (hostFn s k)
  else if sr = 3 then word (r.hwin.toNat * 2 ^ 47)
  else if sr = 4 then word (cyclesSince s r.wokeFrc)
  else if sr = 5 then word s.frc
  else if sr = 6 then word (freeTags s k).length
  else if sr = 14 then word (if isThread k then r.pbase else 0x7F0003000000 + 0x20000 * (k - 16))
  else if sr = 15 then word (if isThread k then r.plen else 65536)
  else if isThread k then
    (if sr = 7 then word (getF s CWY.TSTAT_QUEUE k + 64 * getF s CWY.TSTAT_BOUND k)
     else if 8 ≤ sr ∧ sr ≤ 11 then r.args.getD (sr - 8) 0
     else if sr = 12 then word r.qseq.toNat
     else if sr = 13 then word r.eflags.toNat
     else 0)
  else if sr = 16 then r.event.zeroExtend 64
  else if sr = 17 then r.evmask
  else if sr = 18 then word (timerNow s r)
  else 0

/-- Writes a special register; none where it is reserved or read-only (R187). -/
def specialWrite (s : State) (k : Nat) (sr : Nat) (v : Word) : Option State :=
  let r := coreOf s k
  if sr = 0 then some (setCore s k { r with sat := bit v.toNat 0, ovf := bit v.toNat 1 })
  else if sr = 3 then some (setCore s k { r with hwin := BitVec.ofNat 17 (v.toNat / 2 ^ 47) })
  else if isThread k then none
  else if sr = 2 then some (setCore s k { r with hostfn := v.toNat % 8 })
  else if sr = 16 then some (setCore s k { r with event := r.event &&& ~~~(v.setWidth 4) })
  else if sr = 17 then some (setCore s k { r with evmask := v })
  else if sr = 18 then
    let due : Bool := r.timer != 0 && timerNow s r == 0
    some (setCore s k { r with timer := v, timerFrc := s.frc, event := if due then r.event ||| 4 else r.event })
  else none

def execMfs (c : CoreId) (rd : GReg) (sr : Fin 64) (s : State) : Result :=
  .next (whenUp pllControl s (runInstr c (fun k s => .ok (writeG s k rd (specialRead s k sr))) s))
def execMts (c : CoreId) (ra : GReg) (sr : Fin 64) (s : State) : Result :=
  .next (whenUp pllControl s (runInstr c (fun k s =>
    match specialWrite s k sr (readG s k ra) with | some s' => .ok s' | none => .fault 9 0) s))

/-! FENCE, YIELD, WFE, BRK (R195, R203). -/

/-- Whether a core has posted writes that wait for their function to be enabled. -/
def storesWait (s : State) (k : Nat) : Nat := (s.host.heldWrites.filter (fun w => w.core == some k)).length

/-- The model performs a core's accesses in program order. So SL and SS wait only for stores held back by a disabled function, and
HOST for its zero-length read. -/
def execFence (c : CoreId) (kind : BitVec 6) (s : State) : Result :=
  .next (whenUp pllControl s (runInstr c (fun k s =>
    if kind = 0 then .fault 1 0
    else if bit kind.toNat 4 then
      let s := stallOn s k .hostFence
      .hold (if fnDisabled s (hostFn s k) then s else send s (.hostRead (hostFn s k) 0 0))
    else if (bit kind.toNat 2 || bit kind.toNat 3) && storesWait s k != 0 then .hold (stallOn s k .memory)
    else .ok s) s))

def execYield (c : CoreId) (s : State) : Result := .next (whenUp pllControl s (runInstr c (fun _ s => .ok s) s))

/-- Whether an enabled event of a Reed core is set. -/
def eventDue (r : Core) : Bool := decide (r.event.zeroExtend 64 &&& r.evmask ≠ 0)

def execWfe (c : CoreId) (ra : GReg) (s : State) : Result :=
  .next (whenUp pllControl s (runInstr c (fun k s =>
    if isThread k then .fault 1 0
    else if eventDue (coreOf s k) then .ok s
    else
      let n := (readG s k ra).toNat
      .hold (stallOn s k (.wfe (if n = 0 then none else some (s.frc + ceilDiv (5 * n) 4))))) s))

/-- A stalled WFE ends (R195). -/
def execWfeWake (c : CoreId) (s : State) : Result :=
  let k := coreNum c
  let r := coreOf s k
  .next (whenUp pllControl s (match r.stall with
    | .wfe d =>
      if running s k && (eventDue r || (match d with | some t => decide (t ≤ s.frc) | none => false)) then
        retire s k (r.pc + 4) none
      else s
    | _ => s))

def execBrk (c : CoreId) (code : BitVec 6) (s : State) : Result := .next (whenUp pllControl s (runInstr c (fun _ _ => .fault 10 code.toNat) s))

/-- A reserved opcode, fn or sub-operation, or a field that must be 0 (R188, R189). -/
def execReservedOpcode (c : CoreId) (_ : Reg32) (s : State) : Result := .next (whenUp pllControl s (runInstr c (fun _ _ => .fault 1 0) s))

/-! EXIT (R208, R211). -/

def execExit (c : CoreId) (ra : GReg) (s : State) : Result :=
  .next (whenUp pllControl s (runInstr c (fun k s => .hold (stallOn s k (.exit (BitVec.ofNat 32 (readG s k ra).toNat)))) s))

/-- The program of a thread, or the image of a Reed core, ends. While its function is disabled a thread's completion is held, and
the thread stays bound (R257, R263). -/
def exitCore (s : State) (k : Nat) (result : Reg32) : State :=
  if isThread k then
    let q := getF s CWY.TSTAT_QUEUE k
    if flag s CWY.TSTAT_BOUND k then
      match (queueOf s q).entry with
      | some e =>
        if fnDisabled s (getF s PCI.QCFG_FN q) then holdEnd s k q e
        else finishDisable (postCompletion (unbindThread s k) q e 0 result.toNat 0 0) q
      | none => unbindThread s k
    else
      let s := setF (unbindThread s k) SEC.BOOTSTAT_STATE 2
      raiseEvent s 0 0x0901 (regRaw s (SEC.BOOTSTAT.off 0)).toNat result.toNat
  else
    let n := k - 16
    let s := setCore s k { coreOf s k with stall := .none, stepping := false }
    let s := regPut (setF s RDC.STAT_STATE 6 n) (RDC.EXITVAL.off n) result
    raiseEvent s 0 3 n result.toNat

def execExitComplete (c : CoreId) (s : State) : Result :=
  let k := coreNum c
  .next (whenUp pllControl s (match (coreOf s k).stall with
    | .exit v => if running s k && (opsOf s k).isEmpty then exitCore s k v else s
    | _ => s))

/-! Reed events (s16). -/

/-- Sets a bit of EVENT. -/
def setEvent (s : State) (k i : Nat) : State :=
  let r := coreOf s k
  setCore s k { r with event := r.event ||| BitVec.ofNat 4 (2 ^ i) }

/-- TIMER reaches 0 (s18). -/
def execReedTimerExpire (n : Fin 32) (s : State) : Result :=
  let k := 16 + n.val
  let r := coreOf s k
  .next (whenUp pllControl s (if r.timer ≠ 0 ∧ timerNow s r = 0 then setEvent (setCore s k { r with timer := 0 }) k 2 else s))

def execReedDoorbell (n : Fin 32) (s : State) : Result := .next (whenUp pllControl s (setEvent s (16 + n.val) 0))

/-- A write to RDC.CTL.RUN (Table: RDC.CTL[n]). A core halted at a stalled instruction executes it again when it continues. -/
def reedRun (s : State) (n : Nat) (run : Bool) : State :=
  let s := setF s RDC.CTL_RUN (bnat run) n
  let st := getF s RDC.STAT_STATE n
  if run && st == 2 then setF s RDC.STAT_STATE 3 n
  else if !run && st == 3 then setF (dropStall s (16 + n)) RDC.STAT_STATE 2 n
  else s

/-! Debug (R214, R215). -/

/-- Whether a HALT of a core is refused: reed8 to reed19 while any group prints. -/
def haltRefused (s : State) (k : Nat) : Bool :=
  decide (24 ≤ k) && decide (k < 36) && s.ledger.frames.any (fun e => !e.2.released && (e.2.state == 3 || e.2.state == 4))

def debugHalt (s : State) (k : Nat) : State :=
  if !debugUnlocked s then s
  else if haltRefused s k then setF s RDC.DBGCTL_REFUSED 1 (k - 16)
  else if running s k then enterDebug (dropStall s k) k
  else s

/-- Leaves DEBUG, for one instruction where `step`. -/
def debugGo (s : State) (k : Nat) (step : Bool) : State :=
  if debugUnlocked s && coreState s k == stDebug k then
    let s := setHalted (setCoreState s k (stRunning k)) k false
    setCore s k { coreOf s k with stepping := step, bpSkip := true }
  else s

/-- The register DBGSEL selects. -/
def debugSel (s : State) (k : Nat) : Nat := if isThread k then getF s CWY.DBGSEL_REG k else getF s RDC.DBGSEL_REG (k - 16)

/-- DBGDATA of a core; 0 unless it is halted and debug unlocked. -/
def debugRead (s : State) (k : Nat) : Word :=
  if debugUnlocked s && coreState s k == stDebug k then
    let n := debugSel s k
    if n < 32 then mget (mdel (coreOf s k).g 0) n 0
    else if n = 32 then (coreOf s k).pc
    else if 64 ≤ n then specialRead s k (n - 64)
    else 0
  else 0

/-- A write to DBGDATA: it follows R184 and R187, without faulting. -/
def debugWrite (s : State) (k : Nat) (v : Word) : State :=
  if debugUnlocked s && coreState s k == stDebug k then
    let n := debugSel s k
    let r := coreOf s k
    if n = 0 then s
    else if n < 32 then setCore s k { r with g := mput r.g n v }
    else if n = 32 then setCore s k { r with pc := v, jumpFrom := 0 }
    else if 64 ≤ n then (specialWrite s k (n - 64) v).getD s
    else s
  else s

def execDebugHalt (c : CoreId) (s : State) : Result := .next (whenUp pllControl s (debugHalt s (coreNum c)))
def execDebugResume (c : CoreId) (s : State) : Result := .next (whenUp pllControl s (debugGo s (coreNum c) false))
def execDebugStep (c : CoreId) (s : State) : Result := .next (whenUp pllControl s (debugGo s (coreNum c) true))
def execDbgdataWrite (c : CoreId) (v : Word) (s : State) : Result := .next (whenUp pllControl s (debugWrite s (coreNum c) v))

/-- The next instruction bears an enabled breakpoint (Table: debug access). -/
def execBreakpointHalt (c : CoreId) (s : State) : Result :=
  let k := coreNum c
  .next (whenUp pllControl s (if ready s k && catches s k && !(coreOf s k).bpSkip && inProgram (coreOf s k) (coreOf s k).pc && atBreakpoint s k then
      enterDebug s k
    else s))

/-! CLEAR of a thread (Table: CWY.TCTL[t]). -/

/-- A write of 1 to CLEAR: a FAULTED thread returns to IDLE once its completion has been posted. -/
def threadClear (s : State) (t : Nat) : State :=
  if getF s CWY.TSTAT_STATE t ≠ 2 then s
  else if (queueOf s (getF s CWY.TSTAT_QUEUE t)).entry.isSome ∧ flag s CWY.TSTAT_BOUND t then
    setCore s t { coreOf s t with clearHeld := true }
  else unbindThread s t

def execThreadClear (t : Fin 16) (s : State) : Result := .next (whenUp pllControl s (threadClear s t))

end Sys2Proof.Machine
end

