-- ==== Sys2Proof/Machine/Mere.lean ====
section
/-!
DEFINITION. Mere in-line inspection: cameras, images, registration, comparison, defects, evidence, and the updates of its
firmware (R159 to R183).
-/

namespace Sys2Proof.Machine

/-! Defect records (R173). -/

/-- What a defect record says (Table: defect record). -/
structure DefectRec where
  cls : Nat
  light : Bool
  cam : Nat
  group : Nat
  fsn : Option Nat
  peak : Nat
  lines : Nat
  gline : Nat
  pfirst : Nat
  plast : Nat
  a : Nat
  st : Nat

def DefectRec.bytes (d : DefectRec) : List Byte :=
  toBytes 2 (d.cls + 16 * bnat d.light + 32 * d.cam + 64 * d.group + 256 * bnat d.fsn.isNone) ++
  toBytes 2 (Nat.min 0xFFFF d.peak) ++ toBytes 4 d.lines ++ toBytes 8 (d.fsn.getD 0) ++ toBytes 8 d.gline ++
  toBytes 2 d.pfirst ++ toBytes 2 d.plast ++ toBytes 4 (d.a + 2 ^ 23 * d.st)

/-- Entries of the defect ring. -/
def defectSize (s : State) : Nat := 2 ^ Nat.min 16 (Nat.max 6 (getF s MER.DRCFG_SIZE))

/-- Writes a record to the ring, or drops it where the ring is full. -/
def putDefect (s : State) (bs : List Byte) : State :=
  let head := getF s MER.DRHEAD
  if defectSize s ≤ (head + 2 ^ 32 - getF s MER.DRTAIL) % 2 ^ 32 then setF (incF s MER.DRLOST) MER.ERR_DRING_FULL 1
  else
    let base := getP s MER.DRBASE / 4096 * 4096
    setF (hostWrite s 5 (base + 32 * (head % defectSize s)) bs) MER.DRHEAD (head + 1)

/-- A defect record is made: written, held on chip while PF5 is disabled, or lost. -/
def addDefect (s : State) (d : DefectRec) : State :=
  if !flag s MER.DRCFG_EN then s
  else if fnDisabled s 5 then
    (if s.mere.queue.length < 256 then { s with mere := { s.mere with queue := s.mere.queue ++ [d.bytes] } }
     else setF (incF s MER.DRLOST) MER.ERR_DRING_FULL 1)
  else putDefect s d.bytes

/-- PF5 is enabled again: the records that waited on chip are written, and strips are no longer refused (R173, R182). -/
def mereEnabled (s : State) : State :=
  let l := s.mere.queue
  let s := { s with mere := { s.mere with queue := [], stripHeld := false } }
  if fnDisabled s 5 then { s with mere := { s.mere with queue := l } } else forEach l s putDefect

/-- DEFECT is raised while the ring holds records, at most once in 100 µs. -/
def defectEvent (s : State) : State :=
  let due : Bool := match s.mere.lastEvent with | some t => decide (t + 125000 ≤ s.frc) | none => true
  if getF s MER.DRHEAD ≠ getF s MER.DRTAIL ∧ due then
    raiseEvent { s with mere := { s.mere with lastEvent := some s.frc } } 5 0x0F 0 (getF s MER.DRHEAD)
  else s

/-! Enabling a camera (R164). -/

/-- What the discovery and the bootstrap of a camera come to. -/
def startCode : CameraStart → Nat
  | .ok => 0
  | .discovery => 6
  | .refused => 7

/-- The first check a camera fails. -/
def cameraCheck (s : State) (k : Nat) : Nat :=
  let g := getF s MER.CAMCFG_PG k
  let pix := camPix s k
  if !flag s MER.TBL_VALID then 1
  else if getF s MER.CAMCFG_NCONN k = 3 ∨ getF s MER.CAMCFG_SPEED k = 7 ∨ camDiv s k ≤ getF s MER.CAMCFG_PHASE k ∨
      pix < 16 ∨ 16384 < pix ∨ pix % 16 ≠ 0 then 2
  else if !groupOn s g || getF s LDE.GEOSTAT_STATE != 2 then 3
  else if cameraDelayBad s k then 4
  else if !mireLocked s || decide (regionSize s 4 < areaEnd s k) || decide (areaStart s k < 52 * 2 ^ 20) ||
      (decide (areaStart s k < areaEnd s (1 - k)) && decide (areaStart s (1 - k) < areaEnd s k)) then 5
  else 0

/-- RSTATE with which a stream starts, by NFID. -/
def startRstate (s : State) (k : Nat) : Nat := if getF s MER.FIDCFG_NFID (getF s MER.CAMCFG_PG k) = 0 then 0 else 1

/-- A write of 1 to EN (R164): the camera is checked and starts, from whatever state it was in. -/
def cameraEnable (s : State) (k : Nat) : State :=
  let s := setF (setF (setF s MER.CAMCFG_EN 1 k) MER.CAMREG_XADJ 0 k) MER.CAMREG_YADJ 0 k
  let s := setCamera s k (cameraOf s k).renew
  let code := cameraCheck s k
  if code ≠ 0 then cameraFault s k code
  else setF (setF (setF s MER.CAMSTAT_STATE 1 k) MER.CAMSTAT_CODE 0 k) MER.CAMSTAT_RSTATE (startRstate s k) k

/-- A write of 0 to EN: triggers stop, and lines in flight are discarded (R164). -/
def cameraDisable (s : State) (k : Nat) : State :=
  setF (setCamera (setF s MER.CAMCFG_EN 0 k) k (cameraOf s k).renew) MER.CAMSTAT_STATE 0 k

/-- Discovery and configuration of a camera end (R164). -/
def cameraStarted (s : State) (k : Nat) (r : CameraStart) : State :=
  if cameraState s k ≠ 1 then s
  else if startCode r = 0 then setF s MER.CAMSTAT_STATE 2 k
  else cameraFault s k (startCode r)

/-! The mailbox (R163). -/

/-- A write of 1 to GO. -/
def cameraGo (s : State) (k : Nat) : State :=
  if flag s MER.CCCTL_BUSY k then s
  else if cameraState s k ≠ 1 ∧ cameraState s k ≠ 2 then setF s MER.CCCTL_STATUS 3 k
  else
    let w := flag s MER.CCCTL_WRITE k
    let s := setCamera (setF s MER.CCCTL_BUSY 1 k) k { cameraOf s k with cmdWrite := w, cmdFrc := s.frc }
    sendPin s 2 (.cameraCommand k w (regRaw s (MER.CCADDR.off k)) (regRaw s (MER.CCDATA.off k)))

/-- The camera acknowledges the command: with the value read, or with its error code. -/
def cameraAck (s : State) (k : Nat) (error : Bool) (v : Reg32) : State :=
  if !flag s MER.CCCTL_BUSY k then s
  else
    let s := setF (setF s MER.CCCTL_BUSY 0 k) MER.CCCTL_STATUS (if error then 2 else 0) k
    if error || !(cameraOf s k).cmdWrite then regPut s (MER.CCDATA.off k) v else s

/-- The command has had no answer for 200 ms. -/
def cameraTimeout (s : State) (k : Nat) : State :=
  if flag s MER.CCCTL_BUSY k && decide ((cameraOf s k).cmdFrc + 250000000 ≤ s.frc) then
    setF (setF s MER.CCCTL_BUSY 0 k) MER.CCCTL_STATUS 1 k
  else s

/-- A camera event packet (R163). -/
def cameraEventPacket (s : State) (k v : Nat) : State :=
  if cameraState s k = 1 ∨ cameraState s k = 2 then raiseEvent s 5 0x10 k v else s

/-- Heartbeats have been missing for more than 1 s (R163). -/
def cameraLost (s : State) (k : Nat) : State :=
  if cameraState s k = 1 ∨ cameraState s k = 2 then
    raiseEvent (setF (setF s MER.CAMSTAT_STATE 3 k) MER.ERR_CAM_FAULT 1) 5 0x11 k 0
  else s

/-! Images (R162). -/

/-- Lines of an image. -/
def imageLines (s : State) (k : Nat) : Nat := Nat.max 1 (getF s MER.CAMIMG_IMGLINES k)

/-- The block a camera line triggered at `n` compares with (R165). -/
def blockOfTrigger (s : State) (k n : Nat) : Option Nat :=
  let d := camDiv s k
  let m : Int := (n : Int) - camDelay s k - camYadj s k - blockLag s k + (d / 2 : Nat)
  if m < 0 then none else some (m.toNat / d)

/-- First and last position a column covers, or lies at where it covers none. -/
def columnFirst (s : State) (k x : Nat) : Nat :=
  ((pixelPositions s k x).head?).getD (floorDiv (pixelStart s k x) 256).toNat
def columnLast (s : State) (k x : Nat) : Nat :=
  ((pixelPositions s k x).getLast?).getD (floorDiv (pixelStart s k x) 256).toNat

/-- A record that concerns a whole camera: MISREG and NO_IMAGE. Its extent is the camera's. -/
def cameraDefect (s : State) (k cls lines gline : Nat) (fsn : Option Nat) : State :=
  addDefect s ⟨cls, false, k, getF s MER.CAMCFG_PG k, fsn, 0, lines, gline, columnFirst s k 0, columnLast s k (camPix s k - 1), 0, 0⟩

/-- Triggers sent that no later image can match are forgotten. -/
def dropSent (c : Camera) (upTo : Nat) : Camera :=
  { c with sent := c.sent.drop (upTo - c.matched), matched := Nat.max c.matched (Nat.min upTo (c.matched + c.sent.length)) }

/-- A camera image is received: its lines are matched to the triggers sent and enter the camera ring, or it is discarded. -/
def cameraImage (s : State) (k : Nat) (m : CameraPicture) : State :=
  if cameraState s k ≠ 2 then s
  else
    let n := imageLines s k
    let cam := cameraOf s k
    let start := cam.images * n
    let cam := { cam with images := cam.images + 1 }
    let trig (j : Nat) : Option Nat := if start + j < cam.matched then none else cam.sent[start + j - cam.matched]?
    let kept := dropSent cam (start + n)
    if m.width ≠ camPix s k ∨ m.format ≠ getF s MER.CAMCFG_FORMAT k ∨ m.height ≠ n ∨ !m.crcOk ∨ m.lines.length < n then
      let s := incF (setCamera s k kept) MER.CAMCNT (8 * k + 2)
      let b := (trig 0).bind (blockOfTrigger s k)
      let line := match b with | some b => blockLine s k b | none => 0
      cameraDefect s k 5 n line (match b with
        | some _ => (lineOwner s (getF s MER.CAMCFG_PG k) line).map (fun o => o.1)
        | none => none)
    else
      let rows := (upto n).filterMap (fun j => (trig j).map (fun t => (j, t, slice (m.lines.getD j []) 0 (camPix s k * camBytes s k))))
      let s := forEach rows s (fun s r =>
        engineWrite s (cameraAddr s (areaStart s k + (start + r.1) % camRingLines s k * camStride s k)) r.2.2)
      let s := addF s MER.CAMCNT n (8 * k)
      setCamera s k { kept with lines := kept.lines ++ rows.map (fun r => (⟨r.2.1, r.2.2⟩ : CamLine)) }

/-! Comparison (R170, R171). -/

/-- The raw value of a pixel and band. -/
def rawValue (s : State) (k : Nat) (raw : List Byte) (x b : Nat) : Nat :=
  match getF s MER.CAMCFG_FORMAT k with
  | 0 => field raw x 1
  | 1 => field raw (2 * x) 2 % 1024
  | 2 => field raw (3 * x + b) 1
  | _ => bits (field raw (4 * x) 4) (10 * b) 10

/-- The camera value of a pixel and band (R171). -/
def cameraValue (s : State) (k : Nat) (raw : List Byte) (x b : Nat) : Nat :=
  let sh := if getF s MER.CAMCFG_FORMAT k % 2 = 0 then 4 else 1
  let gain := loadNat s (0x7F0000600000 + 0x40000 * k + 8 * x + 2 * b) 2
  Nat.min 1023 ((rawValue s k raw x b * sh * gain + 2048) / 4096)

/-- W of a group's band. -/
def paperWhite (s : State) (g b : Nat) : Nat := bits (regRaw s (MER.WHITE.off g)).toNat (10 * b) 10

/-- The predicted value of a band from the coverage codes (R170). -/
def predictedValue (s : State) (g cov b : Nat) : Nat :=
  let d := Nat.min 1023 ((upto 8).foldl (fun a c =>
    a + loadNat s (0x7F0000680800 + 2 * (24 * c + 8 * b + bits cov (3 * c) 3)) 2 % 1024) 0)
  (paperWhite s g b * (loadNat s (0x7F0000680000 + 2 * d) 2 % 4096) + 2048) / 4096

/-- What Mere knows of the block a line compares with. -/
structure BlockView where
  block : Nat
  gline : Nat
  fsn : Option Nat
  unsound : Bool
  strip : Bool
  sectLast : Bool
  section_ : Nat
  /-- the ring holds the block's own record -/
  known : Bool

/-- Reads a block's header; a block with no line in any frame predicts paper. -/
def viewBlock (s : State) (k b : Nat) : BlockView × State :=
  let a := predAddr s k b
  let line := blockLine s k b
  let bad := poisoned s a (predStride s k)
  let s' := if bad then setF s MER.ERR_POISON 1 else s
  if !bad && loadNat s a 8 != line then (⟨b, line, none, false, false, false, 0, false⟩, s')
  else
    let w := loadNat s (a + 16) 4
    let badAttr := bit w 2 && poisoned s (attrAddr s k b) (4 * camPix s k)
    let s' := if badAttr then setF s' MER.ERR_POISON 1 else s'
    (⟨b, line, if bit w 0 then none else some (loadNat s (a + 8) 8), bit w 1 || bad || badAttr, bit w 2 && !bad,
      bit w 3 && !bad, bits w 4 12, true⟩, s')

/-- The residuals of a pixel, by band (R171). -/
def residuals (s : State) (k : Nat) (v : BlockView) (raw : List Byte) (x : Nat) : List Int :=
  let g := getF s MER.CAMCFG_PG k
  let cov := if v.known then loadNat s (predAddr s k v.block + 64 + 3 * x) 3 else 0
  (upto (camBands s k)).map (fun b => (cameraValue s k raw x b : Int) - predictedValue s g cov b)

/-- The residual of largest magnitude; a tie counts as positive. -/
def peakResidual (rs : List Int) : Int :=
  rs.foldl (fun m r => if m.natAbs < r.natAbs ∨ (m.natAbs = r.natAbs ∧ m < r) then r else m) 0

/-! Defects in progress (R172). -/

def spotLen (s : State) (g : Nat) : Nat := Nat.max 1 (getF s MER.CMP_SPOTLEN g)
def streakLen (s : State) (g : Nat) : Nat :=
  if getF s MER.CMP_STRKLEN g ≤ spotLen s g then spotLen s g + 1 else getF s MER.CMP_STRKLEN g

/-- Writes the record of a defect. -/
def reportStreak (s : State) (k cls : Nat) (t : Streak) : State :=
  addDefect s ⟨cls, t.light, k, getF s MER.CAMCFG_PG k, t.fsn, t.peak, t.lines, t.gline, columnFirst s k t.first,
    columnLast s k t.last, 0, 0⟩

/-- A defect ends: STREAK, SPOT, or too short. -/
def endStreak (s : State) (k : Nat) (t : Streak) : State :=
  let g := getF s MER.CAMCFG_PG k
  if streakLen s g ≤ t.longest then reportStreak s k 1 t
  else if spotLen s g ≤ t.longest then reportStreak s k 2 t
  else s

/-- Ends every defect in progress of a camera. -/
def endStreaks (s : State) (k : Nat) : State :=
  let c := cameraOf s k
  let s := setCamera s k { c with streaks := [], band := none }
  let s := forEach c.streaks s (fun s t => endStreak s k t)
  match c.band with | some t => reportStreak s k 3 t | none => s

/-- A defect in progress while a line is taken: as it was, and the columns it has in the line. -/
abbrev Working := Streak × SMap Nat

/-- Two defects merge into one, which begins where the earlier of them does. -/
def Working.join (a b : Working) : Working :=
  let (p, q) := if b.1.gline < a.1.gline then (b, a) else (a, b)
  ({ p.1 with
      first := Nat.min p.1.first q.1.first, last := Nat.max p.1.last q.1.last, lines := Nat.max p.1.lines q.1.lines,
      longest := Nat.max p.1.longest q.1.longest, peak := Nat.max p.1.peak q.1.peak,
      reported := Nat.max p.1.reported q.1.reported, cols := q.1.cols.foldl (fun m e => mput m e.1 e.2) p.1.cols },
    q.2.foldl (fun m e => mput m e.1 e.2) p.2)

/-- Whether two defects of one sign together stay within 64 columns. -/
def Working.fits (a b : Working) : Bool :=
  a.1.light == b.1.light && decide (Nat.max a.1.last b.1.last < Nat.min a.1.first b.1.first + 64)

/-- Puts a flagged column into a defect; `n` is the length of the column's run with this line. -/
def Working.put (w : Working) (x n : Nat) (r : Int) : Working :=
  ({ w.1 with first := Nat.min w.1.first x, last := Nat.max w.1.last x, peak := Nat.max w.1.peak r.natAbs }, mput w.2 x n)

/-- One flagged column of a line: its run goes on in the defect that holds it, or a defect begins; that defect merges with the
one of the column beside it where both fit in 64 columns (R172). -/
def takeColumn (v : BlockView) (l : List Working) (e : Nat × Int) : List Working :=
  let light := decide (0 < e.2)
  let holds (w : Working) : Bool := w.1.light == light && (mfind w.1.cols e.1).isSome
  let (cur, rest) : Working × List Working := match l.find? holds with
    | some w => (w.put e.1 (mget w.1.cols e.1 0 + 1) e.2, l.filter (fun u => !holds u))
    | none => (Working.put (⟨light, [], v.fsn, v.gline, e.1, e.1, 0, 0, 0, 0⟩, []) e.1 1 e.2, l)
  if (mfind cur.2 (e.1 - 1)).isSome ∧ e.1 ≠ 0 then rest ++ [cur]
  else
    let beside (w : Working) : Bool := e.1 != 0 && (mfind w.2 (e.1 - 1)).isSome && cur.fits w
    match rest.find? beside with
    | some w => rest.filter (fun u => !beside u) ++ [w.join cur]
    | none => rest ++ [cur]

/-- The defects of a camera take one line's flagged columns. -/
def takeColumns (s : State) (k : Nat) (v : BlockView) (flagged : List (Nat × Int)) : State :=
  let g := getF s MER.CAMCFG_PG k
  let c := cameraOf s k
  let work := flagged.foldl (takeColumn v) (c.streaks.map (fun t => (t, [])))
  let ended := (work.filter (fun w => w.2.isEmpty)).map (fun w => w.1)
  let going := (work.filter (fun w => !w.2.isEmpty)).map (fun w =>
    { w.1 with cols := w.2, lines := w.1.lines + 1, longest := w.2.foldl (fun m e => Nat.max m e.2) w.1.longest })
  let due (t : Streak) : Bool := decide (streakLen s g ≤ t.longest) && (t.reported == 0 || decide (t.reported + 4096 ≤ t.longest))
  let s := setCamera s k { c with streaks := going.map (fun t => if due t then { t with reported := t.longest } else t) }
  let s := forEach ended s (fun s t => endStreak s k t)
  forEach (going.filter due) s (fun s t => reportStreak s k 1 t)

/-- The BAND defect of a camera takes one line's flagged columns. -/
def takeBand (s : State) (k : Nat) (v : BlockView) (flagged : List (Nat × Int)) : State :=
  let g := getF s MER.CAMCFG_PG k
  let c := cameraOf s k
  let peak := peakResidual (flagged.map (fun e => e.2))
  let first := (flagged.head?.map (fun e => e.1)).getD 0
  let last := (flagged.getLast?.map (fun e => e.1)).getD 0
  if !flagged.isEmpty && decide (Nat.max 1 (getF s MER.CMPB_BANDPCT g) * camPix s k ≤ 256 * flagged.length) then
    let t : Streak := match c.band with
      | some t => { t with
          first := Nat.min t.first first, last := Nat.max t.last last, lines := t.lines + 1,
          light := if t.peak < peak.natAbs then decide (0 < peak) else t.light, peak := Nat.max t.peak peak.natAbs }
      | none => ⟨decide (0 < peak), [], v.fsn, v.gline, first, last, 1, 0, peak.natAbs, 0⟩
    setCamera s k { c with band := some t }
  else match c.band with
    | some t => reportStreak (setCamera s k { c with band := none }) k 3 t
    | none => s

/-! Evidence (R177). -/

/-- K of a channel and band, signed. -/
def projK (s : State) (c b : Nat) : Int := signed (bits (regRaw s (MER.KPROJ.off c)).toNat (8 * b) 8) 8

/-- The score of a pixel against a channel. -/
def score (s : State) (c : Nat) (rs : List Int) : Int :=
  clampInt (-128) 127 (floorDiv ((rs.zip (upto rs.length)).foldl (fun a e => a + projK s c e.2 * e.1) 0) 64)

/-- Device address of a nozzle's evidence entry. -/
def evidenceAddr (s : State) (a : Nat) : Nat := cameraAddr s (8 * a)

/-- An evidence entry as it is read: one that meets an uncorrectable error is cleared, with the ECC word it lies in (R180). -/
def readEvidence (s : State) (a : Nat) : Nat × State :=
  let w := evidenceAddr s a
  if poisoned s w 8 then (0, setF (engineWrite s (w / 64 * 64) (List.replicate 64 0)) MER.ERR_POISON 1) else (loadNat s w 8, s)

/-- One sample of a nozzle. -/
def addSample (s : State) (k number a : Nat) (sc : Int) (dev : Bool) : State :=
  let (e, s) := readEvidence s a
  let e := if bits e 0 12 = number then e else number
  let up (e lo : Nat) (p : Bool) : Nat := if p then setBits e lo 8 (Nat.min 255 (bits e lo 8 + 1)) else e
  let miss := decide (signed (getF s MER.EVTH_TMISS) 8 ≤ sc)
  let weak := decide (signed (getF s MER.EVTH_TWEAK) 8 ≤ sc)
  let e := up (up (up (up e 16 true) 24 miss) 32 (!miss && weak)) 40 (weak && dev)
  incF (engineWrite s (evidenceAddr s a) (toBytes 8 e)) MER.CAMCNT (8 * k + 5)

/-- The samples of a sound strip line. -/
def takeEvidence (s : State) (k : Nat) (v : BlockView) (number : Nat) (rs : List (List Int)) : State :=
  let attr (x : Nat) : Nat := loadNat s (attrAddr s k v.block + 4 * x) 4
  forEach ((upto (camPix s k)).filter (fun x => bit (attr x) 23)) s (fun s x =>
    let a := bits (attr x) 0 23
    let c := rowChannel s (a / rowWidth)
    let opposite (y : Nat) : Bool :=
      decide (y < camPix s k) && bit (attr y) 24 && decide (score s c (rs.getD y []) ≤ -(getF s MER.EVTH_TDEV : Int))
    addSample s k number a (score s c (rs.getD x [])) (opposite (x + 1) || (x != 0 && opposite (x - 1))))

/-! Registration (R166). -/

def searchHalf (s : State) (g : Nat) : Nat := Nat.max 1 (getF s MER.FIDCFG_SRCH g)

/-- The trigger at which the centre of a frame's fiducials is expected. -/
def fidTrigger (s : State) (k g0 : Nat) : Int :=
  ((g0 + getF s MER.FIDLINE (getF s MER.CAMCFG_PG k) + 16 + camDelay s k : Nat) : Int) + camYadj s k

/-- Adds one camera line to a mark's sums. -/
def Fiducial.take (s : State) (k n : Nat) (raw : List Byte) (f : Fiducial) : Fiducial :=
  let g := getF s MER.CAMCFG_PG k
  let half := searchHalf s g
  if (half * camDiv s k : Int) < ((n : Int) - f.trigger).natAbs then f
  else
    let b := Nat.min (camBands s k - 1) (Nat.min 2 (getF s MER.FIDCFG_FBAND g))
    let xc := floorDiv (32 * (256 * (f.pos : Int) - pixelStart s k 0)) (camScale s k)
    let xs : List Nat := (upto (camPix s k)).filter (fun x => decide ((Int.ofNat x - xc).natAbs ≤ half))
    xs.foldl (fun f x =>
      let d := paperWhite s g b - cameraValue s k raw x b
      { f with
        weight := f.weight + d, sumPos := f.sumPos + d * (64 * pixelStart s k x + camScale s k),
        sumTrig := f.sumTrig + d * ((n : Int) - f.trigger) }) f

/-- The registration of a frame begins, or is off for it. -/
def beginSearch (s : State) (k : Nat) (o : Nat × Nat) : State :=
  let g := getF s MER.CAMCFG_PG k
  if getF s MER.FIDCFG_NFID g = 0 then setF s MER.CAMSTAT_RSTATE 0 k
  else
    let c := fidTrigger s k o.2
    let marks := (upto (getF s MER.FIDCFG_NFID g)).map (fun i => (⟨getF s MER.FIDPOS_P (8 * g + i), c, 0, 0, 0⟩ : Fiducial))
    let cam := cameraOf s k
    let s := setCamera s k { cam with searches := cam.searches ++ [⟨o.1, o.2, marks, c + searchHalf s g * camDiv s k⟩] }
    if getF s MER.CAMSTAT_RSTATE k = 0 then setF s MER.CAMSTAT_RSTATE 1 k else s

/-- Registration begins for the frames whose windows the camera line of trigger `n` has reached. -/
def beginSearches (s : State) (k n : Nat) : State :=
  let cam := cameraOf s k
  let half : Int := searchHalf s (getF s MER.CAMCFG_PG k) * camDiv s k
  let reached (o : Nat × Nat) : Bool := decide (fidTrigger s k o.2 - half ≤ n)
  forEach (cam.frames.filter reached) (setCamera s k { cam with frames := cam.frames.filter (fun o => !reached o) })
    (fun s o => beginSearch s k o)

/-- The mean of a list of integers, rounded down. -/
def meanInt (l : List Int) : Int := floorDiv (l.foldl (· + ·) 0) (Nat.max 1 l.length)

/-- The error of a found mark: across in 1/256 position, and along in 1/256 line. A mark found with no darkness at all, where
FMIN is 0, has no centroid, and its error is free. -/
def markError (s : State) (f : Fiducial) : (Int × Int) × State :=
  if f.weight = 0 then
    let (x, s) := free s
    let (y, s) := free s
    ((signed (x % 2 ^ 24) 24, signed (y % 2 ^ 24) 24), s)
  else ((floorDiv (64 * 256 * (f.pos : Int) * f.weight - f.sumPos) (64 * f.weight), floorDiv (256 * f.sumTrig) f.weight), s)

/-- The registration of a frame ends (R166 steps 3 and 4). -/
def endSearch (s : State) (k : Nat) (t : Search) : State :=
  let g := getF s MER.CAMCFG_PG k
  let found := t.marks.filter (fun f => decide (getF s MER.FIDCFG_FMIN g ≤ f.weight))
  let (errs, s) := found.foldl (fun (a : List (Int × Int) × State) f =>
    let (e, s) := markError a.2 f
    (a.1 ++ [e], s)) ([], s)
  let ex := meanInt (errs.map (fun e => e.1))
  let ey := meanInt (errs.map (fun e => e.2))
  let old := getF s MER.CAMSTAT_RSTATE k
  let s := addF s MER.CAMCNT (t.marks.length - found.length) (8 * k + 6)
  let s := if found.isEmpty then s else
    let x := clampInt (-32767) 32767 (camXadj s k + floorDiv ex 4)
    let y := clampInt (-255) 255 (camYadj s k + clampInt (-1) 1 (floorDiv (ey + 128) 256))
    setF (setF s MER.CAMREG_XADJ (unsign x 16) k) MER.CAMREG_YADJ (unsign y 9) k
  let wide := decide (searchHalf s g * camScale s k / 64 < ex.natAbs)
  if 2 * found.length < t.marks.length ∨ wide then
    let s := setF s MER.CAMSTAT_RSTATE 3 k
    if old = 3 then s else cameraDefect s k 4 0 t.g0 (some t.fsn)
  else if found.length = t.marks.length ∧ ex.natAbs ≤ 256 ∧ ey.natAbs < 256 * camDiv s k then setF s MER.CAMSTAT_RSTATE 2 k
  else s

/-- A camera line takes part in every registration in progress; those whose windows it ends are settled. -/
def registerLine (s : State) (k : Nat) (l : CamLine) : State :=
  let s := beginSearches s k l.trigger
  let cam := cameraOf s k
  let taken := cam.searches.map (fun t => { t with marks := t.marks.map (Fiducial.take s k l.trigger l.raw) })
  let done (t : Search) : Bool := decide (t.until_ < (l.trigger : Int) + camDiv s k)
  forEach (taken.filter done) (setCamera s k { cam with searches := taken.filter (fun t => !done t) }) (fun s t => endSearch s k t)

/-! One line (R167 to R177). -/

/-- Mere notifies the firmware of a section whose last line has been compared. -/
def notifySection (s : State) (g : Nat) (t : Strip) (v : BlockView) : State :=
  match (stripSections s t)[v.section_]?, t.g0 with
  | some (c, e, q), some g0 =>
    { s with mere := { s.mere with
      notices := s.mere.notices ++ [⟨8 + c / 2, g, t.number, c, e, q, t.q, g0, t.fsn, g0 + v.section_ * t.len⟩] } }
  | _, _ => s

/-- A camera past the last section of its group's strip has imaged it. -/
def stripPassed (s : State) (k g : Nat) (v : BlockView) : State :=
  match stripOf s g with
  | some t =>
    (match t.g0 with
     | some g0 =>
       if g0 + (stripSections s t).length * t.len ≤ v.gline + camDiv s k ∧ !t.imaged.contains k then
         setStrip s g { t with imaged := t.imaged ++ [k] }
       else s
     | none => s)
  | none => s

/-- The strip a block's record names. -/
def viewStrip (s : State) (g : Nat) (v : BlockView) : Option Strip :=
  match stripOf s g with
  | some t => if v.strip ∧ v.fsn = some t.fsn then some t else none
  | none => none

/-- Writes the blocks of a camera up to one whose line is compared, whatever lines they still lack. -/
def forceBlocks (s : State) (k b : Nat) : State :=
  let c := cameraOf s k
  let s := forEach (c.taps.filter (fun t => decide (t.block ≤ b))) s (fun s t => writeBlock s k t)
  setCamera s k { c with taps := c.taps.filter (fun t => !decide (t.block ≤ b)) }

/-- Detection and evidence of a sound line. -/
def inspectLine (s : State) (k : Nat) (v : BlockView) (raw : List Byte) : State :=
  let g := getF s MER.CAMCFG_PG k
  let rs := (upto (camPix s k)).map (residuals s k v raw)
  let flagged := (rs.zip (upto rs.length)).filterMap (fun e =>
    let r := peakResidual e.1
    if getF s MER.CMP_TPIX g < r.natAbs then some (e.2, r) else none)
  let s := addF s MER.CAMCNT flagged.length (8 * k + 4)
  let s := takeBand (takeColumns s k v flagged) k v flagged
  match viewStrip s g v with | some t => takeEvidence s k v t.number rs | none => s

/-- The oldest line received is registered and compared with its block; `able` is false where Mere skips its comparison to cool
(Table: thermal zones), which counts as an unsound line. -/
def compareLine (s : State) (k : Nat) (able : Bool) : State :=
  let cam := cameraOf s k
  match cam.lines with
  | [] => s
  | l :: rest =>
    let s := setCamera s k { cam with lines := rest }
    let trusted := getF s MER.CAMSTAT_RSTATE k = 0 ∨ getF s MER.CAMSTAT_RSTATE k = 2
    match blockOfTrigger s k l.trigger with
    | none => registerLine s k l
    | some b =>
      let (v, s) := viewBlock (forceBlocks s k b) k b
      let g := getF s MER.CAMCFG_PG k
      let s := if v.unsound ∨ !able then endStreaks (incF s MER.CAMCNT (8 * k + 3)) k
        else if trusted then inspectLine s k v l.raw
        else endStreaks s k
      let s := match viewStrip s g v with
        | some t => if v.sectLast then notifySection s g t v else s
        | none => s
      registerLine (stripPassed s k g v) k l

/-! Strips (R175). -/

/-- Whether a strip is still being imaged: its frame may still print, or a camera of the group has yet to compare its end. -/
def stripBusy (s : State) (g : Nat) : Bool :=
  match stripOf s g with
  | none => false
  | some t =>
    let waits := (groupCameras s g).any (fun k => !t.imaged.contains k)
    match t.g0, frameOf s g t.fsn with
    | some _, _ => waits
    | none, some f => waits && decide (f.state ≤ 4)
    | none, none => false

/-- Whether a strip descriptor and its group break R175. -/
def stripInvalid (s : State) (d : List Byte) (g : Nat) : Bool :=
  let w := field d 8 4
  let mask := bits w 0 8
  let q := if bit w 19 then 12 else 8
  mask == 0 || (upto 8).any (fun c => bit mask c && !(groupChannels s g).contains c) || bits w 8 8 == 0 || bits w 16 3 == 0 ||
  bits w 20 12 != 0 || ((d.drop 12).take 20).any (fun b => b != 0) ||
  (upto 8).any (fun c => bit mask c && q % strikesOf s c != 0)

/-- An ISSUE of class STRIP: body and the group behind it (R175, R235). -/
def startStrip (s : State) (o : Op) : State :=
  let d := o.desc.drop 8
  let g := field d 32 1 % 4
  let w := field d 8 4
  if domainHeld s 11 || throughput s || s.mere.stripHeld then completeOp s o.key 0x0D 0 0 0
  else if stripInvalid s d g || decide (4 ≤ field d 32 8) then completeOp s o.key 9 0 0 0
  else match frameOf s g (field d 0 8) with
    | none => completeOp s o.key 0x11 0 0 0
    | some f =>
      if f.state = 7 then completeOp s o.key 0x11 0 0 0
      else if stripBusy s g then completeOp s o.key 0x24 0 0 0
      else if (groupChannels s g).any (fun c => decide (0 < f.enteredOn c)) then completeOp s o.key 0x14 0 0 0
      else
        let n := (s.mere.stripCount + 1) % 4096
        let s := { s with mere := { s.mere with stripCount := s.mere.stripCount + 1 } }
        let s := setStrip s g ⟨n, f.fsn, bits w 0 8, 8 * bits w 8 8, bits w 16 3, if bit w 19 then 12 else 8, none, []⟩
        completeOp s o.key 0 0 n 0

/-! Firmware decisions (R178). -/

/-- The NOZZLE record of a completed update. -/
def nozzleRecord (s : State) (i : Issued) (code : Nat) : State :=
  let p := i.update.a % rowWidth
  let (cam, s) := free s
  let (lines, s) := free s
  addDefect s ⟨6, false, cam % 2, i.notice.group, some i.notice.fsn, code, lines, i.notice.gline, p, p + i.update.n - 1,
    i.update.a, i.update.state.getD 0⟩

/-- What becomes of an update with a completion code: its record, and a retry of QUEUE_FULL. -/
def nozzleOutcome (s : State) (i : Issued) (code : Nat) : State :=
  let s := nozzleRecord s i code
  if code = 0x1F then { s with mere := { s.mere with retries := s.mere.retries ++ [{ i with frc := s.frc }] } } else s

/-- The firmware issues one update: decided here, or sent to the active as a REQUEST (R303). -/
def issueNozzle (s : State) (n : Notice) (u : Update) : State :=
  let i : Issued := ⟨n, u, 64 + n.reed, s.mere.issued, s.frc⟩
  let s := { s with mere := { s.mere with issued := s.mere.issued + 1 } }
  if isStandby s then
    twinSend { s with mere := { s.mere with requests := s.mere.requests ++ [i] } }
      (.request ⟨i.queue, i.qseq, 9, 0⟩ (updateDesc { u with ge := geAuto } u.a u.n))
  else
    let (code, _, s) := decideUpdate s ⟨i.queue, i.qseq, 9, 0⟩ u
    nozzleOutcome s i code

/-- The new STATE the firmware decides for a nozzle, where it changes. The counts of another strip are no samples of this one. -/
def decideNozzle (s : State) (number a : Nat) : Option Nat × State :=
  let (w, s) := readEvidence s a
  let e := if bits w 0 12 = number then w else 0
  let ns := bits e 16 8
  if ns < getF s MER.EVTH_NMIN then (none, s)
  else
    let cur := nozzleCode s a % 4
    let auto := bit (loadNat s (recordAddr s a) 2) 5
    let new := if 3 * ns ≤ 4 * bits e 24 8 then 2
      else if ns ≤ 2 * (bits e 24 8 + bits e 32 8) then 1
      else if ns ≤ 2 * bits e 40 8 then 3
      else if cur ≠ 0 ∧ auto then 0
      else cur
    (if new = cur then none else some new, s)

/-- The firmware decides for a list of nozzles: the addresses that change, each with its new STATE. -/
def decideNozzles (s : State) (number : Nat) (l : List Nat) : List (Nat × Nat) × State :=
  l.foldl (fun (acc : List (Nat × Nat) × State) a =>
    let (d, s) := decideNozzle acc.2 number a
    ((match d with | some st => acc.1 ++ [(a, st)] | none => acc.1), s)) ([], s)

/-- Runs of consecutive addresses with one new STATE: first, length and STATE. -/
def stateRuns : List (Nat × Nat) → List (Nat × Nat × Nat)
  | [] => []
  | (a, st) :: r =>
    match stateRuns r with
    | (b, n, st') :: t => if b = a + 1 ∧ st = st' then (a, n + 1, st) :: t else (a, 1, st) :: (b, n, st') :: t
    | [] => [(a, 1, st)]

/-- The rows whose nozzles a section tests. -/
def sectionRows (s : State) (n : Notice) : List Nat :=
  let cyc := (n.g0 + n.e) % cycleLines s n.channel
  let strike := (n.q + spanFirst s n.channel + n.g0 + n.e) % strikesOf s n.channel
  ((slotsOf s n.channel).filter (fun t => t.2.1 == cyc && t.2.2 == strike)).flatMap (fun t =>
    match rowPartner s t.1 with | some q => [t.1, q] | none => [t.1])

/-- The firmware of a Reed core takes its oldest section notice (R178). -/
def nozzleDecision (s : State) (reed : Nat) : State :=
  match s.mere.notices.find? (fun n => n.reed == reed) with
  | none => s
  | some n =>
    let s := { s with mere := { s.mere with notices := s.mere.notices.erase n } }
    let first := spanFirst s n.channel
    let (runs, s) := (sectionRows s n).foldl (fun (acc : List (Nat × Nat × Nat) × State) r =>
      let (l, s) := decideNozzles acc.2 n.number ((fromTo first (first + spanCount s n.channel - 1)).map (nozzleAddr r))
      (acc.1 ++ stateRuns l, s)) ([], s)
    forEach runs s (fun s t => issueNozzle s n
      { ge := geAuto, a := t.1, n := t.2.1, state := some t.2.2, gclass := none, lock := none, source := 1, skipped := [],
        poisonedNoz := [], op := none })

/-- The oldest update refused with QUEUE_FULL is issued again, 100 µs after its refusal (R178). -/
def mapsetRetry (s : State) : State :=
  match s.mere.retries with
  | [] => s
  | i :: rest =>
    if s.frc < i.frc + 125000 then s
    else issueNozzle { s with mere := { s.mere with retries := rest } } i.notice i.update

/-- RESULTs of the active for updates the standby's firmware has sent as REQUESTs (R303). -/
def takeNozzleResults (s : State) : State :=
  let mine (e : TwinKey × Word × Word) (i : Issued) : Bool := e.1.queue == i.queue && e.1.qseq == i.qseq && e.1.sub == 9
  forEach s.twin.early s (fun s e =>
    match s.mere.requests.find? (mine e) with
    | some i =>
      let s := { s with mere := { s.mere with requests := s.mere.requests.erase i } }
      nozzleOutcome (setTwin s { s.twin with early := s.twin.early.erase e }) i (bits e.2.1.toNat 0 8)
    | none => s)

/-! FLR of PF5 and loss of PD_MERE (R181, R182). -/

/-- FLR of PF5. -/
def mereFlr (s : State) : State :=
  let s := setF s HMK.STAT_FROZEN 1
  let s := { s with mere := { s.mere with queue := [], stripHeld := true } }
  let s := regReset (regReset (regReset (setP s MER.DRBASE 0) (MER.DRCFG.off 0)) (MER.DRHEAD.off 0)) (MER.DRTAIL.off 0)
  forEach (upto 2) s (fun s k => setF s MER.CCCTL_BUSY 0 k)

/-- PD_MERE loses power: the tables read 0 and TBL.VALID is cleared (R181). -/
def mereLost (s : State) : State := setF (zeroRange s 0x7F0000600000 0x80A40) MER.TBL_VALID 0

end Sys2Proof.Machine
end

