-- ==== Sys2Proof/Machine/Host.lean ====
section
/-!
DEFINITION. The host queues, program blocks, event rings and MSI-X vectors, and disabling and enabling a function
(R246 to R263, R208).
-/

namespace Sys2Proof.Machine

/-! What configuration reads of a function find, beside its `FnConfig` (R250). -/

/-- The fixed part of a function's configuration space. -/
structure FnIdentity where
  vendor : BitVec 16
  device : BitVec 16
  classCode : BitVec 24
  /-- BAR0's size in bytes, whether its address is a 64-bit one, and whether it is prefetchable -/
  barBytes : Nat
  bar64 : Bool
  prefetchable : Bool
  /-- offsets in BAR0 of the MSI-X table and of its PBA -/
  msixTable : Nat
  msixPba : Nat
  deriving DecidableEq, Repr

/-- Table: functions. -/
def fnIdentity (f : Fin 8) : FnIdentity :=
  { vendor := Config.vendorId, device := BitVec.ofNat 16 (0x9600 + f), classCode := 0x118000, barBytes := barSize f,
    bar64 := true, prefetchable := false, msixTable := if f = 0 then 0x30F0000 else 0xF0000,
    msixPba := if f = 0 then 0x30F8000 else 0xF8000 }

/-! Queues (R252, R253). -/

/-- The function of a queue. -/
def queueFn (s : State) (q : Nat) : Nat := getF s PCI.QCFG_FN q

/-- The first check a queue fails at enable. -/
def queueCheck (s : State) (q : Nat) : Nat :=
  let f := queueFn s q
  let owned := ((upto 64).filter (fun p => p != q && flag s PCI.QCFG_EN p && queueFn s p == f)).length
  let log := getF s PCI.QCFG_LOG q
  if 1 ≤ f ∧ f ≤ 4 ∧ 16 ≤ owned then 1
  else if log < 4 ∨ 16 < log then 2
  else if getP s PCI.SQBASE q % 4096 ≠ 0 ∨ getP s PCI.CQBASE q % 4096 ≠ 0 then 3
  else 0

/-- A write of 1 to QCFG.EN of a disabled queue (R252). -/
def queueEnable (s : State) (q : Nat) : State :=
  if flag s PCI.QCFG_EN q then s
  else
    let code := queueCheck s q
    let s := setF s PCI.QSTAT_CODE code q
    if code ≠ 0 then s
    else
      let s := setF (setF (setF s PCI.SQDB_INDEX 0 q) PCI.CQDB_INDEX 0 q) PCI.QSTAT_HEAD 0 q
      setQueue (setF (setF s PCI.QCFG_EN 1 q) PCI.QSTAT_STATE 1 q) q Queue.fresh

/-- A write of 0 to QCFG.EN: the queue is disabled once its running entry has completed. -/
def queueDisable (s : State) (q : Nat) : State :=
  if flag s PCI.QCFG_EN q then finishDisable (setQueue s q { queueOf s q with disablePending := true }) q else s

/-- A doorbell of the host: a tail, or a head (R253). Doorbells of a function in FLR are discarded (R266). -/
def submissionDoorbell (s : State) (q v : Nat) : State :=
  if flag s PCI.FNCTL_FLR_BUSY (queueFn s q) then s
  else if ringSize s q ≤ v then setF s PCI.QSTAT_DBERR 1 q
  else setF s PCI.SQDB_INDEX v q

def completionDoorbell (s : State) (q v : Nat) : State :=
  if flag s PCI.FNCTL_FLR_BUSY (queueFn s q) then s
  else if ringSize s q ≤ v then setF s PCI.QSTAT_DBERR 1 q
  else
    let u := queueOf s q
    let step := (v + ringSize s q - u.consumed % ringSize s q) % ringSize s q
    setF (setQueue s q { u with consumed := u.consumed + step }) PCI.CQDB_INDEX v q

/-- A write of 1 to QCTL.RESUME (R259). -/
def queueResume (s : State) (q : Nat) : State :=
  let t := getF s PCI.QCFG_THREAD q
  let bound := flag s CWY.TSTAT_BOUND t && getF s CWY.TSTAT_QUEUE t == q
  if bound && getF s CWY.TSTAT_STATE t == 3 then s
  else if bound && getF s CWY.TSTAT_STATE t == 2 && (queueOf s q).entry.isSome then
    setQueue s q { queueOf s q with resumeHeld := true }
  else if getF s PCI.QSTAT_STATE q = 3 then resumeQueue s q
  else s

/-! Fetching an entry (R254, R255, R257). -/

/-- Entries pending on a queue. -/
def pendingEntries (s : State) (q : Nat) : Nat :=
  (getF s PCI.SQDB_INDEX q + ringSize s q - getF s PCI.QSTAT_HEAD q) % ringSize s q

/-- Whether a queue has an entry to fetch, room for its completion, and its thread free. -/
def fetchable (s : State) (q : Nat) : Bool :=
  let t := getF s PCI.QCFG_THREAD q
  let u := queueOf s q
  queueState s q == 1 && pendingEntries s q != 0 && decide (u.written + u.promised < u.consumed + ringSize s q) &&
  getF s CWY.TSTAT_STATE t == 0 && !u.disablePending &&
  !(upto 64).any (fun p => getF s PCI.QCFG_THREAD p == t && (queueOf s p).entry.isSome)

/-- Whether it is a queue's turn on its thread: the first fetchable queue after the one served last (R257). -/
def queueTurn (s : State) (q : Nat) : Bool :=
  let t := getF s PCI.QCFG_THREAD q
  let l := mget s.host.lastServed t 63
  let qs := (upto 64).filter (fun p => getF s PCI.QCFG_THREAD p == t && fetchable s p)
  match qs.find? (fun p => decide (l < p)) with
  | some p => p == q
  | none => qs.head? == some q

/-- The entry that 64 bytes spell. -/
def entryOf (bs : List Byte) (n : Nat) : Entry :=
  { paddr := field bs 0 8, plen := field bs 8 4, entry := field bs 12 4, qseq := field bs 16 4, flags := field bs 20 4,
    pcrc := field bs 24 4, args := [32, 40, 48, 56].map (fun i => word (field bs i 8)), number := n, base := 0,
    placed := false, started := false, ended := none }

/-- Whether an entry breaks check 1 of R255. -/
def entryInvalid (e : Entry) (bs : List Byte) : Bool :=
  decide (8 ≤ e.flags) || field bs 28 4 != 0 || decide (e.plen < 4) || decide (1048576 < e.plen) || e.plen % 4 != 0 ||
  e.entry % 4 != 0 || decide (e.plen ≤ e.entry) || (!bit e.flags 1 && e.pcrc != 0)

/-- Ends an entry whose program does not run. -/
def refuseEntry (s : State) (q : Nat) (e : Entry) (status : Nat) : State :=
  let s := postCompletion s q e status 0 0 0
  let s := if status = 5 then stopQueue (setF (setF s PCI.QSTAT_SEQERR 1 q) PCI.ERR_SEQ 1) q 5 e.qseq else s
  finishDisable s q

/-! Program memory (R256). -/

def programBase : Nat := 0x7F0002000000
def programSize : Nat := 2 * 2 ^ 20

/-- The blocks that programs use: base and length. -/
def usedPrograms (s : State) : List (Nat × Nat) :=
  (upto 64).filterMap (fun q => match (queueOf s q).entry with
    | some e => if e.placed then some (e.base, e.plen) else none
    | none => none)

def overlaps (a n b m : Nat) : Bool := decide (a < b + m) && decide (b < a + n)

/-- The lowest place in program memory, at a 64-byte boundary, clear of the blocks given. -/
def placeClear (used : List (Nat × Nat)) (n : Nat) : Option Nat :=
  let ends := programBase :: used.map (fun u => ceilDiv (u.1 + u.2) 64 * 64)
  (ends.filter (fun a => decide (a + n ≤ programBase + programSize) && !used.any (fun u => overlaps a n u.1 u.2))).foldl
    (fun m a => match m with | some b => some (Nat.min a b) | none => some a) none

/-- Where a block goes: clear of every running and every cached program while there is such a place, and otherwise clear of the
running ones (R256). -/
def programRoom (s : State) (n : Nat) : Option Nat :=
  let used := usedPrograms s
  match placeClear (used ++ s.host.blocks.map (fun b => (b.base, b.plen))) n with
  | some a => some a
  | none => placeClear used n

/-- The cached block that serves an entry, where REUSE allows one. -/
def cachedBlock (s : State) (f : Nat) (e : Entry) : Option Block :=
  if bit e.flags 0 then
    s.host.blocks.find? (fun b => b.fn == f && b.paddr == e.paddr && b.plen == e.plen && (!bit e.flags 1 || b.pcrc == e.pcrc))
  else none

/-- The private area of a thread. -/
def privateBase (t : Nat) : Nat := 0x7F0002400000 + 0x8000 * t

/-- The entry of a program: the thread binds the queue and takes its initial state (R207, R208). -/
def startProgram (s : State) (q : Nat) (e : Entry) : State :=
  let t := getF s PCI.QCFG_THREAD q
  let f := queueFn s q
  let argBytes := e.args.flatMap (fun a => toBytes 8 a.toNat)
  let s := entryFetched s q e.qseq (crc32c (loadBytes s e.base e.plen)) (crc32c argBytes)
  let s := setQueue s q { queueOf s q with entry := some { e with started := true } }
  let s := setF (setF (setF (setF s CWY.TSTAT_STATE 1 t) CWY.TSTAT_QUEUE q t) CWY.TSTAT_BOUND 1 t) CWY.DBGCTL_HALTED 0 t
  let s := zeroRange s (privateBase t) 0x8000
  let g : SMap Word := mput (((upto 4).foldl (fun m i => mput m (i + 1) (e.args.getD i 0)) [])) 30 (word 0x7F0007FF8000)
  let r : Core := { Core.fresh with
    g := g, pc := word (e.base + e.entry), hostfn := f, args := e.args, qseq := BitVec.ofNat 32 e.qseq,
    eflags := BitVec.ofNat 32 e.flags, pbase := e.base, plen := e.plen, wokeFrc := (coreOf s t).wokeFrc }
  let s := { s with host := { s.host with ordinals := s.host.ordinals.filter (fun o => o.1 / 2048 != t) } }
  setCore s t r

/-- Places an entry's block and reads it, or runs the cached copy. A block that finds no room waits, and so does one of a disabled
function (R256, R263). -/
def placeProgram (s : State) (q : Nat) (e : Entry) : State :=
  let f := queueFn s q
  if fnDisabled s f then s
  else match cachedBlock s f e with
  | some b => startProgram s q { e with base := b.base, placed := true }
  | none =>
    match programRoom s e.plen with
    | none => s
    | some a =>
      let keep := s.host.blocks.filter (fun b => !overlaps a e.plen b.base b.plen)
      let s := { s with host := { s.host with blocks := keep } }
      sendReads (setQueue s q { queueOf s q with entry := some { e with base := a, placed := true } }) f e.paddr e.plen

/-- The next entry of a queue is fetched and checked (R255). -/
def entryFetch (s : State) (q : Nat) (reply : HostReply) : State :=
  if !(fetchable s q && queueTurn s q) then s
  else
    let u := queueOf s q
    let head := getF s PCI.QSTAT_HEAD q
    let next := getF s PCI.QSEQ q
    let s := send s (.hostRead (queueFn s q) (getP s PCI.SQBASE q + 64 * head) 64)
    let s := setF (setF s PCI.QSTAT_HEAD ((head + 1) % ringSize s q) q) PCI.QSEQ ((next + 1) % 2 ^ 32) q
    let s := { s with host := { s.host with lastServed := mput s.host.lastServed (getF s PCI.QCFG_THREAD q) q } }
    let take (s : State) (e : Entry) : State :=
      setQueue s q { u with fetched := u.fetched + 1, promised := u.promised + 1, entry := some e }
    match reply with
    | .failed =>
      let (n, s) := free s
      let e := { entryOf [] u.fetched with qseq := n % 2 ^ 32 }
      refuseEntry (setF (take s e) PCI.ERR_FETCH 1) q e 2
    | .data bs =>
      let bs := slice bs 0 64
      let e := entryOf bs u.fetched
      let s := take s e
      if entryInvalid e bs then refuseEntry s q e 4
      else if e.qseq ≠ next then refuseEntry s q e 5
      else placeProgram s q e

/-- The block of an entry has been read, or could not be (R255, R256). -/
def programFetched (s : State) (q : Nat) (reply : HostReply) : State :=
  match discardStale s (.program (Fin.ofNat 64 q)), (queueOf s q).entry with
  | some s, _ => s
  | none, none => s
  | none, some e =>
    if e.started || fnDisabled s (queueFn s q) then s
    else if !e.placed then placeProgram s q e
    else match reply with
      | .failed => refuseEntry (setF s PCI.ERR_FETCH 1) q e 2
      | .data bs =>
        let bs := slice bs 0 e.plen
        if bit e.flags 1 && crc32c bs != e.pcrc then refuseEntry s q e 3
        else
          let s := putBytes s e.base bs
          let b : Block := ⟨queueFn s q, e.paddr, e.plen, if bit e.flags 1 then e.pcrc else 2 ^ 32, e.base⟩
          let older := s.host.blocks.filter (fun x => x.fn != b.fn || x.paddr != b.paddr || x.plen != b.plen)
          startProgram { s with host := { s.host with blocks := older ++ [b] } } q e

/-! Event rings and vectors (R260, R262). -/

/-- A write of 1 to EVCFG.EN. -/
def eventRingEnable (s : State) (f : Nat) : State :=
  let s := setF (setF (setF s PCI.EVCFG_EN 1 f) PCI.EVHEAD 0 f) PCI.EVTAIL 0 f
  if fnDisabled s f then s else writeReleases (putLost s f) f

/-- The host advances EVTAIL: what waited for room is written (R261). -/
def eventTail (s : State) (f v : Nat) : State :=
  let s := setF s PCI.EVTAIL v f
  if fnDisabled s f then s else writeReleases (putLost s f) f

/-- The pending message of a vector is sent, where neither it nor its function is masked (R262). -/
def sendPending (s : State) (f v : Nat) : State :=
  let e := vectorOf s f v
  if e.pending && !e.masked && !(fnOf s f).config.masked then send (setVector s f v { e with pending := false }) (.msi f e.addr e.data)
  else s

/-- A vector's mask bit is written; a pending message follows an unmask (R262). -/
def maskVector (s : State) (f v : Nat) (masked : Bool) : State :=
  sendPending (setVector s f v { vectorOf s f v with masked := masked }) f v

/-- A configuration write of a function: what its Device Control and MSI-X Message Control then hold (R246, R262). -/
def configWrite (s : State) (f : Nat) (c : FnConfig) : State :=
  let s := setFn s f { fnOf s f with config := c }
  forEach ((upto 256).filter (fun v => (vectorOf s f v).pending)) s (fun s v => sendPending s f v)

/-! Disabling and enabling a function (R263, R249). -/

/-- A completion that was held is posted: its thread's exit or fault takes its whole effect (R257, R263). -/
def postHeld (s : State) (t : Nat) : State :=
  match (coreOf s t).stall with
  | .exit v => exitCore s t v
  | _ => postFault s t

/-- What a function held is sent, once it is enabled: posted writes, completions, events, reports and reads, and what waited
for it proceeds (R201, R263, R265). -/
def fnEnabled (s : State) (f : Nat) : State :=
  if fnDisabled s f then s
  else
    let writes := s.host.heldWrites.filter (fun w => w.fn == f)
    let ends := s.host.heldEnds.filter (fun t => hostFn s t == f)
    let s := { s with host := { s.host with
      heldWrites := s.host.heldWrites.filter (fun w => w.fn != f), heldEnds := s.host.heldEnds.filter (fun t => !ends.contains t) } }
    let s := forEach writes s (fun s w => send s (.hostWrite w.fn w.addr w.bytes))
    let s := forEach ends s postHeld
    let held := (fnOf s f).held
    let s := forEach held (setFn s f { fnOf s f with held := [] }) (fun s e => deliverEvent s f e)
    let s := issueAllReads (writeReleases s f)
    let s := forEach (upto 48) s (fun s k =>
      match (coreOf s k).stall with
      | .memory => setCore s k { coreOf s k with stall := .none }
      | .hostLoad _ a n _ => if hostFn s k = f then send s (.hostRead f (busAddr (coreOf s k).hwin.toNat a) n) else s
      | .hostFence | .storeFence => if hostFn s k = f then send s (.hostRead f 0 0) else s
      | _ => s)
    let s := forEach ((upto 64).filter (fun q => queueFn s q == f)) s (fun s q => match (queueOf s q).entry with
      | some e => if e.placed && !e.started then sendReads s f e.paddr e.plen else s
      | none => s)
    let s := if f = 5 then mereEnabled s else s
    let s := if f = 0 then forEach (upto 4) s flushLag else s
    runLedgers s

/-- A function's Bus Master Enable, or FNCTL.EN, is cleared. FNCTL.EN of PF0 reads 1 always. -/
def fnDisable (s : State) (f : Nat) : DisableCause → State
  | .busMaster => setF s PCI.FNCTL_BME 0 f
  | .fnctl => if f = 0 then s else setF s PCI.FNCTL_EN 0 f

/-- A function's Bus Master Enable, or FNCTL.EN, is set; the configuration write that sets Bus Master Enable may change what else the
configuration space holds. -/
def fnEnable (s : State) (f : Nat) (c : EnableCause) : State :=
  let was := fnDisabled s f
  let s := match c with
    | .busMaster config => configWrite (setF s PCI.FNCTL_BME 1 f) f config
    | .fnctl => setF s PCI.FNCTL_EN 1 f
  if was then fnEnabled s f else s

/-- A function enters or leaves D3hot (R249). -/
def powerState (s : State) (f : Nat) (d3 : Bool) : State :=
  let was := fnDisabled s f
  let s := setFn s f { fnOf s f with d3 := d3 }
  if was then fnEnabled s f else s

/-- The PCI Express link trains, goes down or changes its power state (R246). A width the endpoint does not support is not
brought up. -/
def linkChange (s : State) (speed width pm : Nat) : State :=
  let up := speed != 0 && [1, 4, 8, 16].contains width
  setF (setF (setF s PCI.LINK_SPEED (if up then speed else 0)) PCI.LINK_WIDTH (if up then width else 0)) PCI.LINK_PM (if up then pm else 0)

/-! Host-window reads of cores (R201, R203). -/

/-- The value a load of `n` bytes puts in a register. -/
def loaded (v n : Nat) (sext : Bool) : Word := if sext then wordI (signed v (8 * n)) else word v

/-- The read a core awaits from host memory returns (R201, R203, R206). -/
def hostReturn (s : State) (k : Nat) (reply : HostReply) : State :=
  match discardStale s (.load (coreId k)) with
  | some s => s
  | none =>
    if fnDisabled s (hostFn s k) || !running s k then s
    else match (coreOf s k).stall, reply with
      | .hostLoad rd _ n sx, .data bs => unstall s k rd (loaded (field bs 0 n) n sx)
      | .hostLoad _ a _ _, .failed => takeFault s k 7 (coreOf s k).pc.toNat a
      | .hostFence, .data _ => retire (setCore s k { coreOf s k with stored := false }) k ((coreOf s k).pc + 4) none
      | .storeFence, .data _ => setCore s k { coreOf s k with stored := false, stall := .none }
      | .hostFence, .failed | .storeFence, .failed => takeFault s k 7 (coreOf s k).pc.toNat 0
      | _, _ => s

/-- An outstanding read exceeds its completion timeout: its requester fails it (R48, R201, R255). -/
def completionTimeout (s : State) (o : ReadOwner) : State :=
  let s := setF s PCI.ERR_CTO 1
  match o with
  | .band h off => readReturn s h off .failed
  | .load c => hostReturn s (coreNum c) .failed
  | .program q => programFetched s q .failed

end Sys2Proof.Machine
end

