-- ==== Sys2Proof/Machine/MemCtrl.lean ====
section
/-!
DEFINITION. The memory controller: address mapping, start and training, frequency changes, refresh, scrub, errors and poison,
retirement and migration, and self-refresh (R316 to R339); and what the page ledger does with a poisoned slot (R290, R291).
-/

namespace Sys2Proof.Machine

/-! Ranks and addresses (R317 to R320). -/

/-- A channel is fitted. -/
def chanOn (s : State) (m : Nat) : Bool := flag s MEM.CHCFG_EN m

/-- Ranks of a channel, and size of a rank in GiB. -/
def chanRanks (s : State) (m : Nat) : Nat := getF s MEM.CHCFG_RANKS m + 1

/-- Sets the status of a physical rank. -/
def setRankStat (s : State) (m i v : Nat) : State :=
  regPut s (MEM.RANKSTAT.off m) (BitVec.ofNat 32 (setBits (regRaw s (MEM.RANKSTAT.off m)).toNat (2 * i) 2 v))

/-- Logical ranks of a channel (R320). -/
def logicalRanks (s : State) (m : Nat) : Nat := chanRanks s m - getF s MEM.CHCFG_SPARE m

/-- The logical rank a physical rank serves. -/
def logRank (s : State) (m i : Nat) : Option Nat := (upto (logicalRanks s m)).find? (fun l => physRank s m l == i)

/-- The device address of a channel-local address (R318); none where no set names the channel. -/
def deviceAddr (s : State) (m a : Nat) : Option Nat :=
  ((upto 4).find? (fun k => (setChannels s k).contains m)).map (fun k =>
    let cs := setChannels s k
    setBase s k * 2 ^ 30 + (a / 4096 * cs.length + cs.idxOf m) * 4096 + a % 4096)

def setMemctl (s : State) (c : MemState) : State := { s with memctl := c }

/-! Start and training (R332, R335). -/

/-- Check CONFIG of a channel. -/
def chanBad (s : State) (m : Nat) : Bool :=
  getF s MEM.CHCFG_DENS m == 3 || (flag s MEM.CHCFG_SPARE m && (chanRanks s m == 1 || decide (chanRanks s m ≤ getF s MEM.CHCFG_SPRANK m)))

/-- The first check a START fails. -/
def memCheck (s : State) : Nat :=
  let on := (upto 4).filter (chanOn s)
  let sets := (upto 4).map (setChannels s)
  if on.any (chanBad s) then 1
  else if sets.any (fun cs => cs.length == 3 || cs.any (fun m => !chanOn s m) ||
      cs.any (fun m => cs.any (fun n => channelGib s m != channelGib s n))) ||
      on.any (fun m => (sets.filter (fun cs => cs.contains m)).length != 1) then 2
  else if on.isEmpty then 3
  else 0

/-- STATE becomes FAILED with a code (R332, R335). -/
def memFailed (s : State) (code ch : Nat) : State :=
  let s := setF (setF (setF s MEM.STAT_STATE 3) MEM.STAT_CODE code) MEM.STAT_FAILCH ch
  raiseEvent (setF s MEM.FREQ_BUSY 0) 0 0x0305 (regRaw s (MEM.STAT.off 0)).toNat 0

/-- The stage of training that every fitted channel is in. -/
def setStep (s : State) (n : Nat) : State := forEach ((upto 4).filter (chanOn s)) s (fun s m => setF s MEM.TRSTAT_STEP n m)

/-- Training of a set point begins. -/
def beginTraining (s : State) (sp : Nat) (forFreq : Bool) : State :=
  let s := setF (setF (setStep s 1) MEM.STAT_STATE 1) MEM.FREQ_BUSY 1
  setMemctl s { s.memctl with training := some sp, change := none, forFreq := forFreq, openRows := [] }

/-- The ranks of a channel as START finds them: the spare apart, the rest in ascending order (R320). -/
def layRanks (s : State) (m : Nat) : State :=
  let spare := if flag s MEM.CHCFG_SPARE m then some (getF s MEM.CHCFG_SPRANK m) else none
  let s := forEach (upto 4) s (fun s i => setRankStat s m i (if spare = some i then 1 else 0))
  let order := (upto (chanRanks s m)).filter (fun i => spare != some i)
  setMemctl s { s.memctl with ranks := (order.zip (upto order.length)).foldl (fun r e => mput r (4 * m + e.2) e.1) s.memctl.ranks }

/-- A write of 1 to MEM.CTL.START (R335). -/
def memStart (s : State) : State :=
  let st := getF s MEM.STAT_STATE
  if st = 1 ∨ st = 2 then s
  else
    let code := memCheck s
    if code ≠ 0 then memFailed s code 0
    else
      let s := setF (forEach ((upto 4).filter (chanOn s)) s layRanks) MEM.STAT_CODE 0
      beginTraining (setMemctl s { s.memctl with next := none }) (getF s MEM.FREQ_REQ) false

/-- A training step ends, and its stage where `stageEnds`; a request that waits restarts training at its set point (R334). -/
def trainingStep (s : State) (stageEnds : Bool) : State :=
  if getF s MEM.STAT_STATE ≠ 1 then s
  else match s.memctl.next with
    | some sp =>
      let s := setMemctl s { s.memctl with next := none }
      let s := forEach ((upto 4).filter (chanOn s)) s (fun s m => setF s MEM.TRSTAT_STEP 0 m)
      setF (beginTraining (setF s MEM.FREQ_CUR sp) sp true) MEM.STAT_RETRAIN 1
    | none =>
      let n := ((upto 4).filter (chanOn s)).map (fun m => getF s MEM.TRSTAT_STEP m)
      let stage := n.headD 0
      if stageEnds ∧ stage < 9 then setStep s (stage + 1) else s

/-- Requests that waited for SDRAM proceed (R333, R335): stalled cores execute again. -/
def memServe (s : State) : State :=
  forEach (upto 48) s (fun s k =>
    if (coreOf s k).stall = .memory then setCore s k { coreOf s k with stall := .none } else s)

/-- The set point in force changes (Table: frequency change, step 5). -/
def freqTaken (s : State) (sp : Nat) : State :=
  raiseEvent (setF (setF s MEM.FREQ_CUR sp) MEM.FREQ_BUSY 0) 0 0x0306 sp 0

/-- Whether every fitted channel holds a set point's training. -/
def spTrained (s : State) (sp : Nat) : Bool :=
  ((upto 4).filter (chanOn s)).all (fun m => flagBit s MEM.TRSTAT_SPVALID sp m)

/-- A request for a set point takes effect (R333, R334). -/
def requestFreq (s : State) (sp : Nat) : State :=
  if getF s MEM.STAT_STATE = 1 ∨ s.memctl.change.isSome then
    setMemctl s { s.memctl with next := if s.memctl.training = some sp then none else some sp }
  else if getF s MEM.STAT_STATE ≠ 2 ∨ sp = getF s MEM.FREQ_CUR then s
  else if spTrained s sp then setF (setMemctl s { s.memctl with change := some sp, openRows := [] }) MEM.FREQ_BUSY 1
  else beginTraining s sp true

/-- A write to MEM.FREQ.REQ. -/
def freqRequest (s : State) (sp : Nat) : State := requestFreq (setF s MEM.FREQ_REQ sp) sp

/-- What a request kept during a change leads to once the change has ended. -/
def freqNext (s : State) : State :=
  match s.memctl.next with
  | some sp => requestFreq (setMemctl s { s.memctl with next := none }) sp
  | none => s

/-- A frequency change ends. -/
def freqDone (s : State) : State :=
  match s.memctl.change with
  | some sp => memServe (freqNext (freqTaken (setMemctl s { s.memctl with change := none }) sp))
  | none => s

/-- A rank fails training: the spare takes its place where no migration holds it, or training fails (R332). A rank that is not
fitted is none. -/
def rankFails (s : State) (m i : Nat) : State :=
  if getF s MEM.STAT_STATE ≠ 1 ∨ !chanOn s m ∨ chanRanks s m ≤ i then s
  else
    let s := setF s MEM.ERR_TRAIN 1
    match (if migrating s m then none else spareOf s m), logRank s m i with
    | some p, some l =>
      let s := setRankStat (setRankStat s m i 3) m p 0
      let s := setMemctl s { s.memctl with ranks := mput s.memctl.ranks (4 * m + l) p }
      raiseEvent s 0 0x0302 (m + 4 * i + 16 * p) 0
    | _, _ => memFailed s 4 m

/-- Starts the retirement of a rank in service, or records that no spare is left: none fitted, or taken by a migration
(R330, R331). -/
def retireRank (s : State) (m i : Nat) : State :=
  if rankStat s m i = 2 then s
  else match (if migrating s m then none else spareOf s m), logRank s m i with
  | some p, some l =>
      let s := setF (setF (setRankStat s m i 2) MEM.RANKSTAT_LOG l m) MEM.MIGPTR 0 m
      raiseEvent (setF s MEM.ERR_MIGRATE 1) 0 0x0302 (m + 4 * i + 16 * p) 0
  | _, _ =>
    let s := setF s MEM.ERR_NO_SPARE 1
    if s.memctl.noSpare.contains (4 * m + i) then s
    else raiseEvent (setMemctl s { s.memctl with noSpare := s.memctl.noSpare ++ [4 * m + i] }) 0 0x0304 (m + 4 * i) 0

/-- The retirements that a warm reset has abandoned start again, from the beginning (R330). -/
def resumeRetirement (s : State) : State :=
  let l := s.memctl.retiring
  forEach l (setMemctl s { s.memctl with retiring := [] }) (fun s k =>
    match spareOf s (k / 4) with
    | some _ => retireRank s (k / 4) (k % 4)
    | none => s)

/-- Training of a set point ends; the ranks named have failed it (R332). -/
def trainingDone (s : State) (fails : List (Fin 4 × Fin 4)) : State :=
  match s.memctl.training with
  | none => s
  | some sp =>
    if getF s MEM.STAT_STATE ≠ 1 then s
    else
      let s := forEach fails (setF s MEM.STAT_RETRAIN 0) (fun s e => rankFails s e.1 e.2)
      let s := setMemctl (setStep s 0) { s.memctl with training := none, left := false }
      if getF s MEM.STAT_STATE ≠ 1 then s
      else
        let on := (upto 4).filter (chanOn s)
        let s := forEach on s (fun s m => setFlagBit s MEM.TRSTAT_SPVALID sp true m)
        let s := setF (setF s MEM.STAT_STATE 2) MEM.STAT_CODE 0
        let s := setF s MEM.CAP_GIB ((upto 4).map (setGib s)).sum
        let s := if s.memctl.forFreq then freqTaken s sp else setF (setF s MEM.FREQ_CUR sp) MEM.FREQ_BUSY 0
        memServe (freqNext (resumeRetirement s))

/-! Refresh (R324). -/

/-- An all-bank refresh of a rank. -/
def refreshRank (s : State) (m i : Nat) : State :=
  if chanOn s m && decide (i < chanRanks s m) && getF s MEM.STAT_STATE == 2 && !flag s MEM.STAT_SELFREF then
    setMemctl s { s.memctl with
      refreshed := mput s.memctl.refreshed (4 * m + i) s.frc
      openRows := s.memctl.openRows.filter (fun e => e.1 / 64 != 4 * m + i) }
  else s

/-- MR4 of a rank is read: whether it reports the doubled refresh rate. -/
def pollRank (s : State) (m i : Nat) (doubled : Bool) : State :=
  if chanOn s m && decide (i < chanRanks s m) && getF s MEM.STAT_STATE == 2 && !flag s MEM.STAT_SELFREF then
    let others := s.memctl.hot.filter (fun k => k != 4 * m + i)
    setMemctl s { s.memctl with
      polled := mput s.memctl.polled (4 * m + i) s.frc
      hot := if doubled then others ++ [4 * m + i] else others }
  else s

/-! A poisoned ledger slot (R290, R291). -/

/-- A slot that neither copy nor the mirror can supply: the group halts, at the lowest such slot. -/
def ledgerHalt (s : State) (g fsn : Nat) : State :=
  if haltedBelow s g (fsn + 1) then s
  else raiseEvent (setP (setF (setF s LDG.STAT_STATE 2 g) LDG.ERR_HALT 1) LDG.HALTFSN fsn g) 0 0x0103 g fsn

/-- The slot of a ring that a device address lies in: copy, group and slot number. -/
def slotAt_ (s : State) (a : Nat) : Option (Nat × Nat × Nat) :=
  ([1, 2].find? (fun k => regionOf s a == some k)).bind (fun k =>
    let o := a - regionBase s k
    if o < 4 * 2 ^ 26 then some (k, o / 2 ^ 26, o % 2 ^ 26 / 64) else none)

/-- An uncorrectable error in one copy of a slot: it is rewritten from the other copy, or both from the mirror where its group
did not lag when the slot was written (R290). -/
def repairSlot (s : State) (a : Nat) : State :=
  match slotAt_ s a with
  | none => s
  | some (k, g, n) =>
    let next := nextFsn s g
    let fsn := if next ≤ n then n else (next - 1 - n) / 2 ^ 20 * 2 ^ 20 + n
    let this := slotAddr s k g fsn
    let other := slotAddr s (3 - k) g fsn
    if next ≤ fsn ∨ fsn < getP s LDG.OLDEST g then s
    else if !poisoned s other 64 then
      setF (engineWrite s this (loadBytes s other 64)) LDG.ERR_COPY_REPAIR 1
    else match frameOf s g fsn with
      | some f =>
        if mirrorOpen s g && f.mirrored then
          let bs := f.record
          let s := send s (.hostRead 0 (mirrorAddr s g fsn) 64)
          setF (engineWrite (engineWrite s this bs) other bs) LDG.ERR_COPY_REPAIR 1
        else ledgerHalt s g fsn
      | none => ledgerHalt s g fsn

/-! Errors and retirement (R326 to R331). -/

/-- A poisoned word of the CAMERA region, by its offset: evidence entries are cleared, and Mere notes an error of an entry, a record
or an attribution word (R180). -/
def poisonCamera (s : State) (off : Nat) : State :=
  if off < 52 * 2 ^ 20 then setF (engineWrite s (cameraAddr s off / 64 * 64) (List.replicate 64 0)) MER.ERR_POISON 1
  else if (upto 2).any (fun k => decide (predStart s k ≤ off) && decide (off < areaEnd s k)) then setF s MER.ERR_POISON 1
  else s

/-- Tells the owner of the Mire region that holds a poisoned word (R328). -/
def reportPoison (s : State) (a : Nat) : State :=
  match regionOf s a with
  | some 0 =>
    let b := (a - regionBase s 0) / 65536
    forEach (s.intake.bands.map (fun e => e.1)) s (fun s h => bandPoison s h b)
  | some 1 | some 2 => repairSlot s a
  | some 4 => poisonCamera s (a - regionBase s 4)
  | some 3 =>
    let used := s.lode.hold.foldl (fun n h => n + rowLineBytes s (rowChannel s h.row)) 0
    if s.lode.hold.isEmpty ∨ a + used < regionBase s 3 + regionSize s 3 then s
    else
      let (n, s) := free s
      poisonHeld s (n % s.lode.hold.length)
  | _ => s

/-- A new uncorrectable error at a channel-local address: the word is poisoned and reported (R328). -/
def newError (s : State) (m a : Nat) (scrub retire : Bool) : State :=
  match deviceAddr s m a with
  | none => s
  | some d =>
    let w := d / 64
    if s.poison.contains w then s
    else
      let i := rankAt s m a
      let loc := m + 4 * i + 16 * (a / 64 % 2) + 32 * bnat scrub
      let s := { s with poison := s.poison ++ [w] }
      let s := incF s MEM.UECNT m
      let s := if flag s MEM.ERR_UE then s
        else setP (regPut s (MEM.ERRLOC.off 0) (BitVec.ofNat 32 loc)) MEM.ERRADDR (64 * w)
      let s := raiseEvent (reportPoison (setF s MEM.ERR_UE 1) (64 * w)) 0 0x0301 loc (64 * w)
      if retire then retireRank s m i else s

/-- A corrected error of a rank (R326, R330). -/
def correctedError (s : State) (m a : Nat) : State :=
  let i := rankAt s m a
  let s := incF s MEM.CECNT (4 * m + i)
  if getF s MEM.CFG_CETHR ≠ 0 ∧ getF s MEM.CECNT (4 * m + i) = getF s MEM.CFG_CETHR ∧ (spareOf s m).isSome ∧ !migrating s m then
    retireRank s m i
  else s

/-- Patrol scrub reads the next ECC word of a channel (R329). -/
def scrubRead (s : State) (m : Nat) (find : EccFind) : State :=
  if flag s MEM.SCRUB_EN && memUp s && !flag s MEM.STAT_SELFREF && chanOn s m && decide (getF s THM.ZSTAT_LEVEL 2 < 2) then
    let n := mget s.memctl.scrub m 0
    let total := logicalRanks s m * rankGib s m * 2 ^ 24
    let s := setMemctl s { s.memctl with scrub := mput s.memctl.scrub m ((n + 1) % Nat.max 1 total) }
    let s := accessBurst s m (64 * n)
    match find with
    | .clean => s
    | .corrected => correctedError s m (64 * n)
    | .uncorrectable => newError s m (64 * n) true true
  else s

/-- The next 4 KiB piece of a retiring rank is copied; the words named are found uncorrectable (R330). -/
def migrationPiece (s : State) (m : Nat) (bad : List (Fin 64)) : State :=
  let n := getF s MEM.MIGPTR m
  if migrating s m && memUp s && decide (n < rankGib s m * 2 ^ 18) then
    let base := getF s MEM.RANKSTAT_LOG m * rankGib s m * 2 ^ 30 + 4096 * n
    let s := forEach (upto 64) s (fun s w => accessBurst s m (base + 64 * w))
    setF (forEach bad s (fun s w => newError s m (base + 64 * w.val) false false)) MEM.MIGPTR (n + 1) m
  else s

/-- The copy has ended: the spare takes the logical rank (R330). -/
def migrationDone (s : State) (m : Nat) : State :=
  match (upto 4).find? (fun i => rankStat s m i == 2), spareOf s m with
  | some i, some p =>
    if getF s MEM.MIGPTR m < rankGib s m * 2 ^ 18 then s
    else
      let l := getF s MEM.RANKSTAT_LOG m
      let s := setRankStat (setRankStat s m i 3) m p 0
      let s := setMemctl s { s.memctl with ranks := mput s.memctl.ranks (4 * m + l) p }
      raiseEvent s 0 0x0303 (m + 4 * i + 16 * p) 0
  | _, _ => s

/-! Self-refresh (R336, R337). -/

/-- After IDLE µs without a request the controller enters self-refresh. -/
def selfRefreshEnter (s : State) : State :=
  let idle := getF s MEM.PWRCFG_IDLE
  if memUp s && idle != 0 && decide (s.memctl.lastAccess + 1250 * idle ≤ s.frc) && !(upto 4).any (migrating s) then prechargeAll (setF s MEM.STAT_SELFREF 1) else s

/-- A request ends self-refresh. -/
def selfRefreshExit (s : State) : State := setF s MEM.STAT_SELFREF 0

end Sys2Proof.Machine
end

