-- ==== Sys2Proof/Machine/Lanes.lean ====
section
/-!
DEFINITION. The serial lanes: quads and their rates, training, lock and its loss, test patterns, the eye monitor and the
power states (R340 to R354).
-/

namespace Sys2Proof.Machine

def quadOf (s : State) (q : Nat) : QuadState := mget s.lane.quads q ⟨none, none, [], false, false⟩
def setQuad (s : State) (q : Nat) (v : QuadState) : State := { s with lane := { s.lane with quads := mput s.lane.quads q v } }
def setReacquiring (s : State) (l : Nat) (v : Bool) : State :=
  { s with lane := { s.lane with reacquiring :=
      (if v then [l] else []) ++ s.lane.reacquiring.filter (fun x => x != l) } }

/-- Lanes of a quad. -/
def quadLanes (q : Nat) : List Nat := fromTo (4 * q) (4 * q + 3)

/-- The power domain of a lane (Table: lane assignment). -/
def laneDomain (l : Nat) : Nat := if l < 16 then 4 else if l < 32 then 5 else 6

/-- A CoaXPress downconnection: its transmitter stays in SLEEP (R340). -/
def isCamLane (s : State) (l : Nat) : Bool := decide (32 ≤ l) && decide (l < 40) && !throughput s

/-- Whether an enabled camera uses a CoaXPress lane: 1, 2 or 4 connections from its master connection on (R160). -/
def camUses (s : State) (l : Nat) : Bool :=
  let k := (l - 32) / 4
  flag s MER.CAMCFG_EN k && decide ((l - 32) % 4 < 2 ^ getF s MER.CAMCFG_NCONN k)

/-- A lane that stays powered down: of the twin link of a unit that is lone by its strap (R294), or of no enabled camera
(R160). -/
def isDeadLane (s : State) (l : Nat) : Bool :=
  (decide (40 ≤ l) && decide (l < 44) && !twinEnabled s) || (isCamLane s l && !camUses s l)

/-! Rates (R341), in 156.25 MHz / 2^24. -/

/-- A quad rate from a LAN.QRATE value. -/
def rateOf (v : Nat) : Nat := bits v 0 8 * 2 ^ 24 + bits v 8 24

/-- 32.0 Gbit/s, as the table of common rates gives it. -/
def rateTop : Nat := 204 * 2 ^ 24 + 0xCCCCCD

/-- The quad rate lies between 10.0 and 32.0 Gbit/s. -/
def rateLegal (v : Nat) : Bool := decide (64 * 2 ^ 24 ≤ rateOf v) && decide (rateOf v ≤ rateTop)

/-- The rate of a lane obeys R341: the limits of its use, and the rates a standard fixes. The rate is r / 2^d. -/
def laneRateLegal (s : State) (l r d : Nat) : Bool :=
  let is (n num : Nat) : Bool := r * n == num * 2 ^ 24 * 2 ^ d
  let up (m : Nat) : Bool := decide (r ≤ m * 2 ^ d)
  decide (8 * 2 ^ 24 * 2 ^ d ≤ r) &&
    (if isCamLane s l then [8, 16, 20, 32, 40, 64, 80].any (is 1)
     else if l < 40 then up (if throughput s then rateTop else 180 * 2 ^ 24)
     else if l < 44 then up (165 * 2 ^ 24)
     else [66, 165].any (is 1))

/-! Lock and its loss (R348 to R350). -/

/-- ETH.PSTAT.LINK of a port follows block lock of its lane; a change raises ETH_LINK (Table: ETH.PSTAT). -/
def ethLink (s : State) (p : Nat) : State :=
  let v := flag s LAN.LSTAT_LOCK (44 + p) && flag s ETH.PCFG_EN p
  if flag s ETH.PSTAT_LINK p = v then s
  else raiseEvent (setF s ETH.PSTAT_LINK (bnat v) p) 7 0x0501 (p + 256 * bnat v) 0

/-- Tells the owner of a lane that it has no lock. -/
def tellLost (s : State) (l : Nat) : State :=
  if l < 32 || (l < 40 && throughput s) then linkLaneLost s l else if 44 ≤ l then ethLink s (l - 44) else s

/-- A scan in progress ends without a result (R352). -/
def abortEye (s : State) (l : Nat) : State :=
  if flag s LAN.EYECTL_BUSY l then setF (setF s LAN.EYECTL_BUSY 0 l) LAN.EYERES 0xFFFFFFFF l else s

/-- A receiver loses lock: what R348 lists, and reacquisition where a signal remains (R350). -/
def lockLost (s : State) (l : Nat) (signal : Bool) : State :=
  let s := setF (setF s LAN.LSTAT_LOCK 0 l) LAN.LSTAT_SIGDET (bnat signal) l
  let s := setReacquiring (abortEye (incF s LAN.LOCKCNT l) l) l signal
  tellLost (raiseEvent s 0 0x0401 l (getF s LAN.LSTAT l)) l

/-- A receiver leaves service without a loss of lock (R353). -/
def dropLock (s : State) (l : Nat) : State :=
  let had := flag s LAN.LSTAT_LOCK l
  let s := setF (setF (setF s LAN.LSTAT_LOCK 0 l) LAN.RXSTAT_STAGE 0 l) LAN.RXSTAT_FROZEN 0 l
  let s := setReacquiring (abortEye (setF s LAN.PRBSCFG_SYNC 0 l) l) l false
  if had then tellLost s l else s

/-- A receiver that is enabled and ACTIVE. -/
def rxActive (s : State) (l : Nat) : Bool := flag s LAN.LCFG_EN l && getF s LAN.LSTAT_RXST l == 0

/-- QUAD_RATE is raised when every receiver with a signal has locked at the new rate (R342, R347). -/
def checkQuadRate (s : State) (q : Nat) : State :=
  let u := quadOf s q
  if u.due && !(quadLanes q).any (fun l => rxActive s l && flag s LAN.LSTAT_SIGDET l && !flag s LAN.LSTAT_LOCK l) then
    let s := setF (setQuad s q { u with due := false }) LAN.QSTAT_RETRAIN 0 q
    raiseEvent s 0 0x0405 q (getF s LAN.QRATE q)
  else s

/-- A receiver locks. -/
def lockGained (s : State) (l : Nat) : State :=
  if rxActive s l && !flag s LAN.LSTAT_LOCK l && !flag s LAN.QSTAT_CHANGING (l / 4) &&
      (s.lane.reacquiring.contains l || getF s LAN.RXSTAT_STAGE l == 5) then
    let s := setF (setF (setF s LAN.LSTAT_LOCK 1 l) LAN.LSTAT_SIGDET 1 l) LAN.RXSTAT_STAGE 0 l
    let s := raiseEvent (setReacquiring s l false) 0 0x0402 l 0
    let s := if l < 32 || (l < 40 && throughput s) then linkLaneLocked s l else if 44 ≤ l then ethLink s (l - 44)
      else if 40 ≤ l ∧ twinEnabled s ∧ twinState s = 1 then sendHello s else s
    checkQuadRate s (l / 4)
  else s

/-- Errors counted on a locked receiver; above ERRMAX, 0 acting as 1, they shut it down (R349). -/
def laneErrors (s : State) (l n : Nat) : State :=
  let s := addF s LAN.BLKERR n l
  if flag s LAN.LSTAT_LOCK l && decide (Nat.max 1 (getF s LAN.CFG_ERRMAX) < n) then
    let s := raiseEvent (setF s LAN.LSTAT_ERRSD 1 l) 0 0x0403 l (getF s LAN.CFG_ERRMAX)
    lockLost s l true
  else s

/-! Training (R345 to R347). -/

/-- The CTLE code a receiver settles at: the register's in MANUAL, one that the spec does not state otherwise. -/
def settleCtle (s : State) (l : Nat) : State :=
  if getF s LAN.RXCFG_ADAPT l = 2 then setF s LAN.RXSTAT_CTLE (getF s LAN.RXCFG_CTLE l) l
  else
    let (v, s) := free s
    setF s LAN.RXSTAT_CTLE (v % 16) l

/-- The DFE taps a receiver settles at: 0 in MANUAL, unstated otherwise. -/
def settleDfe (s : State) (l : Nat) : State :=
  forEach (upto 12) s (fun s i =>
    if getF s LAN.RXCFG_ADAPT l = 2 then setF s LAN.DFE_TAP 0 (16 * l + i)
    else
      let (v, s) := free s
      setF s LAN.DFE_TAP (v % 256) (16 * l + i))

/-- A rate change starts: every lane of the quad loses lock, and the PLL moves to the new rate (Table: quad rate change).
The rate already in force changes nothing. -/
def startQuadRate (s : State) (q : Nat) (v : Reg32) : State :=
  let s := setQuad s q { quadOf s q with want := none, waits := [] }
  if regRaw s (LAN.QRATE.off q) = v then s
  else
    let s := setF (setF (regPut s (LAN.QRATE.off q) v) LAN.QSTAT_CHANGING 1 q) LAN.QSTAT_PLLLOCK 0 q
    let s := setQuad s q { quadOf s q with due := false }
    forEach (quadLanes q) s (fun s l =>
      let s := setF s LAN.RXSTAT_STAGE 0 l
      let s := if flag s LAN.LSTAT_LOCK l then lockLost s l true else s
      setReacquiring s l false)

/-- A write of LAN.QRATE[q] (R342, R343, R347). -/
def quadRateWrite (s : State) (q : Nat) (v : Reg32) : State :=
  if !flag s LAN.QCFG_EN q then regPut s (LAN.QRATE.off q) v
  else if !rateLegal v.toNat then setF s LAN.QSTAT_RATEREF 1 q
  else
    let u := quadOf s q
    let training := (quadLanes q).filter (fun l => decide (getF s LAN.RXSTAT_STAGE l ≠ 0))
    if flag s LAN.QSTAT_CHANGING q || u.waits ≠ [] then setQuad s q { u with want := some v }
    else if regRaw s (LAN.QRATE.off q) = v then s
    else if training ≠ [] then setQuad s q { u with want := some v, waits := training }
    else startQuadRate s q v

/-- The PLL has locked at the new rate; transmitters resume and receivers train. Once they have locked, QUAD_RATE is
raised. -/
def quadRateDone (s : State) (q : Nat) : State :=
  if flag s LAN.QSTAT_CHANGING q then
    let s := setF (setF s LAN.QSTAT_CHANGING 0 q) LAN.QSTAT_PLLLOCK 1 q
    let s := forEach ((quadLanes q).filter (rxActive s)) s (fun s l => setF s LAN.RXSTAT_STAGE 1 l)
    let s := setQuad s q { quadOf s q with due := true }
    match (quadOf s q).want with
    | some v => checkQuadRate (startQuadRate s q v) q
    | none => checkQuadRate s q
  else checkQuadRate s q

/-- A training step of a receiver ends. -/
def trainingStage (s : State) (l : Nat) (ok : Bool) : State :=
  let q := l / 4
  let st := getF s LAN.RXSTAT_STAGE l
  let u := quadOf s q
  if st = 0 then s
  else if u.waits.contains l then
    let s := setF (setF s LAN.RXSTAT_STAGE 0 l) LAN.QSTAT_RETRAIN 1 q
    let rest := u.waits.filter (fun x => x != l)
    let s := setQuad s q { u with waits := rest }
    if rest = [] then startQuadRate s q (u.want.getD 0) else s
  else if !ok then setF s LAN.RXSTAT_STAGE 1 l
  else if st = 5 then lockGained s l
  else
    let s := if st = 1 then setF s LAN.LSTAT_SIGDET 1 l else if st = 3 then settleCtle s l else if st = 4 then settleDfe s l else s
    setF s LAN.RXSTAT_STAGE (st + 1) l

/-- Reacquisition has failed, or 10 ms have passed: an unlocked receiver trains from stage 1 (R350). -/
def laneRetrain (s : State) (l : Nat) : State :=
  if rxActive s l && !flag s LAN.LSTAT_LOCK l && !flag s LAN.QSTAT_CHANGING (l / 4) then
    setF (setReacquiring s l false) LAN.RXSTAT_STAGE 1 l
  else s

/-- Signal returns after a loss: reacquisition from the held values (R350). -/
def signalReturn (s : State) (l : Nat) : State :=
  if rxActive s l && !flag s LAN.LSTAT_SIGDET l then
    let s := setF s LAN.LSTAT_SIGDET 1 l
    if getF s LAN.RXSTAT_STAGE l = 0 then setReacquiring s l true else s
  else s

/-- A window of 65,536 UI ends with n transitions (R346); an adapting receiver has new values (R345). -/
def densityWindow (s : State) (l n : Nat) : State :=
  if !rxActive s l then s
  else
    let s := setF s LAN.RXSTAT_TDENS (Nat.min 255 (n / 256)) l
    let low : Bool := decide (n < 256 * getF s LAN.RXCFG_TDMIN l)
    let s := setF s LAN.RXSTAT_FROZEN (bnat low) l
    if !low && flag s LAN.LSTAT_LOCK l && decide (getF s LAN.RXCFG_ADAPT l = 0) then settleDfe (settleCtle s l) l else s

/-! Enables (R343) and power states (R353). -/

/-- The PLL stops when all eight sides of its quad have gone to SLEEP. -/
def quadSleeps (s : State) (q : Nat) : State :=
  if (quadLanes q).all (fun l => getF s LAN.LSTAT_TXST l == 2 && getF s LAN.LSTAT_RXST l == 2) && flag s LAN.QSTAT_PLLLOCK q then
    setQuad (setF s LAN.QSTAT_PLLLOCK 0 q) q { quadOf s q with asleep := true }
  else s

/-- The PLL runs again when a side of its quad wakes. -/
def quadWakes (s : State) (q : Nat) : State :=
  if (quadOf s q).asleep then setQuad (setF s LAN.QSTAT_PLLLOCK 1 q) q { quadOf s q with asleep := false } else s

/-- A lane is switched off. -/
def laneOff (s : State) (l : Nat) : State :=
  let s := dropLock s l
  let s := setF (setF (setF s LAN.LCFG_EN 0 l) LAN.LSTAT_TXST 2 l) LAN.LSTAT_RXST 2 l
  if 44 ≤ l then ethLink s (l - 44) else s

/-- A write of LAN.LCFG[l].EN, after the other fields. -/
def laneEnWrite (s : State) (l : Nat) (en : Bool) : State :=
  let q := l / 4
  if !en then (if flag s LAN.LCFG_EN l then quadSleeps (laneOff s l) q else s)
  else if flag s LAN.LCFG_EN l then s
  else
    let ready : Bool := flag s LAN.QCFG_EN q && (flag s LAN.QSTAT_PLLLOCK q || (quadOf s q).asleep)
    let config : Bool := laneRateLegal s l (rateOf (getF s LAN.QRATE q)) (getF s LAN.LCFG_LDIV l) &&
      getF s LAN.LCFG_TEST l != 3 && decide (getF s LAN.PRBSCFG_POLY l < 5) && getF s LAN.RXCFG_ADAPT l != 3
    let held : Bool := domainHeld s (laneDomain l) || (!confirmed s && decide (32 ≤ l) && decide (l < 40))
    let code := if held then 1 else if !ready then 2 else if !config then 3 else 0
    let s := setF s LAN.LSTAT_CODE code l
    if code ≠ 0 then s
    else
      let s := setF s LAN.LCFG_EN 1 l
      if isDeadLane s l then s
      else
        let s := quadWakes s q
        setF (if isCamLane s l then s else setF s LAN.LSTAT_TXST 3 l) LAN.LSTAT_RXST 3 l

/-- The receivers of a camera's lanes power up where EN has become 1 and down where it has become 0 (R160). -/
def camLanesPower (s : State) (k : Nat) : State :=
  forEach ((fromTo (32 + 4 * k) (35 + 4 * k)).filter (fun l => isCamLane s l && flag s LAN.LCFG_EN l)) s (fun s l =>
    if isDeadLane s l then quadSleeps (setF (dropLock s l) LAN.LSTAT_RXST 2 l) (l / 4)
    else if getF s LAN.LSTAT_RXST l = 2 then setF (quadWakes s (l / 4)) LAN.LSTAT_RXST 3 l
    else s)

/-- A write of LAN.QCFG[q].EN, after REFSEL. -/
def quadEnWrite (s : State) (q : Nat) (en : Bool) : State :=
  if !en then
    let s := forEach ((quadLanes q).filter (fun l => flag s LAN.LCFG_EN l)) s laneOff
    let s := forEach [LAN.QSTAT_PLLLOCK, LAN.QSTAT_CHANGING, LAN.QSTAT_RETRAIN, LAN.QCFG_EN] s (fun s f => setF s f 0 q)
    { s with lane := { s.lane with quads := mdel s.lane.quads q } }
  else if flag s LAN.QCFG_EN q then s
  else if !rateLegal (getF s LAN.QRATE q) then setF s LAN.QSTAT_RATEREF 1 q
  else setQuad (setF s LAN.QCFG_EN 1 q) q ⟨some (s.frc + 50000), none, [], false, false⟩

/-- A quad's PLL that was switched on is locked 40 µs later. -/
def tickQuads (s : State) : State :=
  forEach ((upto 12).filter (fun q => match (quadOf s q).lockAt with | some t => decide (t ≤ s.frc) | none => false)) s (fun s q =>
    setF (setQuad s q { quadOf s q with lockAt := none }) LAN.QSTAT_PLLLOCK 1 q)

/-- A quad's PLL fails to lock, or loses lock (Table: LAN.QSTAT). -/
def quadPllFail (s : State) (q : Nat) : State :=
  if flag s LAN.QCFG_EN q then
    let s := setQuad s q { quadOf s q with lockAt := none }
    let s := setF (setF s LAN.QSTAT_PLLFAIL 1 q) LAN.QSTAT_PLLLOCK 0 q
    let s := raiseEvent s 0 0x0404 q 0
    forEach (quadLanes q) s (fun s l =>
      let s := setF s LAN.RXSTAT_STAGE 0 l
      if flag s LAN.LSTAT_LOCK l then lockLost s l true else s)
  else s

/-- The owner moves a side of a lane to STANDBY or SLEEP, never deeper than LAN.PWR permits. -/
def laneSleep (s : State) (l : Nat) (tx deep : Bool) : State :=
  let st := if tx then LAN.LSTAT_TXST else LAN.LSTAT_RXST
  let t := if deep then 2 else 1
  let most := Nat.min 2 (getF s (if tx then LAN.PWR_TXMIN else LAN.PWR_RXMIN) l)
  if flag s LAN.LCFG_EN l && decide (t ≤ most) && getF s st l != 2 && getF s st l != t then
    let s := if tx then s else dropLock s l
    quadSleeps (setF s st t l) (l / 4)
  else s

/-- A side of a lane wakes to ACTIVE. -/
def laneWake (s : State) (l : Nat) (tx : Bool) : State :=
  let st := if tx then LAN.LSTAT_TXST else LAN.LSTAT_RXST
  let was := getF s st l
  if !flag s LAN.LCFG_EN l || was == 0 || isDeadLane s l || (tx && isCamLane s l) then s
  else
    let s := setF (quadWakes s (l / 4)) st 0 l
    if tx then s
    else if was = 3 then setF s LAN.RXSTAT_STAGE 1 l
    else setReacquiring s l true

/-! The transmitter's equaliser (R344). -/

/-- What a lane's FFE applies, in 1/64 of full swing, and its swing code. -/
structure TxTaps where
  pre : Int
  main : Int
  post : Int
  amp : Nat
  deriving DecidableEq, Repr

/-- The taps of a lane: where PRE + POST exceeds 24, POST is 24 − PRE. -/
def txTaps (s : State) (l : Nat) : TxTaps :=
  let pre := getF s LAN.TXEQ_PRE l
  let post := Nat.min (getF s LAN.TXEQ_POST l) (24 - pre)
  { pre := -pre, main := 64 - pre - post, post := -post, amp := getF s LAN.TXEQ_AMP l }

/-! Test patterns and the eye monitor (R351, R352). -/

/-- The pattern of a POLY: the two delays whose bits the next bit is the sum of. -/
def prbsDelays (poly : Nat) : Option (Nat × Nat) :=
  [(7, 6), (9, 5), (15, 14), (23, 18), (31, 28)][poly]?

/-- The bit of a lane's pattern that follows the bits sent before it, the latest first; INV inverts the pattern on both sides. -/
def patternNext (s : State) (l : Nat) (sent : List Bool) : Option Bool :=
  (prbsDelays (getF s LAN.PRBSCFG_POLY l)).map (fun d =>
    let inv := flag s LAN.PRBSCFG_INV l
    xor (xor (xor (sent.getD (d.1 - 1) false) inv) (xor (sent.getD (d.2 - 1) false) inv)) inv)

/-- Whether eye scans and PRBS checking are refused: zone Z5 stands at THROTTLE or above (Table: zones). -/
def checksRefused (s : State) : Bool := decide (2 ≤ getF s THM.ZSTAT_LEVEL 5)

/-- A write of 1 to LAN.EYECTL[l].GO. -/
def eyeScan (s : State) (l : Nat) : State := if checksRefused s then s else setF s LAN.EYECTL_BUSY 1 l

/-- A scan ends with n disagreements. -/
def eyeDone (s : State) (l n : Nat) : State :=
  if flag s LAN.EYECTL_BUSY l then setF (setF s LAN.EYECTL_BUSY 0 l) LAN.EYERES (Nat.min 0xFFFFFFFF n) l else s

/-- LAN.PRBSCFG[l].CLR. -/
def prbsClear (s : State) (l : Nat) : State := setP (setP s LAN.PRBSERR 0 l) LAN.PRBSBITS 0 l

/-- The checker has compared bits, and found errors in them, while SYNC was 1; SYNC takes its new value. -/
def prbsSync (s : State) (l : Nat) (sync : Bool) (compared errors : Nat) : State :=
  if rxActive s l && getF s LAN.LCFG_TEST l == 1 && !checksRefused s then
    let add (s : State) (p : Pair) (n : Nat) : State := setP s p (Nat.min (2 ^ 48 - 1) (getP s p l + n)) l
    let s := if flag s LAN.PRBSCFG_SYNC l then add (add s LAN.PRBSBITS compared) LAN.PRBSERR errors else s
    setF s LAN.PRBSCFG_SYNC (bnat sync) l
  else s

/-- QUAD_RATE_DONE: a quad's rate change completes. -/
def execQuadRateDone (q : Fin 12) (s : State) : Result := .next (whenUp pllLanes s (quadRateDone s q))
/-- QUAD_PLL_FAIL. -/
def execQuadPllFail (q : Fin 12) (s : State) : Result := .next (whenUp pllLanes s (quadPllFail s q))
/-- LANE_TRAINING_STAGE: a training step completes or fails. -/
def execLaneTrainingStage (l : Fin 48) (ok : Bool) (s : State) : Result := .next (whenUp pllLanes s (trainingStage s l ok))
/-- LANE_LOCK. -/
def execLaneLock (l : Fin 48) (s : State) : Result := .next (whenUp pllLanes s (lockGained s l))
/-- LANE_LOCK_LOST: lock is lost, with or without the signal. -/
def execLaneLockLost (l : Fin 48) (signal : Bool) (s : State) : Result :=
  .next (whenUp pllLanes s (if flag s LAN.LSTAT_LOCK l then lockLost s l signal else s))
/-- LANE_ERRSD: so many errors have come within 1 ms. -/
def execLaneErrsd (l : Fin 48) (errors : Nat) (s : State) : Result := .next (whenUp pllLanes s (laneErrors s l errors))
/-- LANE_RETRAIN. -/
def execLaneRetrain (l : Fin 48) (s : State) : Result := .next (whenUp pllLanes s (laneRetrain s l))
/-- SIGNAL_RETURN. -/
def execSignalReturn (l : Fin 48) (s : State) : Result := .next (whenUp pllLanes s (signalReturn s l))
/-- TD_WINDOW: a window ends with its count of transitions. -/
def execTdWindow (l : Fin 48) (transitions : Nat) (s : State) : Result := .next (whenUp pllLanes s (densityWindow s l transitions))
/-- EYE_SCAN_DONE. -/
def execEyeScanDone (l : Fin 48) (count : Nat) (s : State) : Result := .next (whenUp pllLanes s (eyeDone s l count))
/-- PRBS_SYNC_CHANGE. -/
def execPrbsSyncChange (l : Fin 48) (sync : Bool) (compared errors : Nat) (s : State) : Result :=
  .next (whenUp pllLanes s (prbsSync s l sync compared errors))
/-- LANE_SLEEP: the transmitter or the receiver goes to STANDBY or SLEEP. -/
def execLaneSleep (l : Fin 48) (tx deep : Bool) (s : State) : Result := .next (whenUp pllLanes s (laneSleep s l tx deep))
/-- LANE_WAKE: the transmitter or the receiver becomes ACTIVE. -/
def execLaneWake (l : Fin 48) (tx : Bool) (s : State) : Result := .next (whenUp pllLanes s (laneWake s l tx))

end Sys2Proof.Machine
end

