-- ==== Sys2Proof/Machine/TimeUnit.lean ====
section
/-!
DEFINITION. The time domains and the working time, timed outputs, input captures and marker pulses (R355 to R361, R242).
-/

namespace Sys2Proof.Machine

/-! Domains (R356 to R358). -/

/-- A step or an arming is refused: the domain is the one W follows, or goes to, and a frame is ARMED or FIRING (R357). -/
def stepRefused (s : State) (d : Nat) : Bool := getF s TIM.WORK_SEL == d && (upto 4).any (groupPrinting s)

/-- A write of 1 to TIM.TDCTL[d].ACQ. -/
def timeAcquire (s : State) (d : Nat) : State :=
  if stepRefused s d then setF s TIM.ERR_ACQ_REF 1 else setF s TIM.TDSTAT_STATE 1 d

/-- A write of TIM.STEP_HI[d], with the step in whole ns. -/
def domainStep (s : State) (d : Nat) (ns : Int) : State :=
  if getF s TIM.TDSTAT_STATE d ≠ 1 then setF s TIM.ERR_STEP_IGN 1
  else if stepRefused s d then setF s TIM.ERR_ACQ_REF 1
  else
    let by_ : Int := ns * 2 ^ 32 + (getF s TIM.STEPFR_FRAC d * 65536 : Nat)
    let s := setF (setOffset32 s d ((offset32 s d : Nat) + by_)) TIM.TDSTAT_STATE 2 d
    forEach [0, 7] s (fun s f => raiseEvent s f 0x0502 d (unsign ns 64))

/-- The bounds of a rate, 0.8 ns ± 1,000 ppm, in 2^-32 ns: the nearest values inside them. -/
def rateLow : Nat := (2 ^ 32 * 7992 + 9999) / 10000
def rateHigh : Nat := 2 ^ 32 * 8008 / 10000

/-- A write of TIM.RATE_HI[d], with the whole rate: the domain's time is continuous at the next tick. -/
def domainRate (s : State) (d rate : Nat) : State :=
  let new := Nat.min rateHigh (Nat.max rateLow rate)
  let s := if new = rate then s else setF s TIM.ERR_RATE_CLAMP 1
  let old := getP s TIM.RATE d
  let s := setOffset32 s d ((offset32 s d : Nat) + ((s.frc + 1 : Nat) : Int) * ((old : Int) - new))
  setP s TIM.RATE new d

/-- A write of TIM.WORK.SEL: W goes on from its present value. -/
def workSelect (s : State) (d : Nat) : State :=
  if getF s TIM.WORK_SEL = d then s
  else if getF s TIM.TDSTAT_STATE d ≠ 2 then setF s TIM.ERR_WORK_REF 1
  else
    let gap := signed (unsign ((work32 s : Int) - domainTimeAt s d s.frc) 96) 96
    let s := setF (setF s TIM.WORK_SEL d) TIM.WORK_SWITCHING 1
    { s with time := { s.time with corr := gap, corrFrc := s.frc } }

/-- W is within 0.1 ns of the new domain: it follows it exactly from here. -/
def timeSwitched (s : State) : State :=
  let c := correctionAt s s.frc
  if flag s TIM.WORK_SWITCHING && decide (c ≤ (429496729 : Int)) && decide (-429496729 ≤ c) then
    let s := { setF s TIM.WORK_SWITCHING 0 with time := { s.time with corr := 0, corrFrc := s.frc } }
    forEach [0, 7] s (fun s f => raiseEvent s f 0x0503 (getF s TIM.WORK_SEL) 0)
  else s

/-- A write of 1 to TIM.SNAP.GO latches TD0, TD1 and W in the readout format. -/
def timeSnap (s : State) : State :=
  let put (s : State) (j t : Nat) : State :=
    let ns := t / 2 ^ 32
    setF (setF (setP s TIM.SNSEC (ns / 1000000000) j) TIM.SNNS (ns % 1000000000) j) TIM.SNFR_FRAC (t / 65536 % 65536) j
  put (put (put s 0 (domainTimeAt s 0 s.frc)) 1 (domainTimeAt s 1 s.frc)) 2 (work32 s)

/-! Timed outputs (R242, R359). -/

def pendTrigs (s : State) (o : Nat) : List PendTrig := mget s.time.trigs o []
def setTrigs (s : State) (o : Nat) (l : List PendTrig) : State :=
  setF { s with time := { s.time with trigs := mput s.time.trigs o l } } TIM.TOCFG_PENDING l.length o

/-- Drives an output. -/
def driveOut (s : State) (o : Nat) (high : Bool) : State :=
  if flag s TIM.TOCFG_LEVEL o = high then s else sendPin (setF s TIM.TOCFG_LEVEL (bnat high) o) 1 (.tout o high)

def pulsesOf (s : State) (o : Nat) : List Pulse := mget s.time.pulses o []
def setPulses (s : State) (o : Nat) (l : List Pulse) : State := { s with time := { s.time with pulses := mput s.time.pulses o l } }

/-- A TRIG acts on its output; a PULSE completes only at its end. -/
def actTrig (s : State) (o : Nat) (t : PendTrig) (late : Bool) : State :=
  let now := workNs s
  let fin (s : State) : State := completeOp s t.op 0 (bnat late) 0 now
  if t.action = 0 then fin (driveOut s o true)
  else if t.action = 1 then fin (driveOut s o false)
  else if t.action = 3 then fin (driveOut s o (!flag s TIM.TOCFG_LEVEL o))
  else setPulses (driveOut s o true) o (pulsesOf s o ++ [⟨now + 10 * t.width, t.op, late⟩])

/-- Inserts a TRIG in ascending time order, equal times in issue order. -/
def insertTrig : List PendTrig → PendTrig → List PendTrig
  | [], t => [t]
  | x :: r, t => if t.time < x.time then t :: x :: r else x :: insertTrig r t

/-- A TRIG descriptor breaks R242. -/
def trigInvalid (d : List Byte) : Bool :=
  let w := field d 8 4
  bits w 6 10 != 0 || field d 12 4 != 0 || (if bits w 4 2 = 2 then bits w 16 16 == 0 else bits w 16 16 != 0)

/-- A TRIG is issued (R242). -/
def startTrig (s : State) (o : Op) : State :=
  let w := field o.desc 8 4
  let out := bits w 0 4
  let t : PendTrig := ⟨field o.desc 0 8, bits w 4 2, bits w 16 16, o.key⟩
  if trigInvalid o.desc then completeOp s o.key 9 0 0 0
  else if flag s TIM.TOCFG_MODE out then completeOp s o.key 0x24 0 0 0
  else if t.time < workNs s then actTrig s out t true
  else if 16 ≤ (pendTrigs s out).length then completeOp s o.key 0x24 0 0 0
  else setTrigs s out (insertTrig (pendTrigs s out) t)

/-- Working time has reached the TIME of an output's first TRIG. -/
def trigAction (s : State) (o : Nat) : State :=
  match pendTrigs s o with
  | [] => s
  | t :: r => if t.time ≤ workNs s then actTrig (setTrigs s o r) o t false else s

/-- A PULSE has lasted its width: the output falls and the TRIG completes. -/
def trigPulseEnd (s : State) (o : Nat) : State :=
  match (pulsesOf s o).find? (fun p => decide (p.ends ≤ workNs s)) with
  | none => s
  | some p =>
    let s := setPulses s o ((pulsesOf s o).filter (fun x => x.op != p.op))
    completeOp (driveOut s o false) p.op 0 (bnat p.late) 0 (workNs s)

/-- TIM.TOCFG[o].MODE is written: 1 cancels the TRIGs pending (Table: TIM.TOCFG), and an output that enters PERIOD mode waits
for the next multiple of PERIOD, which may be this instant. -/
def toutMode (s : State) (o : Nat) (period : Bool) : State :=
  let before := flag s TIM.TOCFG_MODE o
  let s := setF s TIM.TOCFG_MODE (bnat period) o
  if period then
    let ks := (pendTrigs s o).map (fun t => t.op)
    let s := if before then s else { s with time := { s.time with rose := mput s.time.rose o (none, workNs s - 1) } }
    forEach ks (setTrigs s o []) (fun s k => completeOp s k 0x29 0 0 0)
  else s

/-- The last whole multiple of an output's PERIOD that working time has reached. -/
def periodMultiple (s : State) (o : Nat) : Nat :=
  let per := 1000 * Nat.max 1 (getF s TIM.TOPER_PERIOD o)
  workNs s / per * per

/-- An edge of an output in PERIOD mode: it rises at each whole multiple of PERIOD and falls WIDTH × 10 ns after it rose. A step of
the working domain may take working time back. -/
def periodEdge (s : State) (o : Nat) : State :=
  if !flag s TIM.TOCFG_MODE o then s
  else
    let now := workNs s
    let m := periodMultiple s o
    let last := mget s.time.rose o (none, 0)
    if Nat.min last.2 (now - 1) < m then driveOut { s with time := { s.time with rose := mput s.time.rose o (some m, now) } } o true
    else match last.1 with
      | some r => if r + 10 * Nat.max 1 (getF s TIM.TOCFG_WIDTH o) ≤ now then driveOut s o false else s
      | none => s

/-! Captures (R360). -/

def stampsOf (s : State) (i : Nat) : List (Nat × Bool) := mget s.time.stamps i []

/-- Keeps the stamps of an input, and shows the oldest in the registers. -/
def setStamps (s : State) (i : Nat) (l : List (Nat × Bool)) : State :=
  let s := setF { s with time := { s.time with stamps := mput s.time.stamps i l } } TIM.TINCFG_COUNT l.length i
  match l with
  | [] => setF (setP s TIM.TINTS 0 i) TIM.TINCFG_HEADRISE 0 i
  | e :: _ => setF (setP s TIM.TINTS e.1 i) TIM.TINCFG_HEADRISE (bnat e.2) i

/-- An edge of TINn, while its bank is on (R450): it is stamped if its sense is selected, and discarded if 16 stamps are held. -/
def tinEdge (s : State) (i : Nat) (rising : Bool) : State :=
  if !bankOn s 1 || !flagBit s TIM.TINCFG_EDGE (if rising then 0 else 1) i then s
  else if (stampsOf s i).length < 16 then setStamps s i (stampsOf s i ++ [(s.frc, rising)])
  else if flag s TIM.ERR_TIN_OVF then s
  else raiseEvent (setF s TIM.ERR_TIN_OVF 1) 7 0x0504 i 0

/-- TIM.TINCFG[i].POP discards the oldest stamp. -/
def tinPop (s : State) (i : Nat) : State := setStamps s i ((stampsOf s i).drop 1)

/-! Marker pulses (R361). -/

/-- A pending mark whose instant has come rises and completes its operations; a pulse still high is carried on by it. -/
def markPulse (s : State) (k : Nat) : State :=
  let now := workNs s
  let due (m : Mark) : Bool := match m.rise with | some t => decide (t ≤ now) | none => false
  match (pendingMarks s k).find? due with
  | none => s
  | some m =>
    let rec drop : List Mark → List Mark
      | [] => []
      | x :: r => if due x then r else x :: drop r
    let s := setPendingMarks s k (drop (pendingMarks s k))
    let high : Mark := match mfind s.time.markHigh k with
      | some h => (match h.fall, m.fall with
          | some a, some b => if b < a then { m with fall := some a } else m
          | _, _ => m)
      | none => m
    let s := setMarkHigh (if (mfind s.time.markHigh k).isSome then s else sendPin s 1 (.mark k true)) k (some { high with ops := [] })
    forEach m.ops s (fun s o => completeOp s o 0 0 0 now)

/-- A marker pulse has lasted its width. -/
def markPulseEnd (s : State) (k : Nat) : State :=
  match mfind s.time.markHigh k with
  | some m => (match m.fall with
      | some t => if t ≤ workNs s then sendPin (setMarkHigh s k none) 1 (.mark k false) else s
      | none => s)
  | none => s

/-- TRIG_ACTION. -/
def execTrigAction (o : Fin 16) (s : State) : Result := .next (whenUp pllTime s (trigAction s o))
/-- TRIG_PULSE_END. -/
def execTrigPulseEnd (o : Fin 16) (s : State) : Result := .next (whenUp pllTime s (trigPulseEnd s o))
/-- TOUT_PERIOD_EDGE. -/
def execToutPeriodEdge (o : Fin 16) (s : State) : Result := .next (whenUp pllTime s (periodEdge s o))
/-- TIME_SWITCHED. -/
def execTimeSwitched (s : State) : Result := .next (whenUp pllTime s (timeSwitched s))
/-- TIN_EDGE. -/
def execTinEdge (i : Fin 8) (rising : Bool) (s : State) : Result := .next (whenUp pllTime s (tinEdge s i rising))
/-- MARK_PULSE. -/
def execMarkPulse (k : Fin 4) (s : State) : Result := .next (whenUp pllTime s (markPulse s k))
/-- MARK_PULSE_END. -/
def execMarkPulseEnd (k : Fin 4) (s : State) : Result := .next (whenUp pllTime s (markPulseEnd s k))

end Sys2Proof.Machine
end

