-- ==== Sys2Proof/Machine/Net.lean ====
section
/-!
DEFINITION. The Ethernet ports, the press message service, the speed limits and SPDLIM (R362 to R367).
-/

namespace Sys2Proof.Machine

/-! Rings (R364). -/

/-- Descriptors of a ring; the pointers count descriptors modulo 2^16. -/
def ethSize (s : State) (q : Nat) : Nat := 2 ^ Nat.min 12 (getF s ETH.QCFG_LOG q)
def ethDescAddr (s : State) (q : Nat) : Nat := getP s ETH.QBASE q + 16 * (getF s ETH.QPTR_HEAD q % ethSize s q)

/-- The descriptor at HEAD, where the ring is enabled, its owner has put one there, and the M9600 holds it. -/
def ethDesc (s : State) (q : Nat) : Option (Nat × State) :=
  if !flag s ETH.QCFG_EN q || getF s ETH.QPTR_HEAD q == getF s ETH.QPTR_TAIL q || spaceOf s (ethDescAddr s q) = .host then none
  else match engineRead s 0 0 (ethDescAddr s q) 16 .failed with
    | (.bytes bs, s) => let w := field bs 0 8; if bit w 63 then some (w, s) else none
    | _ => none

/-- Writes a descriptor back with OWN 0, and advances HEAD. -/
def ethWriteBack (s : State) (q w stamp : Nat) : State :=
  let s := engineStore s 0 0 (ethDescAddr s q) (toBytes 8 (setBits w 63 1 0) ++ toBytes 8 stamp)
  setF s ETH.QPTR_HEAD (getF s ETH.QPTR_HEAD q + 1) q

/-- A port that is on and has its link. -/
def portUp (s : State) (p : Nat) : Bool := flag s ETH.PCFG_EN p && flag s ETH.PSTAT_LINK p

/-- A write of ETH.PCFG[p].EN: refused while lane E(p) is not enabled. -/
def portEnable (s : State) (p : Nat) (en : Bool) : State :=
  if en && !flag s LAN.LCFG_EN (44 + p) then s else ethLink (setF s ETH.PCFG_EN (bnat en) p) p

/-- The frame check sequence of IEEE 802.3. -/
def crc32 (bs : List Byte) : Nat := nxor (bs.foldl (crcByte 0xEDB88320) 0xFFFFFFFF) 0xFFFFFFFF

/-- A big-endian 16-bit field. -/
def be16 (bs : List Byte) (i : Nat) : Nat := 256 * field bs i 1 + field bs (i + 1) 1
/-- Big-endian bytes. -/
def beBytes (n v : Nat) : List Byte := (toBytes n v).reverse

/-- Where the EtherType lies: behind one tag, if there is one. -/
def typeAt (bs : List Byte) : Nat := if be16 bs 12 = 0x8100 then 16 else 12

/-- The destination port and the start of the payload of UDP over IPv4. -/
def udpOf (bs : List Byte) : Option (Nat × Nat) :=
  let t := typeAt bs
  let ip := t + 2
  if be16 bs t = 0x0800 ∧ field bs ip 1 / 16 = 4 ∧ field bs (ip + 9) 1 = 17 then
    let u := ip + 4 * (field bs ip 1 % 16)
    some (be16 bs (u + 2), u + 8)
  else none

/-- The receive queue of a frame (R363). -/
def rxQueue (s : State) (bs : List Byte) : Nat :=
  let port := (udpOf bs).map (fun e => e.1)
  if be16 bs (typeAt bs) = 0x88F7 ∨ port = some 319 ∨ port = some 320 then 0
  else if port = some (getF s ETH.PMS_PORT) then 1
  else 2 + 6 * (if be16 bs 12 = 0x8100 then be16 bs 14 / 8192 else 0) / 8

/-- A frame arrives on a port, its FCS in its last four bytes (R362 to R364). -/
def rxFrame (s : State) (p : Nat) (bs : List Byte) : State :=
  if !portUp s p then s
  else if bs.length < 64 ∨ 9216 < bs.length ∨ crc32 (slice bs 0 (bs.length - 4)) ≠ field bs (bs.length - 4) 4 then
    incF s ETH.CNT (8 * p + 1)
  else
    let s := incF s ETH.CNT (8 * p)
    if be16 bs (typeAt bs) = 0x8808 then s
    else
      let q := 16 * p + rxQueue s bs
      match ethDesc s q with
      | none => incF s ETH.CNT (8 * p + 2)
      | some (w, s) =>
        let s := engineStore s 0 0 (bits w 0 48) bs
        ethWriteBack s q (setBits w 48 14 bs.length) s.frc

/-! One-step PTP (R364, R365). -/

/-- Where the PTP message of an event frame lies: message types 0 to 3, over IEEE 802.3 or UDP port 319. -/
def ptpEventAt (bs : List Byte) : Option Nat :=
  let at_ := if be16 bs (typeAt bs) = 0x88F7 then some (typeAt bs + 2)
    else match udpOf bs with | some (319, i) => some i | _ => none
  match at_ with
  | some i => if field bs i 1 % 16 ≤ 3 then some i else none
  | none => none

/-- Replaces bytes of a frame. -/
def patch (bs : List Byte) (i : Nat) (new : List Byte) : List Byte := bs.take i ++ new ++ bs.drop (i + new.length)

/-- The ones' complement sum of 16-bit words. -/
def onesSum (bs : List Byte) : Nat :=
  let t := ((upto ((bs.length + 1) / 2)).map (fun i => be16 bs (2 * i))).foldl (· + ·) 0
  let t := t % 65536 + t / 65536
  t % 65536 + t / 65536

/-- Recomputes the UDP checksum of a UDP frame whose payload starts at i. -/
def fixUdp (bs : List Byte) (i : Nat) : List Byte :=
  let u := i - 8
  let len := be16 bs (u + 4)
  let bs := patch bs (u + 6) [0, 0]
  let ip := typeAt bs + 2
  let sum := onesSum (slice bs (ip + 12) 8 ++ beBytes 2 17 ++ beBytes 2 len ++ slice bs u len)
  patch bs (u + 6) (beBytes 2 (if sum = 65535 then 65535 else 65535 - sum))

/-- The time a PTP message of a domain number carries: of the domain it steers, or the working time. -/
def ptpTime (s : State) (dom : Nat) : Nat :=
  match (upto 2).find? (fun d => flag s TIM.TDCTL_PTPEN d && getF s TIM.TDCTL_PTPDOM d == dom) with
  | some d => domainTimeAt s d s.frc
  | none => work32 s

/-- Inserts originTimestamp and correctionField in flight. -/
def oneStep (s : State) (bs : List Byte) : List Byte :=
  match ptpEventAt bs with
  | none => bs
  | some i =>
    let t := ptpTime s (field bs (i + 4) 1)
    let ns := t / 2 ^ 32
    let bs := patch bs (i + 34) (beBytes 6 (ns / 1000000000) ++ beBytes 4 (ns % 1000000000))
    let bs := patch bs (i + 8) (beBytes 8 (t / 65536 % 65536))
    if (udpOf bs).isSome then fixUdp bs i else bs

/-- A transmit queue that has a descriptor, in strict priority. -/
def txQueue (s : State) (p : Nat) : Option Nat := (fromTo 8 11).find? (fun j => (ethDesc s (16 * p + j)).isSome)

/-- The next frame of a port leaves (R363, R364). -/
def txFrame (s : State) (p : Nat) : State :=
  if !portUp s p then s
  else match txQueue s p with
    | none => s
    | some j =>
      match ethDesc s (16 * p + j) with
      | none => s
      | some (w, s) =>
        match engineRead s 0 0 (bits w 0 48) (bits w 48 14) .failed with
        | (.bytes bs, s) =>
          let bs := if j = 8 ∧ flag s ETH.PCFG_ONESTEP p then oneStep s bs else bs
          let s := incF (send s (.ethernet p bs)) ETH.CNT (8 * p + 4)
          ethWriteBack s (16 * p + j) w (if bit w 62 then s.frc else 0)
        | (.waits, _) => s
        | (_, s) => ethWriteBack s (16 * p + j) w 0

/-! Press messages and limits (R366, R367). -/

/-- A press message of a type, with its header. -/
def sendPress (s : State) (type : Nat) (body : List Byte) : State :=
  let p := getF s ETH.PMS_NETPORT
  if !portUp s p then s
  else
    let n := s.time.pmsSeq + 1
    let s := { s with time := { s.time with pmsSeq := n } }
    let head := toBytes 2 0x4D51 ++ toBytes 1 1 ++ toBytes 1 type ++ toBytes 4 n ++ toBytes 1 (unitId s) ++
      toBytes 1 (twinState s) ++ toBytes 2 body.length ++ toBytes 4 0
    incF (send s (.press p (regRaw s (ETH.PMSDEST.off 0)) (head ++ body))) ETH.CNT (8 * p + 4)

/-- No limit, as SPEED_LIMIT says it. -/
def noLimit : Nat := 0xFFFFFFFF

/-- L_g and its cause bits: thermal, lane, software (R367). A group that is not enabled sets no limit. -/
def speedLimit (s : State) (g : Nat) : Nat × Nat :=
  if !groupOn s g then (noLimit, 0)
  else
    let cap := getF s LDE.RATECAP_RATE g
    let soft := getF s TIM.SPD_REQ
    let therm := getF s THM.TREQ_RATE g
    let lane := mget s.time.laneReq g noLimit
    let l := Nat.min (Nat.min cap soft) (Nat.min therm lane)
    (l, bnat (therm == l && therm != 0xFFFFF) + 2 * bnat (lane == l && (mfind s.time.laneReq g).isSome) +
      4 * bnat (soft == l && soft != 0xFFFFF))

def limitOf (s : State) (g : Nat) : Nat × Nat := mget s.time.limits g (noLimit, 0)

/-- Sends SPEED_LIMIT and raises the event where a limit has changed (R366). -/
def refreshLimits (s : State) : State :=
  let changed := (upto 4).filter (fun g => limitOf s g != speedLimit s g)
  if changed = [] then s
  else
    let s := forEach changed s (fun s g =>
      let l := speedLimit s g
      let s := { s with time := { s.time with limits := mput s.time.limits g l } }
      raiseEvent s 0 0x0505 (g + 256 * l.2) l.1)
    let s := setF s TIM.SPDSTAT_LIMIT (Nat.min 0xFFFFF (limitOf s (getF s TIM.SPD_GROUP)).1)
    sendPress s 1 ((upto 4).flatMap (fun g => toBytes 4 (limitOf s g).1 ++ toBytes 4 (limitOf s g).2))

/-- A STATUS message is due. -/
def sendStatus (s : State) : State :=
  refreshLimits (sendPress s 2 ((upto 4).flatMap (fun g =>
    toBytes 4 (getP s LDE.TRIG g) ++ toBytes 4 (getF s LDE.TRGPER g) ++ toBytes 8 (getP s LDG.NEXTFSN g))))

/-- A press message received by reed17: PRESS_STATE is copied; reserved types are dropped, 0x04 and above counted. -/
def takePress (s : State) (bs : List Byte) : State :=
  let type := field bs 3 1
  if field bs 0 2 ≠ 0x4D51 ∨ field bs 2 1 ≠ 1 then s
  else if 4 ≤ type then incF s ETH.CNT (8 * getF s ETH.PMS_NETPORT + 3)
  else if type = 3 ∧ 8 ≤ field bs 10 2 ∧ 24 ≤ bs.length then
    let s := setF s ETH.PRESS (field bs 16 4)
    refreshLimits (raiseEvent s 0 0x0506 (getF s ETH.PRESS) 0)
  else s

/-- D for group TIM.SPD.GROUP. -/
def spdDuty (s : State) : Nat := 51 + 921 * Nat.min (speedLimit s (getF s TIM.SPD_GROUP)).1 (profileCap s) / profileCap s

/-- A period of SPDLIM starts. -/
def spdPeriod (s : State) : State :=
  let s := refreshLimits s
  let d := spdDuty s
  let s := setF (setF s TIM.SPDSTAT_LIMIT (Nat.min 0xFFFFF (speedLimit s (getF s TIM.SPD_GROUP)).1)) TIM.SPDSTAT_DUTY d
  sendPin { s with time := { s.time with spdlimOn := true } } 1 (.spdlim d)

/-- ETH_RX_FRAME: a frame arrives, with its FCS. -/
def execEthRxFrame (p : Fin 4) (frame : List Byte) (s : State) : Result := .next (whenUp pllControl s (rxFrame s p frame))
/-- ETH_TX_FRAME. -/
def execEthTxFrame (p : Fin 4) (s : State) : Result := .next (whenUp pllControl s (txFrame s p))
/-- PRESS_STATE_RECEIVED: the UDP payload of a press message. -/
def execPressStateReceived (message : List Byte) (s : State) : Result := .next (whenUp pllControl s (takePress s message))
/-- PMS_STATUS_SEND. -/
def execPmsStatusSend (s : State) : Result := .next (whenUp pllControl s (sendStatus s))
/-- SPDLIM_PERIOD. -/
def execSpdlimPeriod (s : State) : Result := .next (whenUp pllTime s (spdPeriod s))

end Sys2Proof.Machine
end

