-- ==== Sys2Proof/Machine/Power.lean ====
section
/-!
DEFINITION. Power domains, clocks and temperature (R413 to R430): the domain controllers, deep sleep, the PLLs, the thermal
monitor and TRIP, and the pins FAULT_OUT and THERM_N (R451).
-/

namespace Sys2Proof.Machine

/-! Domain controllers (R413 to R415). -/

/-- Whether a domain is awake: neither OFF nor in RETAIN. -/
def domAwake (s : State) (d : Nat) : Bool := domState s d != 0 && domState s d != 5

def reedsOf (d : Nat) : List Nat := (upto 32).filter (fun n => reedDomain n == d)

/-- Whether a core of a domain holds an image. -/
def holdsImage (s : State) (d : Nat) : Bool := (reedsOf d).any (fun n => getF s RDC.STAT_STATE n != 0)

/-- Whether a lane of a lane domain has EN 1. -/
def laneEnabled (s : State) (d : Nat) : Bool := (upto 48).any (fun l => laneDomain l == d && flag s LAN.LCFG_EN l)

/-- Whether a group that owns one of these channels has a frame ARMED or FIRING. -/
def channelsArmed (s : State) (cs : List Nat) : Bool :=
  (upto 4).any (fun g => groupPrinting s g && cs.any (fun c => (groupChannels s g).contains c))

/-- The keep-awake conditions of a domain (Table: power domains, wake latencies and keep-awake conditions). -/
def keepAwake (s : State) (d : Nat) : Bool :=
  flag s PWR.DOM_FORCEON d ||
  (match d with
  | 1 => (upto 64).any (fun q => flag s PCI.QCFG_EN q) || holdsImage s 1 ||
      s.ledger.frames.any (fun e => !e.2.released) || twinState s != 0 || s.print.updates.any (fun e => !e.2.isEmpty) ||
      (fromTo 2 13).any (domAwake s)
  | 2 => getF s PCI.LINK_SPEED != 0 && getF s PCI.LINK_PM != 3
  | 3 => !flag s MEM.STAT_SELFREF || (upto 4).any (migrating s)
  | 4 | 5 | 6 => laneEnabled s d
  | 7 => channelsArmed s (upto 4) || holdsImage s 7
  | 8 => channelsArmed s (fromTo 4 7) || holdsImage s 8
  | 9 => !s.intake.bands.isEmpty || !s.intake.inflations.isEmpty || !s.intake.jobs.isEmpty
  | 10 => domAwake s 7 || domAwake s 8
  | 11 => (upto 2).any (fun k => flag s MER.CAMCFG_EN k) || holdsImage s 11
  | 12 => motionBusy s || (upto 8).any (fun j => flag s ENC.LTGCFG_EN j) || (upto 12).any (fun c => flag s ENC.CFG_EN c)
  | 13 => (upto 4).any (fun p => flag s ETH.PCFG_EN p) || holdsImage s 13
  | _ => true)

/-- Memory of a Reed core reads 0 where its contents are lost. -/
def loseReed (s : State) (n : Nat) : State := zeroRange s (0x7F0003000000 + 0x20000 * n) 0x20000

/-- What the memories of PD_MAPS read once it has lost its contents: 0 in the Dyke tables, Sedge storage, the nozzle map and the blend
matrix (R83, R108, R124). -/
def mapsClear (s : State) : State :=
  zeroRange (zeroRange (zeroRange (zeroRange s coefBase dykeBytes) sedgeBase sedgeBytes) mapBase mapBytes) matrixBase 4096

/-- A domain that enters OFF keeps its registers and loses its memories (R414). -/
def domainOff (s : State) (d : Nat) : State :=
  let s := forEach (reedsOf d) s loseReed
  match d with
  | 1 =>
    let s := zeroRange (zeroRange s programBase programSize) (privateBase 0) 0x100000
    { s with host := { s.host with blocks := [] } }
  | 7 => forEach (upto 4) s dykeLost
  | 8 => forEach (fromTo 4 7) s dykeLost
  | 10 => setPower (mapsClear s) { s.power with mapsGone := true }
  | 11 => mereLost s
  | 12 => motionLow s
  | _ => s

/-- A domain that is asleep begins to wake; one that is GATED or still entering is ON at once. -/
def beginWake (s : State) (d : Nat) : State :=
  match domState s d with
  | 0 | 5 => incF (setDom s d 1) PWR.WAKECNT d
  | 3 | 4 => (setDom s d 2)
  | _ => s

/-- The domains that wake with a domain, PD_CORE first (R413). -/
def wakeSet (d : Nat) : List Nat := if d = 1 then [1] else if d = 7 ∨ d = 8 then [1, 10, d] else [1, d]

def beginWakes (s : State) (d : Nat) : State := forEach (wakeSet d) s beginWake

/-- A request reaches a domain (R414, R415, R19); in deep sleep it waits for a wake source (R417). -/
def domainRequest (s : State) (d : Nat) (isolated : Bool) : State :=
  let queue (s : State) : State := if s.power.queued.contains d then s else setPower s { s.power with queued := s.power.queued ++ [d] }
  if d = 0 ∨ 13 < d ∨ s.power.tripped then s
  else if s.power.deep.isSome then queue s
  else if domainHeld s d then (if getF s GLB.PROFILE_STATE = 0 then queue s else s)
  else if domState s d = 4 ∧ isolated then queue s
  else beginWakes s d

/-- PD_MAPS wakes without its contents (R83, R108). -/
def mapsLost (s : State) : State := hummockMapsLost (sedgeMapsLost s)

/-- A waking domain is up; memories that lost their contents are cleared as their chapters state. -/
def domainReady (s : State) (d : Nat) : State :=
  if domState s d ≠ 1 ∨ (d ≠ 1 ∧ domState s 1 ≠ 2 ∧ domState s 1 ≠ 3) then s
  else
    let s := setDom s d 2
    let cores := (if d = 1 then upto 16 else []) ++ (reedsOf d).map (· + 16)
    let s := forEach cores s (fun s k => setCore s k { coreOf s k with wokeFrc := s.frc })
    let s := if d = 3 then selfRefreshExit s else s
    if d = 10 && s.power.mapsGone then mapsLost (setPower s { s.power with mapsGone := false }) else s

/-- A domain's blocks have issued no work for 64 cycles (R414). -/
def domainGate (s : State) (d : Nat) : State := if d ≠ 0 ∧ domState s d = 2 then setDom s d 3 else s

/-- HOLD µs have passed in GATED with no request (R414). -/
def domainPowerDown (s : State) (d : Nat) : State :=
  if d ≠ 0 ∧ domState s d = 3 ∧ !keepAwake s d ∧ getF s PWR.DOM_HOLD d ≠ 0 then setDom s d 4 else s

/-- Entry completes into OFF, or RETAIN for PD_MAPS; a wake queued past isolation then begins (R414, R415). A domain that a
condition has come to keep awake does not enter OFF (R413). -/
def domainEntryEnd (s : State) (d : Nat) : State :=
  if domState s d ≠ 4 then s
  else if keepAwake s d then setPower (setDom s d 2) { s.power with queued := s.power.queued.filter (· != d) }
  else
    let keep := d = 10 ∧ flag s PWR.DOM_RETEN 10
    let s := if keep then setDom s d 5 else domainOff (setDom s d 0) d
    if s.power.queued.contains d then
      beginWakes (setPower s { s.power with queued := s.power.queued.filter (· != d) }) d
    else s

/-- The wakes queued before confirmation are served once STATE has left UNCONFIRMED; on MISMATCH those of held domains are
refused (R19). -/
def serveQueued (s : State) : State :=
  let q := s.power.queued
  let s := setPower s { s.power with queued := q.filter (fun d => domState s d == 4) }
  forEach (q.filter (fun d => !domainHeld s d && domState s d != 4)) s beginWakes

/-! Deep sleep (R416, R417). -/

/-- What is left of PWR.SLEEPTMR, which counts periods of the 32.768 kHz crystal in deep sleep. -/
def sleepLeft (s : State) : Nat :=
  match s.power.deep with
  | none => getF s PWR.SLEEPTMR
  | some t => getF s PWR.SLEEPTMR - (s.frc - t) * 32768 / 1250000000

/-- Deep sleep begins (R417, R456). -/
def deepSleep (s : State) : State :=
  if (fromTo 1 13).any (domAwake s) ∨ !flag s PWR.CFG_DEEPEN ∨ !s.power.xtal ∨ s.power.deep.isSome ∨ s.power.tripped then s
  else (setPower s { s.power with deep := some s.frc })

/-- Deep sleep ends and PWR.LASTWAKE records the source, where it is enabled: 1 TIMER to 6 THERMAL. Domains that requests
wait for begin to wake. -/
def deepWake (s : State) (src : Nat) : State :=
  if s.power.deep.isNone ∨ !bit (getF s PWR.WAKESRC) (src - 1) then s
  else
    let s := setF (setF s PWR.SLEEPTMR (sleepLeft s)) PWR.LASTWAKE_SRC src
    let q := s.power.queued
    let s := setPower s { s.power with deep := none, queued := q.filter (domainHeld s) }
    forEach (q.filter (fun d => !domainHeld s d)) s beginWakes

/-- SLEEPTMR reaches 0 in deep sleep. -/
def sleepExpire (s : State) : State :=
  match s.power.deep with
  | none => s
  | some _ => deepWake (setPower (setF s PWR.SLEEPTMR 0) { s.power with deep := some s.frc }) 1

/-! Clocks (R418, R419, R456). -/

def driveFault (s : State) (f : FaultDrive) : State :=
  if s.power.faults.contains f then s else setPower s { s.power with faults := f :: s.power.faults }

/-- No edge of REFCLK_SYS for four periods of the crystal (R419). -/
def refclkLost (s : State) : State :=
  if !s.power.xtal ∨ s.time.stopped then s
  else
    let s := driveFault (setF { s with time := { s.time with stopped := true } } CRS.CLKERR_SYSLOST 1) .clockLost
    if domAwake s 2 then raiseEvent s 0 0x0806 0 0 else s

def refclkReturns (s : State) : State := { s with time := { s.time with stopped := false } }

/-- A PLL loses lock, or has not locked in 40 µs. -/
def pllLost (s : State) (k : Nat) : State :=
  let s := setPower s { s.power with pllDown := k :: s.power.pllDown.filter (· != k) }
  raiseEvent (setFlagBit s CRS.CLKERR_PLLFAIL k true) 0 0x0807 k 0

def pllLocks (s : State) (k : Nat) : State :=
  (setPower s { s.power with pllDown := s.power.pllDown.filter (· != k) })

/-- One tick of the time PLL: the FRC stands while REFCLK_SYS or the PLL is lost, and counts edges of REFCLK_SYS in deep
sleep (R355, R419). -/
def tickFrc (s : State) : State :=
  if s.time.stopped || s.power.pllDown.contains 2 then s
  else { s with frc := (s.frc + (if s.power.deep.isSome then 50 else 1)) % 2 ^ 64 }

/-! Thermal monitor (R420 to R428). Temperatures are in 1/16 °C. -/

def sensorOf (s : State) (i : Nat) : Sensor := mget s.power.sensors i ⟨0, 1, 0, 0, none⟩
def setSensor (s : State) (i : Nat) (v : Sensor) : State := setPower s { s.power with sensors := mput s.power.sensors i v }
def zoneOf (s : State) (z : Nat) : Zone := mget s.power.zones z ⟨[], [], none⟩
def setZone (s : State) (z : Nat) (v : Zone) : State := setPower s { s.power with zones := mput s.power.zones z v }

def sensorT (s : State) (i : Nat) : Int := signed (getF s THM.TEMP_T i) 16
def sensorBroken (s : State) (i : Nat) : Bool := flag s THM.TEMP_BROKEN i
def sensorRetired (s : State) (i : Nat) : Bool := flag s THM.TEMP_RETIRED i
def mate (i : Nat) : Nat := if i % 2 = 0 then i + 1 else i - 1

/-- A zone's reading: the higher of its sensors not retired, a broken one reading as infinitely hot (R420, R422). -/
def zoneReading (s : State) (z : Nat) : Int :=
  let live := [2 * z, 2 * z + 1].filter (fun i => !sensorRetired s i)
  if live.any (sensorBroken s) then 0x7FFF else live.foldl (fun a i => max a (sensorT s i)) (-0x8000)

/-- 2 ms in ticks of the free-running counter. -/
def dwell : Nat := 2500000

def dwelt (s : State) (since : Option Nat) : Bool :=
  match since with
  | none => false
  | some t => decide (t + dwell ≤ s.frc)

/-- A dwell goes on, begins, or ends at a sample. -/
def dwellOn (since : Option Nat) (frc : Nat) (holds : Bool) : Option Nat := if holds then some (since.getD frc) else none

def putDwell (m : SMap Nat) (k frc : Nat) (holds : Bool) : SMap Nat :=
  match dwellOn (mfind m k) frc holds with
  | none => mdel m k
  | some t => mput m k t

/-- The zoneThreshold of a level, 1 WARN to 3 CRITICAL. -/
def zoneThreshold (s : State) (l : Nat) : Int :=
  16 * (if l = 1 then getF s THM.THRESH_WARN else if l = 2 then getF s THM.THRESH_THROTTLE else getF s THM.THRESH_CRITICAL : Nat)

/-- A sensor is found broken (R422). -/
def breakSensor (s : State) (i cause : Nat) : State :=
  if sensorBroken s i then s
  else raiseEvent (setF (setF s THM.TEMP_BROKEN 1 i) THM.TEMP_CAUSE cause i) 0 0x0803 (i + 256 * cause) 0

/-- One sensor's result, beside its zone partner's reading of the same sample; none where it gives no result. -/
def sampleSensor (s : State) (i : Nat) (r : Option Int) (other : Int) : State :=
  let v := sensorOf s i
  match r with
  | none =>
    let s := setSensor s i { v with missed := v.missed + 1, hot := none }
    if 3 ≤ v.missed + 1 then breakSensor s i 3 else s
  | some t =>
    let moved : Bool := decide (t ≠ sensorT s i) || decide (v.mateHigh < v.mateLow)
    let v : Sensor := if moved then { v with since := s.frc, mateLow := other, mateHigh := other }
      else { v with mateLow := min v.mateLow other, mateHigh := max v.mateHigh other }
    let stuck : Bool := decide (v.since + 1250000000 ≤ s.frc) && decide (v.mateLow + 32 ≤ v.mateHigh)
    let s := setF s THM.TEMP_T (unsign t 16) i
    let s := if t < -55 * 16 ∨ 150 * 16 < t then breakSensor s i 1 else if stuck then breakSensor s i 2 else s
    setSensor s i { v with missed := 0, hot := dwellOn v.hot s.frc (!sensorBroken s i && decide (125 * 16 ≤ t)) }

/-- A zone after a sample: its reading and the dwells of R421 and R428. -/
def sampleZone (s : State) (z : Nat) : State :=
  let t := zoneReading s z
  let v := zoneOf s z
  let above := (fromTo 1 3).foldl (fun m l => putDwell m l s.frc (decide (zoneThreshold s l ≤ t))) v.above
  let below := (fromTo 1 3).foldl (fun m l => putDwell m l s.frc (decide (t < zoneThreshold s l - 48))) v.below
  let blind := dwellOn v.blind s.frc ([2 * z, 2 * z + 1].all (fun i => sensorBroken s i || sensorRetired s i))
  setF (setZone s z ⟨above, below, blind⟩) THM.ZSTAT_T (unsign t 16) z

def zoneLevel (s : State) (z : Nat) : Nat := getF s THM.ZSTAT_LEVEL z

/-- Zones whose blocks skip pipeline clocks, print zones, and zones with another action at THROTTLE (Table: thermal zones). -/
def pipeZone (z : Nat) : Bool := decide (6 ≤ z) && decide (z ≤ 9)
def printZone (z : Nat) : Bool := z == 3 || z == 4 || pipeZone z
def actionZone (z : Nat) : Bool := [0, 1, 2, 5, 10, 11].contains z

/-- TR_g of every group, no limit where it is not enabled, and what follows from it (R424, R366). -/
def refreshThermal (s : State) : State :=
  let skip := Nat.max 1 (getF s THM.POLICY_PSKIP)
  let critical := (upto 12).any (fun z => zoneLevel s z == 3)
  let throttle := (upto 12).any (fun z => printZone z && zoneLevel s z == 2)
  let s := forEach (upto 4) s (fun s g =>
    setF s THM.TREQ_RATE (if !groupOn s g then 0xFFFFF else if critical then 0 else if throttle then getF s LDE.RATECAP_RATE g * (16 - skip) / 16 / 1000 * 1000
      else 0xFFFFF) g)
  refreshLimits s

/-- A zone's new level with its actions (R421, R425, R426). -/
def setZoneLevel (s : State) (z new : Nat) : State :=
  let old := zoneLevel s z
  let s := raiseEvent (setF s THM.ZSTAT_LEVEL new z) 0 0x0801 (z + 256 * new) (getF s THM.ZSTAT_T z)
  let s :=
    if actionZone z then setF s THM.ZSTAT_SKIP (bnat (decide (2 ≤ new))) z
    else if !pipeZone z then s
    else if new = 3 then setF (setF s THM.ZSTAT_SKIP 1 z) THM.ZSTAT_GRACE 0 z
    else if new = 2 then
      (if old = 3 then s else if flag s THM.POLICY_PRINT_FLOOR then setF s THM.ZSTAT_GRACE 1 z else setF s THM.ZSTAT_SKIP 1 z)
    else setF (setF s THM.ZSTAT_SKIP 0 z) THM.ZSTAT_GRACE 0 z
  issueAllReads (refreshThermal s)

/-- A dwell of 2 ms moves a zone's level, over several levels at once where it holds for them (R421). -/
def zoneChange (s : State) (z : Nat) : State :=
  let v := zoneOf s z
  let old := zoneLevel s z
  let up := (fromTo 1 3).foldl (fun a l => if dwelt s (mfind v.above l) then l else a) 0
  let down := (fromTo 1 3).foldl (fun a l => if l < a ∧ dwelt s (mfind v.below l) then l else a) 4
  if old < up then setZoneLevel s z up
  else if down ≤ old then setZoneLevel s z (down - 1)
  else s

/-- Lines/s of a group, from LDE.TRGPER; 0 before the first period is known. -/
def lineRate (s : State) (g : Nat) : Nat := if getF s LDE.TRGPER g = 0 then 0 else 1000000000 / getF s LDE.TRGPER g

/-- The grace of a zone ends: it skips where a group's line rate exceeds its thermal request (R426). -/
def graceEnd (s : State) (z : Nat) : State :=
  if !flag s THM.ZSTAT_GRACE z then s
  else
    let s := setF s THM.ZSTAT_GRACE 0 z
    let on := (upto 4).filter (groupOn s)
    let fast := on.any (fun g => getF s LDE.TRGPER g != 0 && decide (getF s THM.TREQ_RATE g * getF s LDE.TRGPER g < 1000000000))
    if fast then raiseEvent (setF s THM.ZSTAT_SKIP 1 z) 0 0x0802 z (on.foldl (fun a g => Nat.max a (lineRate s g)) 0) else s

/-- A write of 0 to PRINT_FLOOR makes every zone at THROTTLE skip at the next sample (R426). -/
def floorWritten (s : State) : State :=
  if flag s THM.POLICY_PRINT_FLOOR then s
  else setPower s { s.power with skipDue := (fromTo 6 9).filter (fun z => zoneLevel s z == 2) }

/-- One sample of every sensor (R420 to R423, R426, R417). -/
def thermalSample (s : State) (readings : List (Option Int)) : State :=
  let at_ (i : Nat) : Option Int := (readings.getD i none)
  let start := s
  let s := forEach (upto 24) s (fun s i => sampleSensor s i (at_ i) ((at_ (mate i)).getD (sensorT start (mate i))))
  let s := forEach (upto 12) s sampleZone
  let s := forEach (s.power.skipDue.filter (fun z => zoneLevel s z == 2)) s (fun s z =>
    setF (setF s THM.ZSTAT_SKIP 1 z) THM.ZSTAT_GRACE 0 z)
  let all (t : Int) : Bool := (upto 12).all (fun z => decide (zoneReading s z < t))
  let quiet := dwellOn s.power.quiet s.frc (all (zoneThreshold s 2 - 80))
  let s := setPower s { s.power with skipDue := [], quiet := quiet, cool := dwellOn s.power.cool s.frc (all (122 * 16)) }
  let s := if quiet.isNone then setF s THM.STAT_FAST 1 else if dwelt s quiet then setF s THM.STAT_FAST 0 else s
  if (upto 12).any (fun z => decide (zoneThreshold s 1 ≤ zoneReading s z)) then deepWake s 6 else s

/-- A write of THM.THRESH (R421). -/
def threshWrite (s : State) (v : Reg32) : State :=
  let n := v.toNat
  if bits n 0 8 < bits n 8 8 ∧ bits n 8 8 < bits n 16 8 ∧ bits n 16 8 ≤ 122 then
    setF (setF (setF s THM.THRESH_WARN (bits n 0 8)) THM.THRESH_THROTTLE (bits n 8 8)) THM.THRESH_CRITICAL (bits n 16 8)
  else setF s THM.ERR_THRESH 1

/-- One bit of a write of THM.RETIRE (R423). -/
def retireSensor (s : State) (i : Nat) : State :=
  if sensorRetired s i then s
  else if !sensorBroken s i || sensorRetired s (mate i) || sensorBroken s (mate i) then setF s THM.ERR_RETIRE_REF 1
  else raiseEvent (setFlagBit (setF s THM.TEMP_RETIRED 1 i) THM.RETIRE_MASK i true) 0 0x0804 i s.frc

def retireWrite (s : State) (v : Reg32) : State := forEach ((upto 24).filter (bit v.toNat)) s retireSensor

/-! TRIP and the pins (R427, R428, R451). -/

/-- The dwell of TRIP in a zone has ended. -/
def tripDue (s : State) (z : Nat) : Bool :=
  [2 * z, 2 * z + 1].any (fun i => dwelt s (sensorOf s i).hot) || dwelt s (zoneOf s z).blind

/-- Accepted writes end and the devices enter self-refresh, where they have been trained (R338). -/
def forceSelfRefresh (s : State) : State :=
  if getF s MEM.STAT_STATE = 2 then
    let s := prechargeAll (setF s MEM.STAT_SELFREF 1)
    { s with memctl := { s.memctl with left := true } }
  else s

/-- Motion outputs at their reset levels (R384, R391). -/
def motionDown (s : State) : State :=
  let s := forEach ((upto 16).filter (axisOn s)) s (fun s n => stopAxis s n 7)
  let s := forEach (upto 8) s (fun s st => if axisOn s st && isStepper s st then sendPin s 5 (.coilsOff st) else s)
  forEach ((upto 24).filter (fun l => loopMode s l != 0)) s loopOff

/-- TRIP (Table: TRIP). -/
def trip (s : State) (z : Nat) : State :=
  if s.power.tripped ∨ !tripDue s z then s
  else
    let s := setF (setF s THM.STAT_TRIPPED 1) THM.STAT_TRIPZONE z
    let s := driveFault (forceSelfRefresh s) .trip
    let s := motionDown s
    let s := forEach (fromTo 1 13) s (fun s d => domainOff (setDom s d 0) d)
    (setPower s { s.power with tripped := true, queued := [], deep := none })

/-- Whether FAULT_OUT is high: through a reset (R450), and while a condition that drives it holds (R451, R427). -/
def faultOut (s : State) : Bool := s.power.line != .none || !s.power.faults.isEmpty || (upto 12).any (fun z => zoneLevel s z == 3)

/-- Whether THERM_N is driven low (R427, R428). -/
def thermLow (s : State) : Bool := s.power.tripped || (upto 12).any (fun z => zoneLevel s z == 3)

/-- One tick on which no command comes: the FRC counts, and quad PLLs that have had their time lock. -/
def tick (s : State) : State := tickQuads (tickFrc s)

/-! The rows. -/

/-- DOMAIN_GATE: a domain has issued no work for 64 cycles. -/
def execDomainGate (d : Fin 14) (s : State) : Result := .next (showPlls (domainGate s d))

/-- DOMAIN_POWER_DOWN: a GATED domain has been idle for HOLD µs. -/
def execDomainPowerDown (d : Fin 14) (s : State) : Result := .next (showPlls (domainPowerDown s d))

/-- DOMAIN_ENTRY_END: entry of a domain completes. -/
def execDomainEntryEnd (d : Fin 14) (s : State) : Result := .next (showPlls (domainEntryEnd s d))

/-- DOMAIN_WAKE: a request reaches a domain, before or after isolation of one that is entering; or its wake ends. -/
def execDomainWake (d : Fin 14) (step : WakeStep) (s : State) : Result :=
  .next (showPlls (match step with
    | .request isolated => domainRequest s d isolated
    | .ready => domainReady s d))

/-- DEEP_SLEEP_ENTRY. -/
def execDeepSleepEntry (s : State) : Result := .next (showPlls (deepSleep s))

/-- DEEP_SLEEP_WAKE: I2C address match, an edge on HB_RX, or PE_CLKREQ_N; the other sources have rows of their own. -/
def execDeepSleepWake (src : WakeSource) (s : State) : Result :=
  .next (showPlls (deepWake s (match src with | .i2c => 2 | .heartbeat => 3 | .clkreq => 4)))

/-- SLEEPTMR_EXPIRE. -/
def execSleeptmrExpire (s : State) : Result := .next (showPlls (sleepExpire s))

/-- REFCLK_SYS_LOST. -/
def execRefclkSysLost (s : State) : Result := .next (showPlls (refclkLost s))

/-- REFCLK_SYS_RETURN. -/
def execRefclkSysReturn (s : State) : Result := .next (showPlls (refclkReturns s))

/-- XTAL32_START: the crystal has given 1,024 cycles. -/
def execXtal32Start (s : State) : Result := .next (showPlls (setPower s { s.power with xtal := true }))

/-- PLL_LOCK_LOSS: control, pipeline, time, motion, memory or PCIe. -/
def execPllLockLoss (k : Fin 6) (s : State) : Result := .next (showPlls (pllLost s k))

/-- PLL_RELOCK. -/
def execPllRelock (k : Fin 6) (s : State) : Result := .next (showPlls (pllLocks s k))

/-- ZONE_LEVEL_CHANGE: a dwell of a zone ends. -/
def execZoneLevelChange (z : Fin 12) (s : State) : Result := .next (showPlls (zoneChange s z))

/-- THERMAL_GRACE_END: the grace of a zone ends. -/
def execThermalGraceEnd (z : Fin 12) (s : State) : Result := .next (showPlls (graceEnd s z))

/-- TRIP: the dwell of TRIP ends in a zone. -/
def execTrip (z : Fin 12) (s : State) : Result := .next (showPlls (trip s z))

end Sys2Proof.Machine
end

