-- ==== Sys2Proof/Machine/PressOps.lean ====
section
/-!
DEFINITION. The press and engine operations of Brofer (R217 to R245): the way every tagged operation is issued, the engine
each is handed to, the waits, EVT and COPY.
-/

namespace Sys2Proof.Machine

/-! Engines. -/

/-- Whether a COPY descriptor is invalid (R237). -/
def copyInvalid (s : State) (o : Op) : Bool :=
  let d := o.desc.drop 8
  let src := o.addr (field d 0 8)
  let dest := o.addr (field d 8 8)
  let len := field d 16 4
  len == 0 || decide (2 ^ 28 < len) || field d 20 4 != 0 || !destOpen s dest len || (decide (src < dest + len) && decide (dest < src + len))

/-- A COPY is checked when it is issued; it moves its bytes when it completes. -/
def startCopy (s : State) (o : Op) : State := if copyInvalid s o then completeOp s o.key 9 0 0 0 else s

/-- A COPY ends: its source is read and its destination written (R237). A failed one has written an unspecified prefix. -/
def copyComplete (s : State) (key : Nat) (reply : HostReply) : State :=
  match opOf s key with
  | none => s
  | some o =>
    if o.sub ≠ 8 ∨ field o.desc 0 1 ≠ 4 then s
    else
      let d := o.desc.drop 8
      let src := o.addr (field d 0 8)
      let dest := o.addr (field d 8 8)
      let len := field d 16 4
      if 2 ^ 47 ≤ src ∧ bulkRoom s o.hostfn = 0 then s
      else
      let (r, t) := engineRead s o.hostfn o.hwin src len reply
      let broken (code : Nat) : State :=
        let (n, t) := free t
        let part := (if src < 2 ^ 47 then loadBytes t src len else Config.freeBytes t.fresh).take (n % len)
        completeOp (engineStore { t with fresh := t.fresh + 1 } o.hostfn o.hwin dest part) key code 0 0 0
      match r with
      | .waits => s
      | .poison => broken 7
      | .failed => broken 8
      | .bytes bs => completeOp (engineStore t o.hostfn o.hwin dest bs) key 0 0 0 0

/-- The body length of an ISSUE class, in bytes (Table: ISSUE classes). -/
def classBody (c : Nat) : Nat := if c = 1 then 32 else if c = 2 then 40 else if c = 3 then 32 else if c = 4 then 24 else if c = 5 then 32 else 0

/-- Whether an ISSUE header is invalid (R235). -/
def headerInvalid (d : List Byte) : Bool :=
  let c := field d 0 1
  c == 0 || decide (6 ≤ c) || field d 1 1 != 0 || field d 2 2 != classBody c || field d 4 4 != 0

/-- Whether the issuer may name the group of a strip (Table: issuer rights). -/
def mayStrip (s : State) (o : Op) : Bool :=
  let g := field o.desc 40 1 % 4
  (ownGroup o.fn g || o.fn == 0 || o.fn == 5 || o.fn == 8) && groupOn s g

/-- The domain an engine operation needs that R19 may hold; 0 for none. -/
def neededDomain (o : Op) : Nat :=
  match o.sub with
  | 2 => 9
  | 8 => nth [0, 9, 11, 4, 0, 12] (field o.desc 0 1)
  | 9 | 10 => 10
  | 11 | 12 => 12
  | _ => 0

/-- Whether the issuer has no right to what the operation names (R226), for the operations whose engine does not judge it. -/
def deniedHere (s : State) (o : Op) : Bool :=
  match o.sub with
  | 9 => mapsetDenied s o.fn (bits (field o.desc 8 4) 0 23)
  | 10 => !maySelect o.fn (field o.desc 16 8 % 4) || !groupOn s (field o.desc 16 8 % 4)
  | 11 | 12 => !mayMove o.fn
  | 8 => match field o.desc 0 1 with
    | 2 => !mayStrip s o
    | 3 => o.fn != 0 && o.fn != 8
    | 5 => !mayMove o.fn
    | _ => false
  | _ => false

/-- Hands an issued operation to its engine. -/
def handOver (s : State) (o : Op) (reply : HostReply) : State :=
  match o.sub with
  | 1 | 3 | 4 | 14 | 15 => startLedger s o
  | 2 => startBload s o
  | 9 => startMapset s o
  | 10 => startSelect s o
  | 11 => startAxmove s o
  | 12 => startLoopset s o
  | 13 => startTrig s o
  | _ => match field o.desc 0 1 with
    | 1 => startSluice s o
    | 2 => startStrip s o
    | 3 => startHubctrl s o reply
    | 4 => startCopy s o
    | _ => startCapture s o

/-- Whether an operation completes UNAVAILABLE at once where its domain is held, rather than waiting for the profile's confirmation
as the requester of a wake: a BLOAD (R45) and a STRIP (R175). -/
def refusesHeld (o : Op) : Bool := o.sub == 2 || (o.sub == 8 && field o.desc 0 1 == 2)

/-- An operation is checked for rights, for its header, and for a held domain, and goes to its engine (R226, R235, R19). -/
def startOp (s : State) (o : Op) (reply : HostReply) : State :=
  if deniedHere s o then completeOp s o.key 0x10 0 0 0
  else if o.sub = 8 ∧ headerInvalid o.desc then completeOp s o.key 9 0 0 0
  else if neededDomain o ≠ 0 ∧ domainHeld s (neededDomain o) ∧ !refusesHeld o then
    (if getF s GLB.PROFILE_STATE = 0 then setPower s { s.power with deferred := s.power.deferred ++ [(o.key, reply)] }
     else completeOp s o.key 0x0D 0 0 0)
  else runLedgers (handOver s o reply)

/-- Operations that waited for a held domain, or for a read of theirs, start again; one that must still wait does so (R19, R236). -/
def startDeferred (s : State) : State :=
  forEach s.power.deferred (setPower s { s.power with deferred := [] }) (fun s e =>
    match opOf s e.1 with
    | none => s
    | some o => startOp s o e.2)

/-! Issue (R217 to R222). -/

/-- The descriptor's size in bytes; for an ISSUE, its header and the body of its class. -/
def descSize (sub : Nat) (header : List Byte) : Nat :=
  match sub with
  | 1 | 11 => 32
  | 2 => 64
  | 3 | 4 | 9 | 10 | 15 => 24
  | 12 | 13 | 14 => 16
  | _ => 8 + classBody (field header 0 1)

/-- Reads the descriptor of an operation whole (R219). -/
def readDesc (s : State) (k sub a : Nat) (reply : HostReply) : Fetched × State :=
  let hwin := (coreOf s k).hwin.toNat
  let size := if sub = 8 then (match (engineRead s (hostFn s k) hwin a 8 reply).1 with | .bytes bs => descSize 8 bs | _ => 8)
    else descSize sub []
  engineRead s (hostFn s k) hwin a size reply

/-- What host memory answers beyond a descriptor: the rest of the reply, where the descriptor came from the host window too. -/
def afterDesc (d n : Nat) : HostReply → HostReply
  | .data bs => .data (if 2 ^ 47 ≤ d then bs.drop n else bs)
  | .failed => .failed

/-- One tagged operation on a core. A descriptor that does not fit the row is another row's. -/
def tagged (c : CoreId) (rd ra rb : GReg) (reply : HostReply) (sub : Nat) (fits : List Byte → Bool) (s : State) : State :=
  runX c (fun k s =>
    let a := (readG s k ra).toNat
    let da := resolveAlias k a
    let rec_ := (readG s k rb).toNat
    let other : Bool := match da with
      | some d => (match (readDesc s k sub d reply).1 with | .bytes bs => !fits bs | _ => false)
      | none => false
    if (sub ≤ 4) && !isThread k then .fault 0x22 0
    else if a % 8 ≠ 0 then .fault 2 a
    else if rb ≠ 0 ∧ !(match resolveAlias k rec_ with | some r => recordOpen s r | none => false) then .fault 0x21 rec_
    else if other then .hold s
    else match takeTag s k with
      | none => .hold { stallOn s k .noTag with host := { (stallOn s k .noTag).host with tagWaiters := s.host.tagWaiters ++ [k] } }
      | some tag =>
        match da with
        | none => .fault 0x20 a
        | some d =>
          let (r, t) := readDesc s k sub d reply
          match r with
          | .waits => .hold (stallOn s k .memory)
          | .poison | .failed => .fault 0x20 a
          | .bytes bs =>
            let t : State := { t with host := { t.host with granted := mdel t.host.granted k } }
            let (o, t) := issueOp t c tag sub (if rb = 0 then none else resolveAlias k rec_) bs
            .ok (startOp (writeG t k rd (tagValue o)) o (afterDesc d bs.length reply))) s

def anyDesc (_ : List Byte) : Bool := true

/-- FARM's MODE and AXMOVE's MODE select rows; a reserved MODE fits every row. -/
def farmMode (m : Nat) (d : List Byte) : Bool := field d 16 1 % 4 == m || field d 16 1 % 4 == 3
def moveMode (m : Nat) (d : List Byte) : Bool := bits (field d 24 1) 4 3 == m || decide (4 ≤ bits (field d 24 1) 4 3)

/-- ISSUE's CLASS selects rows; a reserved CLASS fits every row. -/
def issueClass (c : Nat) (d : List Byte) : Bool := field d 0 1 == c || field d 0 1 == 0 || decide (6 ≤ field d 0 1)

/-- The KIND of a Sluice job: 0 INFLATE, 1 DEFLATE, 2 DICT_LOAD (R64); a reserved KIND fits every row. -/
def jobKind (k : Nat) (d : List Byte) : Bool :=
  issueClass 1 d && (field d 0 1 != 1 || bits (field d 32 4) 0 2 == k || bits (field d 32 4) 0 2 == 3)

/-! Waits (R223, R234) and EVT (R245). -/

/-- WAITTAG. -/
def waitTag (c : CoreId) (rd ra rb : GReg) (s : State) : State :=
  runX c (fun k s =>
    let v := (readG s k ra).toNat
    let key := 1024 * poolOf k + v % 1024
    let serial := v / 65536
    if rb ≠ 0 then .fault 1 0
    else if v = 0 then (if (opsOf s k).isEmpty then .ok (writeG s k rd 0) else .hold (stallOn s k (.waitAll rd)))
    else if bits v 10 6 ≠ 0 ∨ (if isThread k then 512 else 16) ≤ v % 1024 ∨ mget s.host.serials (poolOf k) 0 < serial then .fault 0x23 0
    else match mfind s.host.results key with
      | some r =>
        if r.serial = serial then .ok (writeG s k rd r.code)
        else if serial < r.serial then .ok (writeG s k rd 0xFF)
        else .hold (stallOn s k (.waitTag rd key serial))
      | none => .hold (stallOn s k (.waitTag rd key serial))) s

/-- WAITPOS. -/
def waitPos (c : CoreId) (rd ra rb : GReg) (s : State) : State :=
  runX c (fun k s =>
    let sel := readG s k rb
    if bits sel.toNat 6 26 ≠ 0 ∨ (bit sel.toNat 4 ∧ bit sel.toNat 5) then .fault 1 0
    else match posReturn s (readG s k ra) sel true with
      | some v => .ok (writeG s k rd (word v))
      | none =>
        let us := bits sel.toNat 32 32
        .hold (stallOn s k (.waitPos rd (readG s k ra) sel (if us = 0 then none else some (s.frc + 1250 * us))))) s

/-- WAITTIME. -/
def waitTime (c : CoreId) (rd ra rb : GReg) (s : State) : State :=
  runX c (fun k s =>
    let t := readG s k ra
    if rb ≠ 0 then .fault 1 0
    else if t.toNat ≤ workNs s then .ok (writeG s k rd (word s.frc))
    else .hold (stallOn s k (.waitTime rd t))) s

/-- EVT. -/
def raiseEvt (c : CoreId) (rd ra rb : GReg) (s : State) : State :=
  runX c (fun k s =>
    let w := (readG s k rb).toNat
    let code := bits w 0 16
    if bits w 19 45 ≠ 0 ∨ (isThread k ∧ bits w 16 3 ≠ 0) then .fault 1 0
    else if code < 0x8000 then .ok (writeG s k rd 2)
    else
      let (r, s) := raiseProgramEvent s (if isThread k then hostFn s k else bits w 16 3) code (readG s k ra).toNat
      .ok (writeG s k rd (word r))) s

/-- The timeout of a WAITPOS runs out: rd is 0. -/
def waitTimeout (s : State) (k : Nat) : State :=
  match (coreOf s k).stall with
  | .waitPos rd _ _ (some t) => if running s k ∧ t ≤ s.frc then unstall s k rd 0 else s
  | _ => s

/-- Working time reaches the target of a WAITTIME. -/
def waitReturn (s : State) (k : Nat) : State :=
  match (coreOf s k).stall with
  | .waitTime rd t => if running s k ∧ t.toNat ≤ workNs s then unstall s k rd (word s.frc) else s
  | _ => s

/-! The rows. -/

def execFaccept (c : CoreId) (rd ra rb : GReg) (reply : HostReply) (s : State) : Result := .next (whenUp pllControl s (tagged c rd ra rb reply 1 anyDesc s))
def execBload (c : CoreId) (rd ra rb : GReg) (reply : HostReply) (s : State) : Result := .next (whenUp pllControl s (tagged c rd ra rb reply 2 anyDesc s))
def execBstage (c : CoreId) (rd ra rb : GReg) (reply : HostReply) (s : State) : Result := .next (whenUp pllControl s (tagged c rd ra rb reply 3 anyDesc s))
def execFarmPosition (c : CoreId) (rd ra rb : GReg) (reply : HostReply) (s : State) : Result := .next (whenUp pllControl s (tagged c rd ra rb reply 4 (farmMode 0) s))
def execFarmFollow (c : CoreId) (rd ra rb : GReg) (reply : HostReply) (s : State) : Result := .next (whenUp pllControl s (tagged c rd ra rb reply 4 (farmMode 1) s))
def execFarmWithdraw (c : CoreId) (rd ra rb : GReg) (reply : HostReply) (s : State) : Result := .next (whenUp pllControl s (tagged c rd ra rb reply 4 (farmMode 2) s))
def execIssueSluiceInflate (c : CoreId) (rd ra rb : GReg) (reply : HostReply) (s : State) : Result := .next (whenUp pllControl s (tagged c rd ra rb reply 8 (jobKind 0) s))
def execIssueSluiceDeflate (c : CoreId) (rd ra rb : GReg) (reply : HostReply) (s : State) : Result := .next (whenUp pllControl s (tagged c rd ra rb reply 8 (jobKind 1) s))
def execIssueDictLoad (c : CoreId) (rd ra rb : GReg) (reply : HostReply) (s : State) : Result := .next (whenUp pllControl s (tagged c rd ra rb reply 8 (jobKind 2) s))
def execIssueStrip (c : CoreId) (rd ra rb : GReg) (reply : HostReply) (s : State) : Result := .next (whenUp pllControl s (tagged c rd ra rb reply 8 (issueClass 2) s))
def execIssueHubctrl (c : CoreId) (rd ra rb : GReg) (reply : HostReply) (s : State) : Result := .next (whenUp pllControl s (tagged c rd ra rb reply 8 (issueClass 3) s))
def execIssueCopy (c : CoreId) (rd ra rb : GReg) (reply : HostReply) (s : State) : Result := .next (whenUp pllControl s (tagged c rd ra rb reply 8 (issueClass 4) s))
def execIssueCapture (c : CoreId) (rd ra rb : GReg) (reply : HostReply) (s : State) : Result := .next (whenUp pllControl s (tagged c rd ra rb reply 8 (issueClass 5) s))
def execMapset (c : CoreId) (rd ra rb : GReg) (reply : HostReply) (s : State) : Result := .next (whenUp pllControl s (tagged c rd ra rb reply 9 anyDesc s))
def execScrsel (c : CoreId) (rd ra rb : GReg) (reply : HostReply) (s : State) : Result := .next (whenUp pllControl s (tagged c rd ra rb reply 10 anyDesc s))
def execAxmoveAbsolute (c : CoreId) (rd ra rb : GReg) (reply : HostReply) (s : State) : Result := .next (whenUp pllControl s (tagged c rd ra rb reply 11 (moveMode 0) s))
def execAxmoveRelative (c : CoreId) (rd ra rb : GReg) (reply : HostReply) (s : State) : Result := .next (whenUp pllControl s (tagged c rd ra rb reply 11 (moveMode 1) s))
def execAxmoveLimits (c : CoreId) (rd ra rb : GReg) (reply : HostReply) (s : State) : Result := .next (whenUp pllControl s (tagged c rd ra rb reply 11 (moveMode 2) s))
def execAxmoveStop (c : CoreId) (rd ra rb : GReg) (reply : HostReply) (s : State) : Result := .next (whenUp pllControl s (tagged c rd ra rb reply 11 (moveMode 3) s))
def execLoopset (c : CoreId) (rd ra rb : GReg) (reply : HostReply) (s : State) : Result := .next (whenUp pllControl s (tagged c rd ra rb reply 12 anyDesc s))
def execTrig (c : CoreId) (rd ra rb : GReg) (reply : HostReply) (s : State) : Result := .next (whenUp pllControl s (tagged c rd ra rb reply 13 anyDesc s))
def execMark (c : CoreId) (rd ra rb : GReg) (reply : HostReply) (s : State) : Result := .next (whenUp pllControl s (tagged c rd ra rb reply 14 anyDesc s))
def execLread (c : CoreId) (rd ra rb : GReg) (reply : HostReply) (s : State) : Result := .next (whenUp pllControl s (tagged c rd ra rb reply 15 anyDesc s))
def execWaitpos (c : CoreId) (rd ra rb : GReg) (s : State) : Result := .next (whenUp pllControl s (waitPos c rd ra rb s))
def execWaittime (c : CoreId) (rd ra rb : GReg) (s : State) : Result := .next (whenUp pllControl s (waitTime c rd ra rb s))
def execWaittag (c : CoreId) (rd ra rb : GReg) (s : State) : Result := .next (whenUp pllControl s (waitTag c rd ra rb s))
def execEvt (c : CoreId) (rd ra rb : GReg) (s : State) : Result := .next (whenUp pllControl s (raiseEvt c rd ra rb s))

/-- WAITPOS_TIMEOUT: the timeout of a core's WAITPOS runs out. -/
def execWaitposTimeout (c : CoreId) (s : State) : Result := .next (whenUp pllControl s (waitTimeout s (coreNum c)))

/-- WAITTIME_RETURN: working time reaches the target a core waits for. -/
def execWaittimeReturn (c : CoreId) (s : State) : Result := .next (whenUp pllControl s (waitReturn s (coreNum c)))

/-- COPY_COMPLETE: the engine of a COPY, named by its operation's key, has moved its bytes or failed to. -/
def execCopyComplete (key : Nat) (reply : HostReply) (s : State) : Result := .next (whenUp pllControl s (runLedgers (copyComplete s key reply)))

end Sys2Proof.Machine
end

