-- ==== Sys2Proof/Machine/Image.lean ====
section
/-!
DEFINITION. Cemos containers: their checks, the key slots they are checked against, and the loading of Reed images (R210,
R212, R213, R437, R439).
-/

namespace Sys2Proof.Machine

/-! Containers (R212). -/

/-- One segment of a container. -/
structure Segment where
  dest : Nat
  data : Bool
  len : Nat
  foff : Nat
  fill : Bool
  deriving DecidableEq, Repr

def segmentOf (c : List Byte) (i : Nat) : Segment :=
  let b := 32 + 16 * i
  ⟨field c b 4 % 2 ^ 17, bit (field c b 4) 31, field c (b + 4) 4, field c (b + 8) 4, bit (field c (b + 12) 4) 0⟩

/-- The segments named, at most 64. -/
def segments (c : List Byte) : List Segment := (upto (Nat.min 64 (field c 16 2))).map (segmentOf c)

/-- The two segments meet in one memory. -/
def Segment.meets (a b : Segment) : Bool :=
  a.data == b.data && decide (0 < a.len) && decide (0 < b.len) && decide (a.dest < b.dest + b.len) && decide (b.dest < a.dest + a.len)

def anyMeet : List Segment → Bool
  | [] => false
  | a :: r => r.any a.meets || anyMeet r

/-- The bytes a segment writes. -/
def Segment.bytes (c : List Byte) (g : Segment) : List Byte := if g.fill then List.replicate g.len 0 else slice c g.foff g.len

/-- FORMAT fails: KIND, KEYSLOT, a reserved field or a reserved bit (R213). -/
def formatBad (c : List Byte) (kind : Nat) : Bool :=
  field c 6 1 != kind || decide (3 < field c 7 1) || field c 13 3 != 0 || field c 18 2 != 0 || field c 28 4 != 0 ||
  (upto (Nat.min 64 (field c 16 2))).any (fun i => bits (field c (32 + 16 * i) 4) 17 14 != 0 || decide (1 < field c (44 + 16 * i) 4))

/-- LENGTH fails (R213). -/
def lengthBad (c : List Byte) : Bool :=
  let total := field c 24 4
  let n := field c 16 2
  decide (262144 < total) || n == 0 || decide (64 < n) || decide (total < 32 + 16 * n + 192) ||
  (segments c).any (fun g => decide (65536 < g.dest + g.len) || (!g.fill && decide (total < g.foff + g.len))) ||
  anyMeet (segments c) || decide (65536 ≤ field c 20 4) || field c 20 4 % 4 != 0

/-- The container could not be read whole. -/
def sourceBad (c : List Byte) : Bool :=
  decide (c.length < 32) || (decide (field c 24 4 ≤ 262144) && decide (c.length < field c 24 4))

/-- The load code of a container (Table: image load codes): for a Reed core, or for the boot ROM where no core is named.
Before confirmation no profile is in force, so a boot image passes PROFILE with either profile (R437). -/
def imageCode (s : State) (core : Option Nat) (src : Option (List Byte)) : Nat :=
  match src with
  | none => 1
  | some c =>
    let total := field c 24 4
    let slot := field c 7 1
    let key := slice c (total - 192) 96
    let target := field c 8 4
    let profile := field c 12 1
    if sourceBad c then 1
    else if field c 0 4 ≠ 0x534F4D43 ∨ field c 4 2 ≠ 1 then 2
    else if formatBad c (if core.isSome then 1 else 2) then 3
    else if lengthBad c then 4
    else if (match core with | some n => !bit target n | none => target != 0) then 5
    else if profile ≠ 0xFF ∧ (if core.isSome then profile ≠ getF s GLB.PROFILE_STRAP else 2 ≤ profile) then 6
    else if mfind s.boot.hashes slot ≠ some (sha384 key) then 7
    else if flag s SEC.KEYSTAT_REVOKED slot then 8
    else if !ecdsaVerify key (slice c (total - 96) 96) (sha384 (c.take (total - 96))) then 9
    else 0

/-- Writes the segments of a container at the bases of its two memories. -/
def loadSegments (s : State) (c : List Byte) (code data : Nat) : State :=
  forEach (segments c) s (fun s g => putBytes s ((if g.data then data else code) + g.dest) (g.bytes c))

/-! Reed images (R210, R213). -/

def reedBase (n : Nat) : Nat := 0x7F0003000000 + 0x20000 * n

/-- A Reed core with an image newly in its memories (R210): READY, and running where RUN is 1. -/
def reedLoad (s : State) (n : Nat) (c : List Byte) : State :=
  let s := loadSegments (loseReed s n) c (reedBase n) (reedBase n + 0x10000)
  let r : Core := { Core.fresh with
    g := mput [] 30 (word 0x7F0008000000), pc := word (reedBase n + field c 20 4), pbase := reedBase n, plen := 0x10000,
    wokeFrc := (coreOf s (16 + n)).wokeFrc }
  let s := setHalted (setCore (dropStall s (16 + n)) (16 + n) r) (16 + n) false
  setF s RDC.STAT_STATE (if flag s RDC.CTL_RUN n then 3 else 2) n

/-- A core that loads or runs is a request to its domain (R209, R414). -/
def reedWake (s : State) (n : Nat) : State :=
  let st := getF s RDC.STAT_STATE n
  if st = 1 ∨ st = 3 then domainRequest s (reedDomain n) false else s

/-- A write of 1 to RDC.CTL.LOAD. A held core takes it too, and the load waits for its domain (R213, R19). -/
def imageLoad (s : State) (n : Nat) : State :=
  let st := getF s RDC.STAT_STATE n
  if st = 1 ∨ st = 3 ∨ st = 5 then setF s RDC.STAT_LREF 1 n
  else setF { s with boot := { s.boot with loading := mput s.boot.loading n st } } RDC.STAT_STATE 1 n

/-- The container of a load as the loader reads it: its header, then TOTAL bytes. -/
def readContainer (s : State) (a : Nat) (reply : HostReply) : Fetched × State :=
  match (engineRead s 0 0 a 32 reply).1 with
  | .bytes h => engineRead s 0 0 a (if field h 24 4 ≤ 262144 then Nat.max 32 (field h 24 4) else 32) reply
  | r => (r, s)

/-- The loader has read and checked a container. -/
def imageLoadEnd (s : State) (n : Nat) (reply : HostReply) : State :=
  match mfind s.boot.loading n with
  | none => s
  | some old =>
    if reedDown s n || bulkRoom s 0 == 0 then s
    else
    let (r, t) := readContainer s (getP s RDC.IMG n) reply
    match r with
    | .waits => s
    | _ =>
      let src : Option (List Byte) := match r with | .bytes bs => some bs | _ => none
      let code := imageCode t (some n) src
      let t := setF { t with boot := { t.boot with loading := mdel t.boot.loading n } } RDC.STAT_LCODE code n
      if code = 0 then
        reedLoad { t with boot := { t.boot with images := mput t.boot.images n (src.getD []) } } n (src.getD [])
      else setF t RDC.STAT_STATE (if old = 2 ∧ flag t RDC.CTL_RUN n then 3 else old) n

/-- IMAGE_LOAD_END: the loader has finished with a core's container, whose bytes the reply gives where it lies in host memory. -/
def execImageLoadEnd (n : Fin 32) (reply : HostReply) (s : State) : Result := .next (whenUp pllControl s (imageLoadEnd s n reply))

/-! Profile confirmation (R18, R19, R455). -/

/-- Whether VDD_CORE lies within a profile's range, as the internal monitor finds it: within 10 mV of a bound either way. -/
def vcoreOk (s : State) (p : Bool) : Bool × State :=
  let lo := if p then 795 else 725
  let hi := if p then 855 else 785
  let v := s.power.vdd
  if lo + 10 ≤ v ∧ v + 10 ≤ hi then (true, s)
  else if v + 10 ≤ lo ∨ hi + 10 ≤ v then (false, s)
  else ((free s).1 % 2 == 1, (free s).2)

/-- A write of GLB.PROFILE. -/
def profileWrite (s : State) (v : Reg32) : State :=
  let n := v.toNat
  let s := if bit n 6 then setF s GLB.PROFILE_LATE_WR 0 else s
  if bits n 16 8 ≠ 0xA5 then s
  else if getF s GLB.PROFILE_STATE ≠ 0 then setF s GLB.PROFILE_LATE_WR 1
  else
    let differs : Bool := bits n 8 1 != getF s GLB.PROFILE_STRAP
    let (ok, s) := vcoreOk s (bit n 8)
    let s := setF (setF s GLB.PROFILE_REQ_DIFF (bnat differs)) GLB.PROFILE_VCORE_LOW (bnat (!ok))
    if ok && !differs then setF s GLB.PROFILE_STATE 1
    else
      let s := driveFault (setF s GLB.PROFILE_STATE 2) .mismatch
      raiseEvent s 0 0x0004 (regRaw s (GLB.PROFILE.off 0)).toNat 0

/-- What waited for a held domain goes on, once STATE has left UNCONFIRMED (R19). -/
def afterProfile (s : State) : State := if getF s GLB.PROFILE_STATE = 0 then s else memServe (startDeferred (serveQueued s))

end Sys2Proof.Machine
end

