-- ==== Sys2Proof/Machine/Flr.lean ====
section
/-!
DEFINITION. Function-level reset (R264 to R267), block soft reset (R434), the ledger's recovery after a warm reset (R289, R312)
and the ledger's commands by register: seeding, mirror and resolution (R281, R284, R291).
-/

namespace Sys2Proof.Machine

/-! Operations cancelled by FLR (R264). -/

/-- A frame without what an operation has asked of it. -/
def Frame.without (f : Frame) (k : Nat) : Frame :=
  { f with op := if f.op = some k then none else f.op, stripes := f.stripes.filter (fun t => t.2.2 != some k) }

/-- An operation leaves every engine that has not accepted a lasting change from it. -/
def withdrawOp (s : State) (o : Op) : State :=
  let k := o.key
  let drop (l : List Nat) : List Nat := l.filter (· != k)
  let s := { s with
    ledger := { s.ledger with
      order := s.ledger.order.map (fun e => (e.1, drop e.2)),
      frames := s.ledger.frames.map (fun e => (e.1, e.2.without k)) },
    intake := { s.intake with waiting := drop s.intake.waiting, described := mdel s.intake.described k },
    time := { s.time with
      trigs := s.time.trigs.map (fun e => (e.1, e.2.filter (fun t => t.op != k))),
      pulses := s.time.pulses.map (fun e => (e.1, e.2.filter (fun t => t.op != k))),
      marks := s.time.marks.map (fun e => (e.1, (e.2.filter (fun m => m.ops != [k])).map (fun m => { m with ops := drop m.ops }))) },
    twin := { s.twin with awaiting := s.twin.awaiting.filter (fun m => m.op != k) },
    print := { s.print with afterReload := s.print.afterReload.map (fun u => if u.op = some k then { u with op := none } else u) },
    power := { s.power with deferred := s.power.deferred.filter (fun e => e.1 != k) } }
  let s := forEach ((upto 24).filter (fun l => (loopOf s l).pending.any (fun p => p.op == some k))) s (fun s l =>
    setLoop s l { loopOf s l with pending := (loopOf s l).pending.map (fun p => if p.op = some k then { p with op := none } else p) })
  let s := forEach ((upto 16).filter (fun n => (axisOf s n).op == some k)) s (fun s n =>
    if axisState s n = 2 then brakeNow s n none else setAxis s n { axisOf s n with op := none })
  let s := forEach ((upto 2).filter (fun c => match captureOf s c with | some x => x.op == k | none => false)) s (fun s c => setCapture s c none)
  match s.intake.jobs.find? (fun j => j.op == k) with
  | some j => serveDeflate (dropJob (if j.kind = 2 then setF s SLC.DICTSTAT_LOADING 0 j.dict else s) k)
  | none => s

/-- A frame whose FACCEPT is cancelled before its record is durable was never accepted (reason CANCELLED). -/
def unaccept (s : State) (o : Op) : State :=
  match s.ledger.frames.find? (fun e => e.2.op == some o.key) with
  | some e => withdraw (setFrame s { e.2 with op := none }) { e.2 with op := none } 0x15
  | none => s

def cancelOp (s : State) (o : Op) : State :=
  let s := if o.sub = 1 then unaccept s o else s
  completeOp (withdrawOp s o) o.key 0x29 0 0 0

/-! Function-level reset. -/

/-- The threads bound to a function's queues stop, IDLE and unbound. -/
def stopThreads (s : State) (f : Nat) : State :=
  let ts := (upto 16).filter (fun t => flag s CWY.TSTAT_BOUND t && queueFn s (getF s CWY.TSTAT_QUEUE t) == f)
  let s := { s with host := { s.host with heldEnds := s.host.heldEnds.filter (fun t => !ts.contains t) } }
  let s := forEach ts s unbindThread
  forEach (ts.flatMap (opsOf s)) s cancelOp

/-- A function's queues at reset, but for the function each is assigned to. -/
def resetQueue (s : State) (q : Nat) : State :=
  let f := queueFn s q
  let s := match (queueOf s q).entry with
    | some e => if e.placed && !e.started && !fnDisabled s f then addStale s [.program (Fin.ofNat 64 q)] else s
    | none => s
  let s := setQueue s q Queue.fresh
  let s := forEach [PCI.QCFG.off q, PCI.QSEQ.off q, PCI.CQDB.off q, PCI.QSTAT.off q, PCI.SQDB.off q] s regReset
  setF (setP (setP s PCI.SQBASE 0 q) PCI.CQBASE 0 q) PCI.QCFG_FN f q

/-- A function's event ring, MSI-X table and held traffic at reset. -/
def resetRing (s : State) (f : Nat) : State :=
  let s := forEach [PCI.EVCFG.off f, PCI.EVHEAD.off f, PCI.EVTAIL.off f, PCI.EVLOST.off f] s regReset
  let s := setP s PCI.EVBASE 0 f
  let s := { s with host := { s.host with
    vectors := s.host.vectors.filter (fun e => e.1 / 256 != f), heldWrites := s.host.heldWrites.filter (fun w => w.fn != f),
    blocks := s.host.blocks.filter (fun b => b.fn != f) } }
  setFn s f Fn.fresh

/-- Host-window reads in flight of Reed cores that use the function fault with HOST; they keep their pool entries. -/
def faultLoads (s : State) (f : Nat) : State :=
  let fault (s : State) (k a : Nat) : State := takeFault (addStale s [.load (coreId k)]) k 7 (coreOf s k).pc.toNat a
  forEach ((fromTo 16 47).filter (fun k => hostFn s k == f)) s (fun s k =>
    match (coreOf s k).stall with
    | .hostLoad _ a _ _ => fault s k a
    | .hostFence | .storeFence => fault s k 0
    | _ => s)

/-- One frame of the group at FLR (Table: FLR of a print group's function, steps 3 and 4). -/
def flrFrame (s : State) (g : Nat) (f : Frame) : State :=
  if f.disposed || f.recorded then s
  else
    let count (s : State) : State := setFn s (g + 1) { fnOf s (g + 1) with flrFrames := (fnOf s (g + 1)).flrFrames + 1 }
    let f := { f with blank := true, stagings := [], op := none }
    let s := count (setFrame s f)
    if f.state = 4 then
      let s := dispose s f 6 0x13
      placeReject s ((frameAt s f.key).getD f)
    else dispose s f 7 0x13

/-- What the group's frames have built fires blank, as VOID. -/
def voidGroup (s : State) (g : Nat) : State :=
  let mine (key : Nat) : Bool := key % 4 == g
  let void (h : HeldLine) : HeldLine := { h with void := h.void || mine h.frame }
  { s with
    print := { s.print with segments := s.print.segments.map (fun e => (e.1, e.2.map void)) }
    lode := { s.lode with hold := s.lode.hold.map void }
    dlk := { s.dlk with replay := s.dlk.replay.map (fun r => match r.cargo with
      | .data k row line phase nph start levels v => { r with cargo := .data k row line phase nph start levels (v || mine k) }
      | .ctrl .. => r) } }

/-- FLR of a print group's function (R266). -/
def groupFlr (s : State) (g : Nat) : State :=
  let s := closeRun s g
  let s := forEach (groupFrames s g) s (fun s f => flrFrame s g ((frameAt s f.key).getD f))
  let s := voidGroup (recordDispositions s g) g
  let gone := (s.intake.bands.filter (fun e => e.2.fn == g + 1)).map (fun e => e.1)
  let s := { s with intake := { s.intake with
    inflations := s.intake.inflations.filter (fun i => !gone.contains i.band),
    leads := s.intake.leads.map (fun e => (e.1, e.2.filter (fun l => !gone.contains l.band))) } }
  serveWaiting (serveDeflate (forEach gone s abandonBand))

/-- FLR of PF6, and the motion block's soft reset: every axis stops, pending captures end, and LOOPSETs complete with CANCELLED
but keep their effect (R264). -/
def motionFlr (s : State) : State :=
  let s := forEach (upto 16) s (fun s n => setF (stopAxis s n 6) AXS.STAT_UNCERTAIN 1 n)
  let s := forEach (upto 2) s (fun s k => endCapture s k 0x29 false)
  forEach (upto 24) s (fun s l =>
    let ops := (loopOf s l).pending.filterMap (fun p => p.op)
    completeAll (setLoop s l { loopOf s l with pending := (loopOf s l).pending.map (fun p => { p with op := none }) }) ops 0x29)

/-- FLR of PF7: posted receive buffers are discarded, and reed16 and reed17 restart from their images. -/
def networkFlr (s : State) : State :=
  let s := forEach ((upto 64).filter (fun q => decide (q % 16 < 8))) s (fun s q => setF s ETH.QPTR_HEAD (getF s ETH.QPTR_TAIL q) q)
  forEach [16, 17] s (fun s n =>
    match mfind s.boot.images n with
    | some c => reedLoad s n c
    | none => s)

/-- FLR of a function begins: its threads stop, its queues and ring are reset, and the effects of its kind apply. -/
def flrStart (s : State) (f : Nat) : State :=
  if flag s PCI.FNCTL_FLR_BUSY f then s
  else
    let waits : Bool := fnDisabled s f
    let s := stopThreads s f
    let s := forEach ((upto 64).filter (fun q => queueFn s q == f)) s resetQueue
    let s := if waits then s else faultLoads s f
    let s := setF (setF s PCI.FNCTL_BME 0 f) PCI.FNCTL_FLR_BUSY 1 f
    let s := resetRing s f
    let s := if f = 6 then motionFlr s else s
    let s := if 1 ≤ f ∧ f ≤ 4 then groupFlr s (f - 1) else if f = 5 then mereFlr s else if f = 7 then networkFlr s else s
    let s := if f = 0 ∧ s.boot.stage = .hostRead then { setF s SEC.DLCTL_BUSY 0 with boot := { s.boot with stage := .hostIdle } } else s
    runLedgers s

/-- FLR of a function is complete. -/
def flrComplete (s : State) (f : Nat) : State :=
  if !flag s PCI.FNCTL_FLR_BUSY f then s
  else
    let n := (fnOf s f).flrFrames
    let s := setFn (setF s PCI.FNCTL_FLR_BUSY 0 f) f { fnOf s f with flrFrames := 0 }
    raiseEvent s 0 9 f n

/-! Block soft reset (R434). -/

/-- Whether a block is idle (Table: GLB.BRST and GLB.BRSTREF). -/
def blockIdle (s : State) (b : Nat) : Bool :=
  match b with
  | 0 => (upto 2).all (fun k => !flag s MER.CAMCFG_EN k)
  | 1 => (upto 4).all (fun p => !flag s ETH.PCFG_EN p)
  | 2 => true
  | 3 => s.intake.bands.isEmpty
  | 4 => !s.ledger.frames.any (fun e => e.2.state == 3 || e.2.state == 4)
  | _ => (upto 64).all (fun h => !flag s DLK.HUBCTL_EN h)

/-- Returns the registers of a block to their reset values, but for what it keeps at its start. -/
def blockRegs0 (s : State) (base keep : Nat) : State := regResetRange s (base + keep) (base + 0x10000)

/-- A block's registers and engine state at reset. -/
def blockReset (s : State) (b : Nat) : State :=
  match b with
  | 0 => { blockRegs0 s 0x2400000 0 with mere := MereState.reset }
  | 1 => blockRegs0 s 0x3100000 0
  | 2 =>
    let s := motionFlr s
    let s := blockRegs0 (blockRegs0 (blockRegs0 s 0x3600000 0) 0x3800000 0) 0x3A00000 0
    { s with motion := { MotionState.reset with tables := s.motion.tables } }
  | 3 =>
    let ops := s.intake.waiting ++ s.intake.jobs.map (fun j => j.op)
    let s := { s with intake := { s.intake with waiting := [], described := [], deflate := [], inflations := [], leads := [], jobs := [] } }
    completeAll (blockRegs0 s 0x1000000 0xC0) ops 0x29
  | 4 =>
    let s := blockRegs0 (blockRegs0 (blockRegs0 s 0x1400000 0) 0x1800000 0) 0x1C00000 0
    let updates := s.print.updates
    let s := forEach updates { s with print := PrintState.reset, lode := LodeState.reset } (fun s e => setUpdates s e.1 e.2)
    runLedgers s
  | _ => { blockRegs0 s 0x2000000 0 with dlk := DlkState.reset }

/-- A write of GLB.BRST: each named block is reset if it is idle, and recorded in GLB.BRSTREF if it is not. -/
def blockResets (s : State) (v : Nat) : State :=
  forEach ((upto 6).filter (bit v)) s (fun s b => if blockIdle s b then blockReset s b else setFlagBit s GLB.BRSTREF b true)

/-! Ledger recovery (R289, R312). -/

/-- Both copies of every slot short of RELEASED are read; a poisoned copy is repaired, or the group halts (Table: ledger
recovery after warm reset, step 2). -/
def readSlots (s : State) (g : Nat) : State :=
  forEach ((groupFrames s g).filter (fun f => !f.released)) s (fun s f =>
    forEach [1, 2] s (fun s k => if poisoned s (slotAddr s k g f.fsn) 64 then repairSlot s (slotAddr s k g f.fsn) else s))

/-- One frame at recovery: FIRING becomes SPOILED and what had not fired WITHDRAWN, with reason WARM_RESET and no mark; every
frame with a disposition becomes RELEASED. In a group that halts the unknown frame keeps its state, and the frames above it wait
behind it (R291). -/
def recoverFrame (s : State) (f : Frame) : State :=
  let st := f.recordedState
  let f := { f with mark := none, flush := .none, flushDone := false, flushBad := false, stagings := [], openRows := 0,
                    openSeqs := [], op := none, stripes := [] }
  if f.released then s
  else if haltedBelow s f.group (f.fsn + 1) ∧ ¬ haltedBelow s f.group f.fsn then setFrame s f
  else
    let f := if f.recorded then f
      else { f with state := if st = 4 then 6 else 7, reason := 0x12, tDisp := workNs s }
    let f := { f with met := true }
    if haltedBelow s f.group f.fsn then setFrame s f
    else
      let fresh : Bool := !f.recorded
      let f := { f with recorded := true, released := true }
      let s := writeRecord s f
      let s := if fresh then countDisposition s f else s
      if fresh ∧ f.state = 6 then groupEvent s f.group 0x0105 (f.group + 256 * f.reason) f.fsn else s

/-- Every record that lags is to be flushed (Table: ledger recovery after warm reset, step 5). -/
def flushRecovered (s : State) (g : Nat) : State :=
  forEach (lagOf s g) s (fun s n => match frameOf s g n with
    | some f =>
      if f.released then
        let f := { f with flush := .disposition, flushDone := false, flushBad := false }
        flushRead (setFrame s f) f
      else s
    | none => s)

/-- The ledger recovers once Mire is LOCKED after a warm reset. With an active partner a join takes the place of the
dispositions. -/
def recoverLedger (s : State) : State :=
  if !mireLocked s then s
  else
    let joins : Bool := twinEnabled s && (s.twin.partnerState == 3 || s.twin.partnerState == 5)
    forEach ((upto 4).filter (fun g => flag s LDG.STAT_RECOVERING g)) s (fun s g =>
      if joins then setF s LDG.STAT_RECOVERING 0 g
      else
        let s := readSlots s g
        flushRecovered (updateOldest (forEach (groupFrames s g) s (fun s f => recoverFrame s ((frameAt s f.key).getD f))) g) g)

/-! Ledger commands by register. -/

/-- A write of NEXTFSN_HI, with the whole value (R284). -/
def ledgerSeed (s : State) (g v : Nat) : State :=
  if getF s LDG.STAT_STATE g ≠ 3 ∨ v = 0 then setF s LDG.ERR_SEED_IGN 1
  else
    let s := setP (setP s LDG.NEXTFSN v g) LDG.OLDEST v g
    runLedgers (setF s LDG.STAT_STATE (if flag s LDG.MIRCFG_EN g then 0 else 1) g)

/-- A write of LDG.MIRCFG (R281). -/
def mirrorWrite (s : State) (g : Nat) (en : Bool) : State :=
  if en then
    if flag s LDG.MIRCFG_EN g then s
    else
      let s := setF s LDG.MIRCFG_EN 1 g
      let live := (groupFrames s g).filter (fun f => decide (getP s LDG.OLDEST g ≤ f.fsn) && decide (f.fsn < nextFsn s g))
      let s := setLag s g ((lagOf s g).filter (fun n => !(live.any (fun f => f.fsn == n))) ++ live.map (fun f => f.fsn))
      let s := flushLag s g
      runLedgers (if getF s LDG.STAT_STATE g = 1 then setF s LDG.STAT_STATE 0 g else s)
  else if !flag s LDG.MIRCFG_EN g then s
  else if (groupFrames s g).any (fun f => !f.released) then setF s LDG.ERR_MIR_OFF_REF 1
  else
    let s := setLag (setF s LDG.MIRCFG_EN 0 g) g []
    if getF s LDG.STAT_STATE g = 0 then setF s LDG.STAT_STATE 1 g else s

/-- A write of 1 to LDG.RESOLVE.GO (R291). -/
def ledgerResolve (s : State) (g : Nat) : State :=
  let d := getF s LDG.RESOLVE_DISP g
  if getF s LDG.STAT_STATE g ≠ 2 ∨ d = 0 then s
  else
    let s := setF s LDG.STAT_STATE (if flag s LDG.MIRCFG_EN g then 0 else 1) g
    let s := match frameOf s g (getP s LDG.HALTFSN g) with
      | some f => dispose s { f with mark := none, recorded := false, released := false } (4 + d) 0x16
      | none => s
    let s := recordDispositions s g
    runLedgers (forEach ((groupFrames s g).filter (fun f => f.flushDone)) s (fun s f => takeVisible s f.key))

/-! The rows. -/

/-- FLR of a function is initiated. -/
def execFlr (f : Fin 8) (s : State) : Result := .next (whenUp pllPcie s (flrStart s f))

/-- FLR_COMPLETE. -/
def execFlrComplete (f : Fin 8) (s : State) : Result := .next (whenUp pllPcie s (flrComplete s f))

end Sys2Proof.Machine
end

