-- ==== Sys2Proof/Machine/Boot.lean ====
section
/-!
DEFINITION. Reset, straps, boot, key slots and the debug lock (R431 to R442), partner boot and partner reset (R313, R314),
and the GPIO inputs (R465).
-/

namespace Sys2Proof.Machine

def setBoot (s : State) (b : BootState) : State := { s with boot := b }

/-! What a reset keeps (R431, R416). -/

/-- Fuses and outside levels, beside the model's own record, as power-on finds them; a slot being programmed may be left
partly written, and then fails KEY (R439). -/
def powerOn (s : State) : State :=
  let slots := upto 4
  let (torn, s) : Option FuseOp × State := match s.boot.fuse with
    | some o => if !o.revoke && (free s).1 % 2 == 1 then (some o, (free s).2) else (none, (free s).2)
    | none => (none, s)
  let keys := slots.map (fun k => regRaw s (SEC.KEYSTAT.off k))
  let t : State := { State.reset with
    pending := s.pending, outs := s.outs, fresh := s.fresh,
    power := { PowerState.reset with line := .powerOn, vdd := s.power.vdd, gpio := s.power.gpio }
    boot := { BootState.reset with hashes := s.boot.hashes } }
  let t := forEach slots t (fun t k => regPut t (SEC.KEYSTAT.off k) (keys.getD k 0))
  match torn with
  | some o => setF (setBoot t { t.boot with hashes := mput t.boot.hashes o.slot [] }) SEC.KEYSTAT_PROG 1 o.slot
  | none => t

/-- The value of a register after a warm reset, where only its RWS fields keep theirs (R9). -/
def rwsValue (off : Nat) (v : Reg32) : Reg32 :=
  match findReg off with
  | none => regDefault off
  | some d => BitVec.ofNat 32 (d.fields.foldl (fun a f => if f.access = .rws then setBits a f.lo f.width (bits v.toNat f.lo f.width) else a)
      (regDefault off).toNat)

/-- Registers that Moss or the fuses hold, and so keep their values across a warm reset: TD0 and TD1, the ledger state, the
twin claim, the key slots and the count of failed responses (R431, R283, R441). -/
def mossRegs : List Nat :=
  (upto 2).flatMap (fun d => [TIM.TDSTAT.off d, TIM.OFFFR.off d, TIM.RATE.base + 8 * d, TIM.RATE.base + 8 * d + 4,
    TIM.OFFSET.base + 8 * d, TIM.OFFSET.base + 8 * d + 4]) ++
  (upto 4).flatMap (fun g => [LDG.NEXTFSN, LDG.OLDEST, LDG.HALTFSN, LDG.GBFROM, LDG.GBTO].flatMap (fun p =>
    [p.base + p.stride * g, p.base + p.stride * g + 4])) ++
  TWN.CLAIM.off 0 :: (upto 4).map (fun k => SEC.KEYSTAT.off k)

def warmRegs (s : State) : SMap Reg32 :=
  s.regs.foldl (fun m e => regsPut m e.1 (if mossRegs.contains e.1 then e.2 else rwsValue e.1 e.2)) []

/-- Whether a device address keeps its byte: SDRAM in self-refresh, and PD_MAPS in RETAIN. -/
def warmKeeps (maps : Bool) (a : Nat) : Bool :=
  decide (a < 2 ^ 39) ||
  maps && (inRange a 0x7F0000000000 0x7F000033FFFF || inRange a 0x7F0000400000 0x7F0000400FFF ||
    inRange a 0x7F0000440000 0x7F0000451FFF || inRange a 0x7F0001000000 0x7F00014087FF)

/-- Ledger state in Moss and in the rings; what waits on it has gone. -/
def warmLedger (s : State) : LedgerState :=
  { s.ledger with
    frames := s.ledger.frames.map (fun e => (e.1, { e.2 with op := none, stagings := [], stripes := [] })),
    mossHeld := s.ledger.mossBases.isSome, runs := [], order := [], faultRaised := [] }

/-- A warm reset with its cause (R431, R432). -/
def doWarm (s : State) (cause : Nat) : State :=
  let maps : Bool := flag s PWR.DOM_RETEN 10 && !s.power.mapsGone && domState s 10 != 0
  let old := s
  let s : State := { State.reset with
    pending := old.pending, outs := old.outs, fresh := old.fresh, frc := old.frc, regs := warmRegs old,
    mem := old.mem.filter (fun c => warmKeeps maps c.1), poison := old.poison.filter (fun w => warmKeeps maps (64 * w)),
    time := { TimeState.reset with stopped := old.time.stopped }
    ledger := warmLedger old,
    twin := { TwinState.reset with epoch := old.twin.epoch }
    memctl := { MemState.reset with
      draws := old.memctl.draws, rowsRefreshed := old.memctl.rowsRefreshed
      retiring := old.memctl.retiring ++ ((upto 16).filter (fun k => rankStat old (k / 4) (k % 4) == 2))
      left := old.memctl.left || getF old MEM.STAT_STATE == 2 }
    power := { PowerState.reset with
      xtal := old.power.xtal, pllDown := old.power.pllDown, gpio := old.power.gpio, vdd := old.power.vdd, line := .warm,
      mapsGone := !maps }
    boot := { BootState.reset with hashes := old.boot.hashes, fails := old.boot.fails } }
  let s := setF (setF s GLB.RSTCAUSE_CAUSE cause) SEC.DBGCTL_FAILS (getF old SEC.DBGCTL_FAILS)
  let s := setF s SEC.DBGCTL_LOCKOUT (getF old SEC.DBGCTL_LOCKOUT)
  let s := if maps then setDom s 10 5 else s
  let s := forEach (upto 4) s (fun s g =>
    let st := getF old LDG.STAT_STATE g
    setF (setF s LDG.STAT_STATE (if 2 ≤ st then st else 1) g) LDG.STAT_RECOVERING 1 g)
  if flag s THM.STAT_TRIPPED then raiseEvent s 0 0x0805 (getF s THM.STAT_TRIPZONE) 0 else s

/-- Whether a warm reset must wait: tripped and not yet cool, hot, or during a fuse operation (R433, R428, R439). -/
def warmHeld (s : State) : Bool :=
  (s.power.tripped && !dwelt s s.power.cool) || (upto 12).any (fun z => decide (122 * 16 ≤ zoneReading s z)) || flag s SEC.FUSECTL_BUSY

/-- A cause of warm reset: 1 SYSRST_N, 2 GLB.RST, 3 partner. One that comes in a reset lengthens it (R433), and one that
releases from TRIP is recorded as cause 4. -/
def requestReset (s : State) (cause : Nat) : State :=
  if s.power.line ≠ .none then s
  else if warmHeld s then
    (if s.power.heldReset.isSome then s else setPower s { s.power with heldReset := some cause })
  else doWarm s (if s.power.tripped then 4 else cause)

/-- A held warm reset goes on once nothing holds it. -/
def releaseHeld (s : State) : State :=
  match s.power.heldReset with
  | some c => if warmHeld s then s else requestReset s c
  | none => s

/-- A write of GLB.RST. -/
def rstWrite (s : State) (v : Reg32) : State :=
  let s := if bit v.toNat 1 then setPower s { s.power with rstoutLow := false } else s
  if bit v.toNat 0 && bits v.toNat 8 8 == 0x5A then requestReset s 2 else s

/-! The boot ROM (R435 to R438). -/

/-- BOOT_FAIL is raised once PF0 has an event ring. -/
def bootFailReport (s : State) : State :=
  if s.boot.failDue ∧ flag s PCI.EVCFG_EN 0 then
    raiseEvent (setBoot s { s.boot with failDue := false }) 0 0x0902 (regRaw s (SEC.BOOTSTAT.off 0)).toNat 0
  else s

/-- No container has passed. -/
def bootFail (s : State) (code : Nat) : State :=
  let s := driveFault (setF (setF s SEC.BOOTSTAT_STATE 3) SEC.BOOTSTAT_CODE code) .bootFail
  bootFailReport (setBoot (setF s SEC.DLCTL_BUSY 0) { s.boot with stage := .hostIdle, failDue := true, parts := [] })

/-- The ROM brings up P0 to P3 and asks the partner for an image (R313). -/
def askPartner (s : State) : State :=
  let s := forEach (fromTo 40 43) (quadEnWrite s 10 true) (fun s l => laneEnWrite s l true)
  twinSend s (.image 0 [])

/-- The straps are sampled and the ROM starts (R435, R436). -/
def bootStart (s : State) (straps vdd : Nat) : State :=
  if s.power.line = .none ∧ (getF s SEC.BOOTSTAT_STATE ≠ 0 ∨ s.boot.stage ≠ .none) ∨ s.power.tripped then s
  else
    let s := setPower s { s.power with line := .none, vdd := vdd }
    let s := setF s GLB.STRAPS straps
    let s := setF (setF s GLB.PROFILE_STRAP (bits straps 2 1)) GLB.PROFILE_PIN (bits straps 2 1)
    let s := if twinEnabled s then setF s TWN.STAT_STATE 1 else s
    let s := beginWakes s 1
    match getF s GLB.STRAPS_BOOT_SRC with
    | 0 => setBoot s { s.boot with stage := .primary }
    | 1 => setBoot s { s.boot with stage := .hostIdle }
    | 2 => askPartner (setBoot s { s.boot with stage := .partner })
    | _ => bootFail s 0xF

/-- A write of 1 to SEC.DLCTL.GO. -/
def downloadGo (s : State) : State :=
  if s.boot.stage = .hostIdle then
    sendReads (setBoot (setF s SEC.DLCTL_BUSY 1) { s.boot with stage := .hostRead }) 0 (getP s SEC.DLADDR) (getF s SEC.DLLEN)
  else s

/-- The boot image starts: GLB.PROFILE is written, the segments loaded, and thread 0 runs at ENTRY (R437, R208). -/
def startBoot (s : State) (c : List Byte) : State :=
  let req := if field c 12 1 = 0xFF then getF s GLB.PROFILE_STRAP else field c 12 1 % 2
  let alt : Bool := decide (s.boot.stage = .alternate)
  let s := setF (setF (setF (setF s SEC.BOOTSTAT_STATE 1) SEC.BOOTSTAT_CODE 0) SEC.BOOTSTAT_ALT (bnat alt))
    SEC.BOOTSTAT_SLOT (field c 7 1)
  let s := profileWrite s (BitVec.ofNat 32 (0xA50000 + 256 * req))
  let s := zeroRange s (privateBase 0) 0x8000
  let s := loadSegments s c programBase (privateBase 16)
  let r : Core := { Core.fresh with
    g := mput [] 30 (word 0x7F0007FF8000), pc := word (programBase + field c 20 4), pbase := programBase, plen := 0x10000,
    wokeFrc := (coreOf s 0).wokeFrc }
  let s := setF (setF (setCore s 0 r) CWY.TSTAT_STATE 1 0) CWY.TSTAT_BOUND 0 0
  afterProfile (setBoot (setF s SEC.DLCTL_BUSY 0) { s.boot with stage := .none, image := c, parts := [] })

/-- The image the partner has sent so far, in the order of its offsets. -/
def partnerImage (s : State) : List Byte :=
  s.boot.parts.foldl (fun a e => if e.1 ≤ a.length then a ++ e.2.drop (a.length - e.1) else a) []

/-- Whether the partner has sent a whole container. -/
def partnerWhole (s : State) : Bool :=
  let c := partnerImage s
  decide (32 ≤ c.length) && (decide (262144 < field c 24 4) || decide (field c 24 4 ≤ c.length))

/-- The ROM has read a container and checked it; `image` holds its bytes where flash or the host gave them (R437, R438). -/
def containerChecked (s : State) (image : Option (List Byte)) : State :=
  let src : Option (List Byte) := if s.boot.stage = .partner then some (partnerImage s) else image
  let waits : Bool := match s.boot.stage with
    | .none | .hostIdle => true
    | .partner => !partnerWhole s
    | _ => false
  if waits then s
  else
    let code := imageCode s none src
    if code = 0 then startBoot s (src.getD [])
    else if s.boot.stage = .primary then setBoot s { s.boot with stage := .alternate }
    else bootFail s code

/-! Partner boot and partner reset (R313, R314). -/

/-- Image bytes of the partner reach the ROM. -/
def takeImage (s : State) (off : Nat) (bs : List Byte) : State :=
  if s.boot.stage = .partner ∧ !bs.isEmpty then setBoot s { s.boot with parts := mput s.boot.parts off bs } else s

/-- The IMAGE messages that carry a container, at most 8,176 bytes in each. -/
def imageParts (c : List Byte) : List (Nat × List Byte) :=
  (upto (ceilDiv c.length 8176)).map (fun i => (8176 * i, (c.drop (8176 * i)).take 8176))

/-- The partner's ROM asks for the image from which this unit booted. -/
def serveImage (s : State) : State :=
  if flag s TWN.CFG_SERVEBOOT ∧ !s.boot.image.isEmpty then
    forEach (imageParts s.boot.image) s (fun s e => twinSend s (.image e.1 e.2))
  else s

/-- The partner asks for a reset: honoured from a higher claim only. -/
def takeResetReq (s : State) (claim : Nat) : State :=
  if ownClaim s < claim ∧ ¬(twinState s = 3 ∧ s.twin.partnerState = 4) then requestReset s 3 else setF s TWN.ERR_PRESET_REF 1

/-! Key slots (R439, R440). -/

def slotHeld (s : State) (k : Nat) : Bool := flag s SEC.KEYSTAT_PROG k

/-- The bytes of FUSEDATA, in hash order. -/
def fuseHash (s : State) : List Byte := (upto 12).flatMap (fun i => toBytes 4 (getF s SEC.FUSEDATA i))

/-- A write of SEC.FUSECTL. -/
def fuseWrite (s : State) (v : Reg32) : State :=
  let n := v.toNat
  let op := bits n 0 2
  let k := bits n 2 2
  if op = 0 ∨ op = 3 then s
  else
    let refused : Bool := bits n 8 8 != 0xC3 || flag s SEC.FUSECTL_BUSY ||
      (if op = 1 then slotHeld s k
       else !(upto 4).any (fun j => j != k && slotHeld s j && !flag s SEC.KEYSTAT_REVOKED j))
    if refused then setF s SEC.FUSECTL_STATUS 2
    else setBoot (setF (setF s SEC.FUSECTL_BUSY 1) SEC.FUSECTL_STATUS 0) { s.boot with fuse := some ⟨op == 2, k, bit n 4, fuseHash s⟩ }

/-- A fuse operation ends; a warm reset that waited for it goes on. -/
def fuseDone (s : State) (ok : Bool) : State :=
  match s.boot.fuse with
  | none => s
  | some o =>
    let s := setBoot (setF (setF s SEC.FUSECTL_BUSY 0) SEC.FUSECTL_STATUS (if ok then 1 else 3)) { s.boot with fuse := none }
    let s :=
      if !ok then s
      else if o.revoke then setF s SEC.KEYSTAT_REVOKED 1 o.slot
      else
        let s := setF (setBoot s { s.boot with hashes := mput s.boot.hashes o.slot o.hash }) SEC.KEYSTAT_PROG 1 o.slot
        if o.dbg then setF s SEC.KEYSTAT_DBG 1 o.slot else s
    releaseHeld (raiseEvent s 0 0x0904 (regRaw s (SEC.FUSECTL.off 0)).toNat 0)

/-! The debug lock (R441). -/

/-- A write of 1 to CHAL: twelve random words. -/
def debugChallenge (s : State) : State :=
  let s := forEach (upto 12) s (fun s i => setF (free s).2 SEC.DBGCHAL (free s).1 i)
  setBoot s { s.boot with challenged := true }

/-- The 192 bytes of the response. -/
def debugResponse (s : State) : List Byte := (upto 48).flatMap (fun i => toBytes 4 (regRaw s (SEC.DBGRESP.off i)).toNat)

/-- What the signature of a response covers. -/
def debugDigest (s : State) : List Byte :=
  sha384 ((upto 12).flatMap (fun i => toBytes 4 (getF s SEC.DBGCHAL i)) ++ toBytes 4 (getF s GLB.ID) ++ toBytes 8 (getP s GLB.UID))

/-- The slot whose key signed the response, where debug unlocks. -/
def debugSlot (s : State) : Option Nat :=
  let r := debugResponse s
  let h := sha384 (r.take 96)
  match (upto 4).find? (fun k => flag s SEC.KEYSTAT_DBG k && !flag s SEC.KEYSTAT_REVOKED k && mfind s.boot.hashes k == some h) with
  | some k => if ecdsaVerify (r.take 96) (r.drop 96) (debugDigest s) then some k else none
  | none => none

/-- A write of 1 to SUBMIT. -/
def debugSubmit (s : State) : State :=
  if flag s SEC.DBGCTL_LOCKOUT || !s.boot.challenged then s
  else
    let s := setBoot s { s.boot with challenged := false }
    match debugSlot s with
    | some k => raiseEvent (setF s SEC.DBGCTL_UNLOCKED 1) 0 0x0903 k 0
    | none =>
      let n := s.boot.fails + 1
      let s := setF (setBoot s { s.boot with fails := n }) SEC.DBGCTL_FAILS (Nat.min n 3)
      if 3 ≤ n then setF s SEC.DBGCTL_LOCKOUT 1 else s

/-- A write of SEC.DBGCTL. -/
def debugLockWrite (s : State) (v : Reg32) : State :=
  let s := if bit v.toNat 0 then debugChallenge s else s
  if bit v.toNat 1 then debugSubmit s else s

/-! GPIO inputs (R465). -/

/-- The level of GPIO n has held for two samples. -/
def gpioEdge (s : State) (n : Nat) (level : Bool) : State :=
  if bit s.power.gpio n = level then s
  else
    let s := setPower s { s.power with gpio := setBits s.power.gpio n 1 (bnat level) }
    if flag s PIN.BANKCFG_EN 3 ∧ !s.time.stopped then
      let s := setFlagBit s PIN.GPIOEVT n true
      if flagBit s PWR.WAKEGPIO n then deepWake s 5 else s
    else s

/-! The rows. -/

/-- POWER_ON_RESET: PORST_N goes low. -/
def execPowerOnReset (s : State) : Result := .next (showPlls (powerOn s))

/-- MOSS_BROWNOUT: VDD_MOSS falls too far, which acts as PORST_N (R457). -/
def execMossBrownout (s : State) : Result := .next (showPlls (powerOn s))

/-- WARM_RESET: SYSRST_N goes low. -/
def execWarmReset (s : State) : Result := .next (showPlls (requestReset s 1))

/-- BOOT_START: reset is released with these straps, BOOT_SRC in bits 1:0 as GLB.STRAPS has them, and VDD_CORE in mV. -/
def execBootStart (straps : Fin 64) (vdd : Nat) (s : State) : Result := .next (showPlls (bootStart s straps.val vdd))

/-- CONTAINER_CHECKED: the ROM has read and checked a container. -/
def execContainerChecked (image : Option (List Byte)) (s : State) : Result := .next (whenUp pllControl s (containerChecked s image))

/-- FUSE_DONE: a fuse operation ends, with success or not. -/
def execFuseDone (ok : Bool) (s : State) : Result := .next (showPlls (fuseDone s ok))

/-- THERMAL_SAMPLE: one sample of the 24 sensors in 1/16 °C, none where a sensor gives no result. -/
def execThermalSample (readings : List (Option Int)) (s : State) : Result := .next (showPlls (releaseHeld (thermalSample s readings)))

/-- GPIO_EDGE: a new level of a GPIO ball has held for two samples. -/
def execGpioEdge (n : Fin 32) (level : Bool) (s : State) : Result := .next (showPlls (gpioEdge s n.val level))

/-- RESET_REQ of the partner. -/
def execResetReq (tseq tack claim : Nat) (s : State) : Result :=
  .next (whenUp pllControl s (twinReceive s tseq tack false (fun s => takeResetReq s claim)))

/-- IMAGE of the partner. -/
def execImage (tseq tack offset : Nat) (bytes : List Byte) (s : State) : Result :=
  .next (whenUp pllControl s (twinReceive s tseq tack false (fun s => takeImage s offset bytes)))

/-- BOOT_IMAGE_REQUEST of the partner's ROM. -/
def execBootImageRequest (tseq tack : Nat) (s : State) : Result := .next (whenUp pllControl s (twinReceive s tseq tack true serveImage))

end Sys2Proof.Machine
end

