-- ==== Sys2Proof/Machine/RegAccess.lean ====
section
/-!
DEFINITION. Register accesses: what a read returns and does, what a write does, who owns a register's RWL fields, and
which functions and threads reach it (R7 to R11, R16, R19, R25, R374, R466 to R475).
-/

namespace Sys2Proof.Machine

/-! Requesters (R11): each has its own staging registers and snapshots. -/

/-- The requester number of a thread or Reed core; a host function f is requester f. -/
def coreReq (k : Nat) : Nat := 8 + k

/-- The management I2C port as a requester. -/
def i2cReq : Nat := 56

/-- The key of a requester's staging register or snapshot of a register. -/
def pairKey (r off : Nat) : Nat := r * 2 ^ 26 + off

/-! Registers that read 0 and discard writes (R16, R19, R471). -/

/-- The domain whose hold leaves a block without registers. -/
def regDomain (off : Nat) : Option Nat :=
  if inRange off 0x1000000 0x13FFFFF then some 9
  else if inRange off 0x1400000 0x17FFFFF then some 7
  else if inRange off 0x1800000 0x1BFFFFF then some 10
  else if inRange off 0x1C00000 0x1FFFFFF then some 7
  else if inRange off 0x2000000 0x23FFFFF then some 4
  else if inRange off 0x2400000 0x27FFFFF then some 11
  else if inRange off 0x3400000 0x3BFFFFF then some 12
  else none

/-- Whether a register's block lies in a held domain (R19, R471). -/
def refusedBlock (s : State) (off : Nat) : Bool :=
  match regDomain off with
  | some d => domainHeld s d
  | none => false

/-- Whether a register of an array belongs to an engine, hub or queue the M9600 does not have (R16, R158, R368, R295). -/
def missingReg (s : State) (d : RegDef) (off : Nat) : Bool :=
  let i := d.index off
  if inRange off 0x2400000 0x27FFFFF then throughput s
  else if inRange off 0x3600000 0x37FFFFF then throughput s && d.count == 16 && decide (8 ≤ i)
  else if inRange off 0x3800000 0x39FFFFF then
    throughput s && d.base != LOP.PWMPER_PER.base && d.base != LOP.PWMDUTY_HIGH.base &&
      ((d.count == 24 && decide (8 ≤ i)) || (d.count == 48 && decide (16 ≤ i)) || (d.count == 120 && decide (40 ≤ i)))
  else if inRange off 0x2000000 0x23FFFFF then
    (d.count == 40 && decide (hubLimit s ≤ i)) || (d.count == 320 && decide (hubLimit s ≤ i / 8))
  else if inRange off 0xD00000 0xFFFFFF then
    !twinEnabled s && off != TWN.STAT.base && off != TWN.CLAIM.base
  else if inRange off 0x3100000 0x31FFFFF then
    (d.base == ETH.QCFG_EN.base || d.base == ETH.QBASE.base || d.base == ETH.QBASE.base + 4 ||
      d.base == ETH.QPTR_HEAD.base) && decide (12 ≤ i % 16)
  else false

/-- The register at an offset, where one is there to be accessed. -/
def regAt (s : State) (off : Nat) : Option RegDef :=
  match findReg off with
  | none => none
  | some d => if refusedBlock s off || missingReg s d off then none else some d

/-! Reads. -/

/-- A core's DBGDATA, by the offset of its low half. -/
def debugCore (off : Nat) : Option Nat :=
  if inRange off CWY.DBGDATA.base (CWY.DBGDATA.base + 127) then some ((off - CWY.DBGDATA.base) / 8)
  else if inRange off 0x800000 0x9FFFFF ∧ (off - 0x800000) % 65536 = RDC.DBGDATA.base - 0x800000 then
    some (16 + (off - 0x800000) / 65536)
  else none

/-- The live value of a pair that is not simply stored, by the offset of its low half. -/
def livePair (s : State) (off : Nat) : Option Nat :=
  if off = TIM.FRC.base then some s.frc
  else if inRange off ENC.POS.base (ENC.POS.base + 95) then some (unsign (channelOf s ((off - ENC.POS.base) / 8)).x 64)
  else if inRange off ENC.SPEED.base (ENC.SPEED.base + 95) then some (unsign (speedOf s ((off - ENC.SPEED.base) / 8)) 64)
  else match debugCore off with
    | some k => some (debugRead s k).toNat
    | none => none

/-- The Lodes that are not stopped, bit c for channel c. -/
def lodesBusy (s : State) : Nat := ((upto 8).map (fun c => 2 ^ c * bnat (lodeRuns s c))).foldl (· + ·) 0

/-- The age of a hub's last upstream frame in µs (Table: DLK.HUBAGE[h]). -/
def hubAge (s : State) (h : Nat) : Nat := ageUs s (hubOf s h).ackFrc 0xFFFFF

/-- DLK.REPLAY: on-chip replay in use in KiB, and overflow in MiB. -/
def replayValue (s : State) : Nat :=
  let n := replayBytes s
  Nat.min 4096 (ceilDiv n 1024) + 65536 * Nat.min 0xFFFF (ceilDiv (n - 4 * 2 ^ 20) (2 ^ 20))

/-- The live value of a register that is not simply stored, by array base and element; the stored value otherwise. -/
def liveWhole (s : State) (d : RegDef) (off : Nat) : Nat :=
  let i := d.index off
  let b := d.base
  let n := (regRaw s off).toNat
  if b = GLB.PROFILE.base then setBits n 1 1 (Config.freeValue s.fresh % 2)
  else if b = GLB.RST.base then 4 * bnat (!s.power.rstoutLow)
  else if inRange off (PWR.DSTAT_STATE.off 1) (PWR.DSTAT_STATE.off 13) then
    (if domainHeld s ((off - PWR.DSTAT_STATE.base) / 4) then 6 else n)
  else if b = PWR.SLEEPTMR.base then sleepLeft s
  else if b = RDC.STAT_STATE.base then (if reedHeld s i then setBits n 0 3 7 else n)
  else if b = LDG.MIRLAG.base then Nat.min 0xFFFFFFFF (lagOf s i).length
  else if b = TWN.STAT.base then twinStat s
  else if b = TWN.HBAGE.base then hbAge s
  else if b = SLC.POOL_FREE.base then freeBlockCount s
  else if b = SLC.BANDS_FREE.base then
    (8192 - s.intake.bands.length) + 16384 * bnat (loadsWait s)
  else if b = SLC.DICTSTAT_REFS.base then setBits n 18 14 (dictRefs s i)
  else if b = SLC.IENG.base then iengValue s i
  else if b = SLC.DENG.base then dengValue s i
  else if b = LDE.GEOSTAT.base then setBits n 24 8 (lodesBusy s)
  else if b = DLK.HUBAGE_AGE.base then hubAge s i
  else if b = DLK.REPLAY.base then replayValue s
  else if b = PCI.QSTAT_STATE.base then setBits n 0 2 (queueState s i)
  else if b = PCI.RDPOOL.base then readsOut s
  else if b = ENC.CNT.base then wrapped s i
  else if b = ENC.REV.base then revolutions s i
  else if b = ENC.LTGREM.base then remaining s i
  else if b = LOP.OUT.base then unsign (loopOut s i) 32
  else if b = LOP.STAT.base then setBits n 18 1 (bnat (destConflict s i))
  else if b = PIN.BANKCFG_EN.base ∧ i = 0 then 1
  else if b = PIN.GPIOIN.base then (if flag s PIN.BANKCFG_EN 3 then s.power.gpio else 0)
  else n

/-- A value with its WO fields reading 0 (R9). -/
def readable (d : RegDef) (n : Nat) : Nat :=
  d.fields.foldl (fun a f => if f.access = .wo then setBits a f.lo f.width 0 else a) n

/-- The live value of either half of a pair. -/
def halfValue (s : State) (d : RegDef) (off : Nat) : Nat :=
  let lo := if d.half = .hi then off - 4 else off
  match livePair s lo with
  | some v => if d.half = .hi then v / 2 ^ 32 % 2 ^ 32 else v % 2 ^ 32
  | none => (regRaw s off).toNat

/-- The live value of the register at an offset, as a read returns it; 0 where there is none (R9, R471). -/
def liveValue (s : State) (off : Nat) : Nat :=
  match regAt s off with
  | none => 0
  | some d => readable d (if d.half = .whole then liveWhole s d off else halfValue s d off)

/-- A register's RC fields cleared (R9). -/
def clearRc (s : State) (d : RegDef) (off : Nat) : State :=
  if d.fields.any (fun f => decide (f.access = .rc)) then
    regPut s off (BitVec.ofNat 32
      (d.fields.foldl (fun a f => if f.access = .rc then setBits a f.lo f.width 0 else a) (regRaw s off).toNat))
  else s

/-- The registers that a read of a pair's low half snapshots (R11, R374). -/
def snapOffsets (off : Nat) : List Nat :=
  if inRange off ENC.POS.base (ENC.POS.base + 95) then
    let c := (off - ENC.POS.base) / 8
    [off + 4, ENC.CNT.off c, ENC.REV.off c]
  else [off + 4]

/-- Whether a register is read from a snapshot where its requester holds one. -/
def snapped (d : RegDef) : Bool := decide (d.half = .hi) || d.base == ENC.CNT.base || d.base == ENC.REV.base

/-- A read of a register by a requester: the value and the state after it. -/
def regRead (s : State) (r off : Nat) : Nat × State :=
  match regAt s off with
  | none => (0, s)
  | some d =>
    let v := liveValue s off
    if d.half = .lo then
      (v, { s with snaps := forEach (snapOffsets off) s.snaps (fun m o =>
        mput m (pairKey r o) (BitVec.ofNat 32 (liveValue s o))) })
    else if snapped d then
      match mfind s.snaps (pairKey r off) with
      | some w => (w.toNat, { s with snaps := mdel s.snaps (pairKey r off) })
      | none => (v, s)
    else if d.base = GLB.PROFILE.base then (v, (free s).2)
    else (v, clearRc s d off)

/-! RWL fields and their owners (R10). -/

/-- The channels whose Lodes own a register, by its owner and element (R37, R89, R109, R130). -/
def ownerChannels (s : State) (o : Owner) (i : Nat) : List Nat :=
  match o with
  | .lodesOfGroup => (upto 8).filter (fun c => flagBit s LDE.PGCFG_CHMASK c i)
  | .lodeOfChannel => [i]
  | .lodeOfRow => [rowChannel s i]
  | .lodeOfSchedule => [i / 32]
  | .lodeOfSpread => [i / 8]
  | .lodeOfGain => [rowChannel s (i / 4)]
  | _ => []

/-- Whether the owner of a register's RWL fields is stopped. -/
def ownerStopped (s : State) (o : Owner) (i : Nat) : Bool :=
  match o with
  | .none => true
  | .mire => !mireLocked s && !s.intake.locking
  | .lodesOfGroup | .lodeOfChannel | .lodeOfRow | .lodeOfSchedule | .lodeOfSpread | .lodeOfGain =>
    !anyRuns s (ownerChannels s o i)
  | .sedgeBank => !bankBusy s (i / 8) (i / 4 % 2) || !lodeRuns s (i / 8)
  | .screenSlot => !slotInUse s i
  | .limiterWeights => !limiterBusy s (i / 4) (i / 2 % 2) || !anyRuns s (groupChannels s (i / 4))
  | .limiterCap => !limiterBusy s (i / 2) (i % 2) || !anyRuns s (groupChannels s (i / 2))
  | .hub => !flag s DLK.HUBCTL_EN i
  | .camera => !flag s MER.CAMCFG_EN i
  | .queue => !flag s PCI.QCFG_EN i
  | .eventRing => !flag s PCI.EVCFG_EN i
  | .ledgerGroup => !groupPrinting s i
  | .mirror => !flag s LDG.MIRCFG_EN i
  | .memory => let st := getF s MEM.STAT_STATE; st == 0 || st == 3
  | .quad => !flag s LAN.QCFG_EN i
  | .lane => !flag s LAN.LCFG_EN i
  | .ethPort => !flag s ETH.PCFG_EN i
  | .ethQueue => !flag s ETH.QCFG_EN i
  | .encoder => !flag s ENC.CFG_EN i
  | .generator => !flag s ENC.LTGCFG_EN i
  | .axis => !axisOn s i
  | .loop => !loopClosed s i
  | .loopBank => !loopClosed s (i / 2)
  | .loopBiquad => !loopClosed s (i / 5)
  | .sensorPort => !flag s SNS.PCFG_EN i
  | .sensorSlot => !flag s SNS.PCFG_EN (i / 4)
  | .pinBank => !flag s PIN.BANKCFG_EN i

/-- The channels that a write of a field would move a row or a group to (R37). -/
def movedTo (d : RegDef) (f : FieldDef) (v : Nat) : List Nat :=
  if d.base = LDE.ROWCFG_CH.base ∧ f.lo = LDE.ROWCFG_CH.lo then [bits v f.lo f.width]
  else if d.base = LDE.PGCFG_CHMASK.base ∧ f.lo = LDE.PGCFG_CHMASK.lo then (upto 8).filter (bit (bits v f.lo f.width))
  else []

/-- Whether a write may change an RWL field: its owner is stopped, and so are the Lodes of the channels it moves something to
(R10, R37). -/
def fieldFree (s : State) (d : RegDef) (off v : Nat) (f : FieldDef) : Bool :=
  ownerStopped s d.owner (d.index off) && !anyRuns s (movedTo d f v)

/-- An ignored RWL write is reported (R10). -/
def rwlIgnored (s : State) (off : Nat) : State :=
  if flag s GLB.ACCERR_RWL_IGN then setF s GLB.ACCERR_MULTI 1
  else setF (setF s GLB.ACCERR_RWL_IGN 1) GLB.ACCERR_ADDR_OFFSET off

/-- The loop whose coefficients a register holds, for a refused write (R403). -/
def loopOfReg (o : Owner) (i : Nat) : Option Nat :=
  match o with
  | .loop => some i
  | .loopBank => some (i / 2)
  | .loopBiquad => some (i / 5)
  | _ => none

/-- A refused write of a register's RWL fields. -/
def rwlRefused (s : State) (d : RegDef) (off : Nat) : State :=
  let s := rwlIgnored s off
  match loopOfReg d.owner (d.index off) with
  | some l => setF s LOP.STAT_COEF_LOCK_ERR 1 l
  | none => s

/-! Writes. -/

/-- Fields whose rows say what a write does: they are not simply stored. -/
def hooked : List Fld :=
  [GLB.PROFILE_LATE_WR, THM.THRESH_WARN, THM.THRESH_THROTTLE, THM.THRESH_CRITICAL, THM.RETIRE_MASK, RDC.CTL_RUN,
   LDG.MIRCFG_EN, DLK.HUBCTL_EN, MER.CAMCFG_EN, MEM.FREQ_REQ, LAN.QCFG_EN, LAN.QRATE_NINT, LAN.QRATE_NFRAC, LAN.LCFG_EN,
   PCI.FNCTL_EN, PCI.QCFG_EN, PCI.SQDB_INDEX, PCI.CQDB_INDEX, PCI.EVCFG_EN, PCI.EVTAIL, ETH.PCFG_EN, TIM.WORK_SEL,
   TIM.TOCFG_MODE, ENC.CFG_EN, ENC.LTGCFG_EN, AXS.CFG_EN, SNS.PCFG_EN]

/-- Whether a field of a register is one of those. -/
def isHooked (d : RegDef) (f : FieldDef) : Bool :=
  hooked.any (fun h => h.base == d.base && h.lo == f.lo)

/-- One field's new value under its access type (R9); `free` says whether an RWL field may change. -/
def fieldWrite (d : RegDef) (free : FieldDef → Bool) (v old n : Nat) (f : FieldDef) : Nat :=
  let now := bits old f.lo f.width
  let new := bits v f.lo f.width
  if isHooked d f then n
  else match f.access with
    | .rw | .rws => setBits n f.lo f.width new
    | .rwl => if free f then setBits n f.lo f.width new else n
    | .w1c => setBits n f.lo f.width (now - Nat.land now new)
    | .w1s => setBits n f.lo f.width (Nat.lor now new)
    | .ro | .rc | .wo => n

/-- Whether a write would change an RWL field that it may not change (R10). -/
def rwlBarred (d : RegDef) (free : FieldDef → Bool) (old v : Nat) : Bool :=
  d.fields.any (fun f => decide (f.access = .rwl) && bits old f.lo f.width != bits v f.lo f.width && !free f)

/-- A register's fields written under their access types. -/
def storeFields (s : State) (d : RegDef) (off : Nat) (v : Nat) : State :=
  let old := (regRaw s off).toNat
  let free := fieldFree s d off v
  let barred := rwlBarred d free old v
  let new := d.fields.foldl (fieldWrite d free v old) old
  let s := if barred then rwlRefused s d off else s
  let s := regPut s off (BitVec.ofNat 32 new)
  let owned := d.fields.any (fun f => decide (f.access = .rwl))
  let s := if !barred && owned && inRange off 0x1400000 0x1FFFFFF then tabsumAdd s (0x7FF000000000 + off) v else s
  if isGeoOffset off && new != old then runLedgers (geoAbandon s) else s

/-- A write of LDE.HTIDX: the store of WR, then the load of RD (R25). An entry with VALID 0 has no row (R24). -/
def headTableWrite (s : State) (v : Nat) : State :=
  let i := bits v 0 12
  let s :=
    if bit v 16 && htData s != headAt s i then
      (if [headAt s i, htData s].any (fun h => h.valid && lodeRuns s (rowChannel s h.row)) then
        rwlIgnored s LDE.HTIDX.base
       else runLedgers (geoAbandon (htStore s i (htData s))))
    else s
  if bit v 17 then htLoad s i else s

/-- A write of AXS.TBLIDX (R395). -/
def sineTableWrite (s : State) (v : Nat) : State :=
  let k := bits v 0 8
  let t := bits v 8 1
  let st := bits v 9 3
  let s :=
    if bit v 16 then (if tableRefused s st t then rwlIgnored s AXS.TBLIDX_WR.base else tableWrite s st t k)
    else s
  if bit v 17 then tableRead s st t k else s

/-- HALT, RESUME and STEP of a core's DBGCTL (R214). -/
def debugCtl (s : State) (k v : Nat) : State :=
  let s := if bit v 0 then debugHalt s k else s
  let s := if bit v 1 then debugGo s k false else s
  if bit v 2 then debugGo s k true else s

/-- RDC.CTL: LOAD, RUN and DOORBELL (R186, R213). -/
def reedCtl (s : State) (n v : Nat) : State :=
  let s := if bit v 1 then imageLoad s n else s
  let s := reedWake (reedRun s n (bit v 0)) n
  if bit v 2 then setEvent s (16 + n) 0 else s

/-- What a write does beyond its plain fields, in the blocks below the print path. -/
def controlHook (s : State) (d : RegDef) (off : Nat) (v : Reg32) : State :=
  let b := d.base
  let i := d.index off
  let n := v.toNat
  if b = GLB.PROFILE.base then afterProfile (profileWrite s v)
  else if b = GLB.RST.base then rstWrite s v
  else if b = GLB.BRST.base then blockResets s n
  else if b = PWR.SLEEPTMR.base then
    (match s.power.deep with | some _ => setPower s { s.power with deep := some s.frc } | none => s)
  else if b = THM.THRESH_WARN.base then threshWrite s v
  else if b = THM.RETIRE_MASK.base then retireWrite s v
  else if b = THM.POLICY.base then refreshThermal (floorWritten s)
  else if b = CWY.DBGCTL.base then debugCtl s i n
  else if b = CWY.TCTL_CLEAR.base then (if bit n 0 then threadClear s i else s)
  else if b = RDC.DBGCTL.base then debugCtl s (16 + i) n
  else if b = RDC.CTL_RUN.base then reedCtl s i n
  else if b = LDG.MIRCFG_EN.base then mirrorWrite s i (bit n 0)
  else if b = LDG.RESOLVE_GO.base then (if bit n 2 then ledgerResolve s i else s)
  else if b = TWN.CTL.base then
    let s := if bit n 0 then twinPair s else s
    let s := if bit n 1 then twinRejoin s else s
    if bit n 2 then partnerReset s (bits n 8 8) else s
  else s

/-- What a write does beyond its plain fields, on the print path. -/
def printHook (s : State) (d : RegDef) (off : Nat) (v : Reg32) : State :=
  let b := d.base
  let i := d.index off
  let n := v.toNat
  if b = SLC.MIRECTL_LOCK.base then mireWrite s (bit n 0) (bit n 1)
  else if b = HMK.RELOAD.base then (if bit n 16 then reloadStart s else s)
  else if b = LDE.HTIDX.base then headTableWrite s n
  else if b = LDE.GEOCTL.base then (if bit n 0 then setF s LDE.GEOSTAT_STATE 1 else s)
  else if b = LDE.RATECAP_RATE.base || b = LDE.PGCFG_ENABLE.base then refreshThermal s
  else if b = DLK.HUBCTL_EN.base then
    let s := hubEnable s i (bit n 0)
    if bit n 3 then hubRestart s i else s
  else if b = MER.CAMCFG_EN.base then camLanesPower (if bit n 0 then cameraEnable s i else cameraDisable s i) i
  else if b = MER.CCCTL.base then (if bit n 0 then cameraGo s i else s)
  else s

/-- What a write does beyond its plain fields, in memory, lanes, host interface and network. -/
def portHook (s : State) (d : RegDef) (off : Nat) (v : Reg32) : State :=
  let b := d.base
  let i := d.index off
  let n := v.toNat
  if b = MEM.CTL_START.base then (if bit n 0 then memStart s else s)
  else if b = MEM.FREQ_REQ.base then freqRequest s (bits n 0 2)
  else if b = LAN.QCFG_EN.base then quadEnWrite s i (bit n 0)
  else if b = LAN.QRATE.base then quadRateWrite s i v
  else if b = LAN.LCFG_EN.base then laneEnWrite s i (bit n 0)
  else if b = LAN.PRBSCFG_CLR.base then (if bit n 4 then prbsClear s i else s)
  else if b = LAN.EYECTL_GO.base then (if bit n 15 then eyeScan s i else s)
  else if b = PCI.FNCTL_EN.base then (if bit n 0 then startDeferred (fnEnable s i .fnctl) else fnDisable s i .fnctl)
  else if b = PCI.QCFG_EN.base then (if bit n 0 then queueEnable s i else queueDisable s i)
  else if b = PCI.SQDB_INDEX.base then submissionDoorbell s i (bits n 0 PCI.SQDB_INDEX.width)
  else if b = PCI.CQDB_INDEX.base then completionDoorbell s i (bits n 0 PCI.CQDB_INDEX.width)
  else if b = PCI.QCTL_RESUME.base then (if bit n 0 then queueResume s i else s)
  else if b = PCI.EVCFG_EN.base then
    (if bit n 0 then
      let s := eventRingEnable s i
      if i = 0 then bootFailReport s else s
     else setF s PCI.EVCFG_EN 0 i)
  else if b = PCI.EVTAIL.base then eventTail s i n
  else if b = ETH.PCFG_EN.base then portEnable s i (bit n 0)
  else s

/-- What a write does beyond its plain fields, in time, feedback, motion and boot. -/
def motionHook (s : State) (d : RegDef) (off : Nat) (v : Reg32) : State :=
  let b := d.base
  let i := d.index off
  let n := v.toNat
  if b = TIM.TDCTL_ACQ.base then (if bit n TIM.TDCTL_ACQ.lo then timeAcquire s i else s)
  else if b = TIM.STEPFR_FRAC.base then regPut s off (BitVec.ofNat 32 (n % 65536))
  else if b = TIM.WORK_SEL.base then workSelect s (bits n 0 1)
  else if b = TIM.SNAP_GO.base then (if bit n 0 then timeSnap s else s)
  else if b = TIM.TOCFG_MODE.base then toutMode s i (bit n 0)
  else if b = TIM.TINCFG_POP.base then (if bit n 2 then tinPop s i else s)
  else if b = TIM.SPD.base then refreshLimits s
  else if b = ENC.CFG_EN.base then channelEnable s i (bit n 0)
  else if b = ENC.CTL_CLR.base then (if bit n 0 then channelClear s i else s)
  else if b = ENC.LTGCFG_EN.base then generatorEnable s i (bit n 0)
  else if b = AXS.CFG_EN.base then axisEnable s i (bit n 0)
  else if b = AXS.CTL_HALT.base then
    let s := if bit n 0 then stopAxis s i 1 else s
    let s := if bit n 1 then axisSetpos s i else s
    if bit n 2 then axisClear s i else s
  else if b = AXS.TBLIDX_ENTRY.base then sineTableWrite s n
  else if b = LOP.INJ_GO.base then (if bit n 3 then injectStart s i else s)
  else if b = LOP.CAPCTL_ABORT.base then (if bit n 0 then endCapture s i 0 true else s)
  else if b = SNS.PCFG_EN.base then portOn s i (bit n 0)
  else if b = SNS.CTL_CLR.base then (if bit n 0 then sensorClear s i else s)
  else if b = SEC.DLCTL_GO.base then (if bit n 0 then downloadGo s else s)
  else if b = SEC.FUSECTL_OP.base then fuseWrite s v
  else if b = SEC.DBGCTL_CHAL.base then debugLockWrite s v
  else if b = SEC.DBGRESP.base then regPut s off v
  else s

/-- What a write does beyond its plain fields. -/
def regHook (s : State) (d : RegDef) (off : Nat) (v : Reg32) : State :=
  if off < 0x1000000 then controlHook s d off v
  else if off < 0x2800000 then printHook s d off v
  else if off < 0x3200000 then portHook s d off v
  else motionHook s d off v

/-- What a register keeps of a value: its fields, and 0 in reserved bits (R8). -/
def RegDef.kept (d : RegDef) (v : Nat) : Nat :=
  d.fields.foldl (fun a f => setBits a f.lo f.width (bits v f.lo f.width)) 0

/-- A whole pair written (R11): its rows say what TIM.STEP, TIM.RATE, LDG.NEXTFSN and DBGDATA do. -/
def commitPair (s : State) (d : RegDef) (lo : Nat) (v : Nat) : State :=
  let i := d.index (lo + 4)
  if inRange lo TIM.STEP.base (TIM.STEP.base + 15) then domainStep s i (signed v 64)
  else if inRange lo TIM.RATE.base (TIM.RATE.base + 15) then domainRate s i v
  else if inRange lo LDG.NEXTFSN.base (LDG.NEXTFSN.base + 31) then ledgerSeed s i v
  else match debugCore lo with
    | some k => debugWrite s k (word v)
    | none =>
      let old := (regRaw s lo).toNat + 2 ^ 32 * (regRaw s (lo + 4)).toNat
      let low := match findReg lo with | some e => e.kept v | none => 0
      let put (s : State) : State := regPut (regPut s lo (BitVec.ofNat 32 low)) (lo + 4) (BitVec.ofNat 32 (d.kept (v / 2 ^ 32)))
      if d.fields.any (fun f => decide (f.access = .rwl)) then
        (if ownerStopped s d.owner i || v == old then put s else rwlRefused s d (lo + 4))
      else if d.fields.any (fun f => decide (f.access = .rw) || decide (f.access = .rws)) then put s
      else s

/-- The low half that a write of a pair's high half commits: the staged one, or the current one (R11). -/
def stagedLow (s : State) (r lo : Nat) : Nat :=
  match mfind s.stage (pairKey r lo) with
  | some w => w.toNat
  | none => match livePair s lo with
    | some v => v % 2 ^ 32
    | none => (regRaw s lo).toNat

/-- The debug registers, which take no write while debug is locked (R214). -/
def debugRegister (off : Nat) : Bool :=
  [CWY.DBGCTL, CWY.DBGSEL, CWY.DBGBP, RDC.DBGCTL, RDC.DBGSEL, RDC.DBGBP0, RDC.DBGBP1, RDC.DBGBP2, RDC.DBGBP3].any (fun f =>
    match findReg off with | some d => d.base == f.base | none => false)

/-- Registers in which no field takes a write although its table types them so (R89, R465). -/
def constantReg (off : Nat) : Bool :=
  off == PIN.BANKCFG_EN.base || (inRange off SDG.DEQ_EQ.base (SDG.DEQ_EQ.base + 255) && (off - SDG.DEQ_EQ.base) / 4 % 8 == 0)

/-- A bank that has been enabled: its outputs take the levels their blocks drive (R450). -/
def bankEnabled (before s : State) (b : Nat) : State :=
  if flag before PIN.BANKCFG_EN b || !flag s PIN.BANKCFG_EN b then s
  else if b = 1 then
    let s := forEach ((upto 16).filter (fun o => flag s TIM.TOCFG_LEVEL o)) s (fun s o => sendPin s 1 (.tout o true))
    forEach ((upto 4).filter (fun k => (mfind s.time.markHigh k).isSome)) s (fun s k => sendPin s 1 (.mark k true))
  else if b = 6 then forEach s.motion.pwm s (fun s e => sendPin s 6 (.pwm e.1 e.2.1 e.2.2))
  else s

/-- A write of a register by a requester. -/
def regWrite (s : State) (r off : Nat) (v : Reg32) : State :=
  if constantReg off || (debugRegister off && !debugUnlocked s) then s
  else match regAt s off with
  | none => s
  | some d =>
    if d.half = .lo then { s with stage := mput s.stage (pairKey r off) v }
    else if d.half = .hi then
      let low := stagedLow s r (off - 4)
      commitPair { s with stage := mdel s.stage (pairKey r (off - 4)) } d (off - 4) (low + 2 ^ 32 * v.toNat)
    else
      let t := regHook (storeFields s d off v.toNat) d off v
      if d.base = PIN.BANKCFG_EN.base then bankEnabled s t (d.index off) else t

/-! Function views (R473, R474). -/

/-- The block offset of a view's window, and whether it takes writes. -/
def viewWindow (f w : Nat) : Option (Nat × Bool) :=
  if 1 ≤ f ∧ f ≤ 4 then
    ([0xC00000, 0x1000000, 0x1400000, 0x1800000, 0x1C00000, 0x2000000][w]?).map (fun b => (b, false))
  else if f = 5 then ([(0x2400000, true), (0x1800000, false)] : List (Nat × Bool))[w]?
  else if f = 6 then ([0x3400000, 0x3600000, 0x3800000, 0x3A00000][w]?).map (fun b => (b, true))
  else if f = 7 then ([0x3100000, 0x3200000][w]?).map (fun b => (b, true))
  else none

/-- The home that a location of a queue's view holds. -/
def queueView (q o : Nat) : Option Nat :=
  if o = 0 then some (PCI.SQDB_INDEX.off q)
  else if o = 4 then some (PCI.CQDB_INDEX.off q)
  else if o = 8 then some (PCI.QSTAT_STATE.off q)
  else if o = 0xC then some (PCI.QCTL_RESUME.off q)
  else if o = 0x10 then some (PCI.QCFG_EN.off q)
  else if o = 0x18 ∨ o = 0x1C then some (PCI.SQBASE.base + 8 * q + (o - 0x18))
  else if o = 0x20 ∨ o = 0x24 then some (PCI.CQBASE.base + 8 * q + (o - 0x20))
  else if o = 0x28 then some (PCI.QSEQ.off q)
  else none

/-- The home that a location of a function's event ring view holds. -/
def ringView (f o : Nat) : Option Nat :=
  if o = 0 ∨ o = 4 then some (PCI.EVBASE.base + 8 * f + o)
  else if o = 8 then some (PCI.EVCFG_EN.off f)
  else if o = 0xC then some (PCI.EVHEAD.off f)
  else if o = 0x10 then some (PCI.EVTAIL.off f)
  else if o = 0x14 then some (PCI.EVLOST.off f)
  else none

/-- The home at a BAR0 offset of a function, and whether the function may write it (Table: function view layout). -/
def viewHome (s : State) (f off : Nat) : Option (Nat × Bool) :=
  if f = 0 then (if off < 0x4000000 then some (off, true) else none)
  else if off < 0x4000 then
    let q := off / 0x100
    if getF s PCI.QCFG_FN q = f then (queueView q (off % 0x100)).map (fun h => (h, true)) else none
  else if inRange off 0x4000 0x4FFF then (ringView f (off - 0x4000)).map (fun h => (h, true))
  else if off = 0x5000 then some (GLB.ID.base, false)
  else if off = 0x5004 ∨ off = 0x5008 then some (GLB.UID.base + (off - 0x5004), false)
  else if inRange off 0x10000 0xEFFFF then
    (viewWindow f (off / 0x10000 - 1)).map (fun w =>
      (w.1 + off % 0x10000, w.2 || (f == 5 && w.1 + off % 0x10000 == HMK.STAT.base)))
  else none

/-- Whether a register home lies in a function's view, and whether the view takes writes to it. -/
def reaches (s : State) (f home : Nat) : Option Bool :=
  if f = 0 then some true
  else
    let inBlock := ((upto 6).filterMap (viewWindow f)).find? (fun w => inRange home w.1 (w.1 + 0xFFFF))
    match inBlock with
    | some w => some (w.2 || (f == 5 && home == HMK.STAT.base))
    | none =>
      if [GLB.ID.base, GLB.UID.base, GLB.UID.base + 4].contains home then some false
      else if (upto 6).any (fun j => ringView f (4 * j) == some home) then some true
      else if (upto 64).any (fun q => getF s PCI.QCFG_FN q == f &&
        (upto 11).any (fun j => queueView q (4 * j) == some home)) then some true
      else none

/-- What a function other than PF0 writes: PCI.QCFG.FN keeps its value (R250). -/
def viewValue (s : State) (f home : Nat) (v : Reg32) : Reg32 :=
  if f ≠ 0 ∧ inRange home PCI.QCFG_FN.base (PCI.QCFG_FN.base + 255) then
    BitVec.ofNat 32 (setBits v.toNat 1 3 (bits (regRaw s home).toNat 1 3))
  else v

/-! MSI-X tables and PBAs (R250, R262). -/

/-- The offset of a function's MSI-X table in its BAR0. -/
def msixBase (f : Nat) : Nat := if f = 0 then 0x30F0000 else 0xF0000

/-- A word of a function's MSI-X table or PBA, by byte offset from the table. -/
def msixRead (s : State) (f o : Nat) : Nat :=
  if o < 0x1000 then
    let e := vectorOf s f (o / 16)
    nth [e.addr % 2 ^ 32, e.addr / 2 ^ 32, e.data.toNat, bnat e.masked] (o % 16 / 4)
  else if inRange o 0x8000 0x801F then
    ((upto 32).map (fun j => 2 ^ j * bnat (vectorOf s f (8 * (o - 0x8000) + j)).pending)).foldl (· + ·) 0
  else 0

/-- A write of a word of a function's MSI-X table; the PBA takes no writes. -/
def msixWrite (s : State) (f o : Nat) (v : Reg32) : State :=
  if o < 0x1000 then
    let k := o / 16
    let e := vectorOf s f k
    match o % 16 / 4 with
    | 0 => setVector s f k { e with addr := v.toNat / 4 * 4 + e.addr / 2 ^ 32 * 2 ^ 32 }
    | 1 => setVector s f k { e with addr := e.addr % 2 ^ 32 + 2 ^ 32 * v.toNat }
    | 2 => setVector s f k { e with data := v }
    | _ => maskVector s f k (bit v.toNat 0)
  else s

/-- The function whose MSI-X table an offset of a function's BAR0 lies in, with the offset from the table. -/
def msixAt (f off : Nat) : Option Nat :=
  if inRange off (msixBase f) (msixBase f + 0xFFFF) then some (off - msixBase f) else none

/-! Host accesses (R470), accesses of threads and cores (R474, R475), and of the management port (R460). -/

/-- An Unsupported Request: no register changes but PCI.ERR.UR (R470). -/
def unsupported (s : State) : State := setF s PCI.ERR_UR 1

/-- While the boot ROM waits for a host download, only PF0's GLB and SEC blocks answer the host (R436, R438). -/
def hostBlind (s : State) (f off : Nat) : Bool :=
  (s.boot.stage == .hostIdle || s.boot.stage == .hostRead) &&
    !(f == 0 && (decide (off < 0x100000) || decide (0x3E00000 ≤ off)))

/-- A host function's aligned 32-bit read at an offset of its BAR0. -/
def hostRead (s : State) (f off : Nat) : Nat × State :=
  if (fnOf s f).d3 then (0, unsupported s)
  else if hostBlind s f off then (0, s)
  else match msixAt f off with
    | some o => (msixRead s f o, s)
    | none => match viewHome s f off with
      | some (h, _) => regRead s f h
      | none => (0, s)

/-- A host function's aligned 32-bit write at an offset of its BAR0. -/
def hostWrite32 (s : State) (f off : Nat) (v : Reg32) : State :=
  if (fnOf s f).d3 then unsupported s
  else if hostBlind s f off then s
  else match msixAt f off with
    | some o => msixWrite s f o v
    | none => match viewHome s f off with
      | some (h, true) => regWrite s f h (viewValue s f h v)
      | _ => s

/-- A host function's write of the register whose home is given, through whatever view reaches it. -/
def hostRegWrite (s : State) (f home : Nat) (v : Reg32) : State :=
  if (fnOf s f).d3 then unsupported s
  else if f = 0 then hostWrite32 s 0 home v
  else if hostBlind s f home then s
  else match reaches s f home with
    | some true => regWrite s f home (viewValue s f home v)
    | _ => s

/-- A host function's read of the register whose home is given. -/
def hostRegRead (s : State) (f home : Nat) : Nat × State :=
  if (fnOf s f).d3 then (0, unsupported s)
  else if f = 0 then hostRead s 0 home
  else if hostBlind s f home then (0, s)
  else match reaches s f home with
    | some _ => regRead s f home
    | none => (0, s)

/-- The function whose view bounds a core's register accesses: a Causeway thread's HOSTFN; a Reed core reaches all (R199). -/
def coreView (s : State) (k : Nat) : Nat := if isThread k then hostFn s k else 0

/-- A core's load from a register; none where its view does not reach it. -/
def coreRegRead (s : State) (k off : Nat) : Option (Nat × State) :=
  let f := coreView s k
  if f = 0 then
    some (match msixAt 0 off with
      | some o => (msixRead s 0 o, s)
      | none => regRead s (coreReq k) off)
  else match reaches s f off with
    | some _ => some (regRead s (coreReq k) off)
    | none => none

/-- A core's store to a register; none where its view does not reach it. -/
def coreRegWrite (s : State) (k off : Nat) (v : Reg32) : Option State :=
  let f := coreView s k
  if f = 0 then
    some (match msixAt 0 off with
      | some o => msixWrite s 0 o v
      | none => regWrite s (coreReq k) off v)
  else match reaches s f off with
    | some true => some (regWrite s (coreReq k) off (viewValue s f off v))
    | some false => some s
    | none => none

/-- The blocks that the management I2C port reaches (R460). -/
def i2cReaches (off : Nat) : Bool := decide (off < 0x300000) || inRange off 0x3E00000 0x3FFFFFF

/-- A management I2C transaction (R460). -/
def i2cAccess (s : State) (op : I2cOp) : State :=
  match op with
  | .write o data =>
    let s := setBoot (deepWake s 2) { s.boot with i2cOffset := o.toNat }
    match data with
    | some v => if i2cReaches o.toNat then regWrite s i2cReq o.toNat v else s
    | none => s
  | .read =>
    let s := deepWake s 2
    let off := s.boot.i2cOffset
    if i2cReaches off then
      let (v, s) := regRead s i2cReq off
      send s (.i2c (BitVec.ofNat 32 v))
    else send s (.i2c 0)

end Sys2Proof.Machine
end

