-- ==== Sys2Proof/Machine/BroferMem.lean ====
section
/-!
DEFINITION. Brofer loads, stores and atomic operations over the device address map, the host window and the register
region (R192, R193, R197 to R202).
-/

namespace Sys2Proof.Machine

/-- The held domain that an address's memory needs, and whether its wake request is queued (R19). -/
def heldSpace (s : State) (a : Nat) : Option (Nat × Bool) :=
  let d : Option Nat := match spaceOf s a with
    | .map | .matrix | .dyke | .sedge => some 10
    | .mere => some 11
    | .rimem | .rdmem => some (reedDomain ((a - 0x7F0003000000) / 0x20000))
    | _ => none
  match d with
  | some d => if domainHeld s d then some (d, getF s GLB.PROFILE_STATE == 0 && !(d == 11 && throughput s)) else none
  | none => none

/-- The core waits until memory is there; it executes the instruction again then. -/
def waitMemory (s : State) (k : Nat) (d : Option Nat) : State :=
  let s := stallOn s k .memory
  match d with
  | some d => domainRequest s d false
  | none => s

/-- Whether a region permits a load of n bytes at an address; the regions of R82, R124 and R181 refuse 8 bits. -/
def loadWidthOk (s : State) (a n : Nat) : Bool :=
  match spaceOf s a with
  | .dyke | .sedge => n != 1
  | .mere => n != 1 || inVol a
  | .hole => false
  | .regs => n == 4
  | _ => true

/-- A load of n bytes from a device or host address. -/
def loadAt (s : State) (k : Nat) (rd : GReg) (ea a n : Nat) (sx : Bool) : Res :=
  if !loadWidthOk s a n then .fault 4 ea
  else match heldSpace s a with
  | some (d, true) => .hold (waitMemory s k (some d))
  | some (_, false) => .ok (writeG s k rd 0)
  | none => match spaceOf s a with
    | .host =>
      let s := stallOn s k (.hostLoad rd a n sx)
      .hold (if fnDisabled s (hostFn s k) then s
        else send s (.hostRead (hostFn s k) (busAddr (coreOf s k).hwin.toNat a) n))
    | .regs => (match coreRegRead s k (a - 0x7FF000000000) with
      | some (v, s) => .ok (writeG s k rd (loaded v 4 sx))
      | none => .fault 5 ea)
    | .sdram =>
      if !memUp s then .hold (waitMemory s k none)
      else if poisoned s a n then .fault 6 ea
      else .ok (writeG (accessRange s a n) k rd (loaded (loadNat s a n) n sx))
    | _ => .ok (writeG s k rd (loaded (loadNat s a n) n sx))

/-- A load instruction of n bytes. -/
def execLoad (c : CoreId) (rd ra : GReg) (imm : BitVec 16) (n : Nat) (sx : Bool) (s : State) : State :=
  runInstr c (fun k s =>
    let ea := (readG s k ra + sext16 imm).toNat
    if 2 ^ 48 ≤ ea then .fault 3 ea
    else if ea % n ≠ 0 then .fault 2 ea
    else match resolveAlias k ea with
      | some a => loadAt s k rd ea a n sx
      | none => .fault 4 ea) s

/-- Whether a region judges its own stores, so that none faults with ALIGN or ACCESS (R82, R90, R95, R124, R181, R197). -/
def judgesStores (s : State) (a : Nat) : Bool :=
  match spaceOf s a with
  | .map | .matrix | .dyke | .sedge | .mere => true
  | _ => false

/-- A store of n bytes to a device or host address. -/
def storeAt (s : State) (k : Nat) (ea a n v : Nat) : Res :=
  match heldSpace s a with
  | some (d, true) => .hold (waitMemory s k (some d))
  | some (_, false) => .ok s
  | none => match spaceOf s a with
    | .map => .ok (setF s HMK.ERR_MAP_WR 1)
    | .matrix => .ok (matrixStore s a n v)
    | .dyke => .ok (dykeStore s a n v)
    | .sedge => .ok (sedgeStore s a n v)
    | .mere => .ok (mereStore s a n v)
    | .cdata | .rdmem => .ok (putNat s a n v)
    | .cprog | .rimem => .fault 5 ea
    | .hole => .fault 4 ea
    | .host =>
      if 16 ≤ storesWait s k then .hold (stallOn s k .memory)
      else
        let s := hostWriteBy s (some k) (hostFn s k) (busAddr (coreOf s k).hwin.toNat a) (toBytes n v)
        .ok (setCore s k { coreOf s k with stored := true })
    | .regs =>
      if n ≠ 4 then .fault 4 ea
      else (match coreRegWrite s k (a - 0x7FF000000000) (BitVec.ofNat 32 v) with
        | some s => .ok s
        | none => .fault 5 ea)
    | .sdram =>
      if mireRefused s a then .fault 5 ea
      else if !memUp s then .hold (waitMemory s k none)
      else if partlyPoisoned s a n then .fault 6 ea
      else .ok (putNat (accessRange s a n) a n v)

/-- A store instruction of n bytes; the register of the rd field is the one stored. -/
def execStore (c : CoreId) (rd ra : GReg) (imm : BitVec 16) (n : Nat) (s : State) : State :=
  runInstr c (fun k s =>
    let ea := (readG s k ra + sext16 imm).toNat
    let v := (readG s k rd).toNat % 256 ^ n
    if 2 ^ 48 ≤ ea then .fault 3 ea
    else match resolveAlias k ea with
      | some a => if ea % n ≠ 0 ∧ !judgesStores s a then .fault 2 ea else storeAt s k ea a n v
      | none => .fault (if ea % n ≠ 0 then 2 else 4) ea) s

/-- Whether an AMO is accepted at an address (R193). -/
def amoSpace (s : State) (a : Nat) : Bool :=
  match spaceOf s a with
  | .cdata | .rdmem => true
  | .sdram => regionOf s a == some 8
  | _ => false

/-- An atomic operation: `f` takes the width in bits, the old value, rb and the old rd, each within the width. AQ and RL
order accesses, which the model already performs in program order; RL waits for stores held back by a disabled function (R203). -/
def execAmo (c : CoreId) (rd ra rb : GReg) (wide rl : Bool) (f : Nat → Nat → Nat → Nat → Nat) (s : State) : State :=
  runInstr c (fun k s =>
    let ea := (readG s k ra).toNat
    let n := if wide then 8 else 4
    if 2 ^ 48 ≤ ea then .fault 3 ea
    else if ea % n ≠ 0 then .fault 2 ea
    else match resolveAlias k ea with
      | none => .fault 0xB ea
      | some a =>
        if !amoSpace s a then .fault 0xB ea
        else if rl && storesWait s k != 0 then .hold (stallOn s k .memory)
        else match heldSpace s a with
        | some (d, true) => .hold (waitMemory s k (some d))
        | some (_, false) => .ok (writeG s k rd 0)
        | none =>
          if decide (spaceOf s a = .sdram) && !memUp s then .hold (waitMemory s k none)
          else if poisoned s a n then .fault 6 ea
          else
            let old := loadNat s a n
            let m := 256 ^ n
            let new := f (8 * n) old ((readG s k rb).toNat % m) ((readG s k rd).toNat % m) % m
            let s := if spaceOf s a = .sdram then accessRange s a n else s
            .ok (writeG (putNat s a n new) k rd (loaded old n true))) s

/-! Loads and stores (Table: loads and stores). -/

def execLb (c : CoreId) (rd ra : GReg) (imm : BitVec 16) (s : State) : Result := .next (whenUp pllControl s (execLoad c rd ra imm 1 true s))
def execLbu (c : CoreId) (rd ra : GReg) (imm : BitVec 16) (s : State) : Result := .next (whenUp pllControl s (execLoad c rd ra imm 1 false s))
def execLh (c : CoreId) (rd ra : GReg) (imm : BitVec 16) (s : State) : Result := .next (whenUp pllControl s (execLoad c rd ra imm 2 true s))
def execLhu (c : CoreId) (rd ra : GReg) (imm : BitVec 16) (s : State) : Result := .next (whenUp pllControl s (execLoad c rd ra imm 2 false s))
def execLw (c : CoreId) (rd ra : GReg) (imm : BitVec 16) (s : State) : Result := .next (whenUp pllControl s (execLoad c rd ra imm 4 true s))
def execLwu (c : CoreId) (rd ra : GReg) (imm : BitVec 16) (s : State) : Result := .next (whenUp pllControl s (execLoad c rd ra imm 4 false s))
def execLd (c : CoreId) (rd ra : GReg) (imm : BitVec 16) (s : State) : Result := .next (whenUp pllControl s (execLoad c rd ra imm 8 false s))
def execSb (c : CoreId) (rd ra : GReg) (imm : BitVec 16) (s : State) : Result := .next (whenUp pllControl s (execStore c rd ra imm 1 s))
def execSh (c : CoreId) (rd ra : GReg) (imm : BitVec 16) (s : State) : Result := .next (whenUp pllControl s (execStore c rd ra imm 2 s))
def execSw (c : CoreId) (rd ra : GReg) (imm : BitVec 16) (s : State) : Result := .next (whenUp pllControl s (execStore c rd ra imm 4 s))
def execSd (c : CoreId) (rd ra : GReg) (imm : BitVec 16) (s : State) : Result := .next (whenUp pllControl s (execStore c rd ra imm 8 s))

/-- HOST_READ_RETURN: the completion of a host-window load, or of the zero-length read of FENCE HOST. -/
def execHostReadReturn (c : CoreId) (reply : HostReply) (s : State) : Result := .next (whenUp pllPcie s (hostReturn s (coreNum c) reply))

/-- REED_RUN: a write of RUN. -/
def execReedRun (n : Fin 32) (run : Bool) (s : State) : Result := .next (whenUp pllControl s (reedWake (reedRun s n run) n))

/-! Atomic operations (Table: AMO operations). -/

def execAmoSwap (c : CoreId) (rd ra rb : GReg) (wide _aq rl : Bool) (s : State) : Result :=
  .next (whenUp pllControl s (execAmo c rd ra rb wide rl (fun _ _ b _ => b) s))
def execAmoAdd (c : CoreId) (rd ra rb : GReg) (wide _aq rl : Bool) (s : State) : Result :=
  .next (whenUp pllControl s (execAmo c rd ra rb wide rl (fun _ a b _ => a + b) s))
def execAmoAnd (c : CoreId) (rd ra rb : GReg) (wide _aq rl : Bool) (s : State) : Result :=
  .next (whenUp pllControl s (execAmo c rd ra rb wide rl (fun _ a b _ => Nat.land a b) s))
def execAmoOr (c : CoreId) (rd ra rb : GReg) (wide _aq rl : Bool) (s : State) : Result :=
  .next (whenUp pllControl s (execAmo c rd ra rb wide rl (fun _ a b _ => Nat.lor a b) s))
def execAmoXor (c : CoreId) (rd ra rb : GReg) (wide _aq rl : Bool) (s : State) : Result :=
  .next (whenUp pllControl s (execAmo c rd ra rb wide rl (fun _ a b _ => Nat.xor a b) s))
def execAmoMin (c : CoreId) (rd ra rb : GReg) (wide _aq rl : Bool) (s : State) : Result :=
  .next (whenUp pllControl s (execAmo c rd ra rb wide rl (fun w a b _ => if signed b w < signed a w then b else a) s))
def execAmoMax (c : CoreId) (rd ra rb : GReg) (wide _aq rl : Bool) (s : State) : Result :=
  .next (whenUp pllControl s (execAmo c rd ra rb wide rl (fun w a b _ => if signed a w < signed b w then b else a) s))
def execAmoMinu (c : CoreId) (rd ra rb : GReg) (wide _aq rl : Bool) (s : State) : Result :=
  .next (whenUp pllControl s (execAmo c rd ra rb wide rl (fun _ a b _ => Nat.min a b) s))
def execAmoMaxu (c : CoreId) (rd ra rb : GReg) (wide _aq rl : Bool) (s : State) : Result :=
  .next (whenUp pllControl s (execAmo c rd ra rb wide rl (fun _ a b _ => Nat.max a b) s))
def execAmoCas (c : CoreId) (rd ra rb : GReg) (wide _aq rl : Bool) (s : State) : Result :=
  .next (whenUp pllControl s (execAmo c rd ra rb wide rl (fun _ a b d => if a = d then b else a) s))

end Sys2Proof.Machine
end

