-- ==== Sys2Proof/Machine/HostRows.lean ====
section
/-!
DEFINITION. Events of the host interface and of the page ledger: fetches and completions, functions enabled and disabled,
flushing reads, commits and dispositions (R246 to R276, R281).
-/

namespace Sys2Proof.Machine

/-! The host interface. -/

/-- ENTRY_FETCH: what the read of the next submission entry answers. -/
def execEntryFetch (q : Fin 64) (reply : HostReply) (s : State) : Result := .next (whenUp pllPcie s (entryFetch s q reply))
/-- PROGRAM_FETCH_DONE. -/
def execProgramFetchDone (q : Fin 64) (reply : HostReply) (s : State) : Result := .next (whenUp pllPcie s (programFetched s q reply))
/-- FUNCTION_DISABLE: a configuration write of Bus Master Enable, or PF0's write of PCI.FNCTL.EN. -/
def execFunctionDisable (f : Fin 8) (cause : DisableCause) (s : State) : Result := .next (whenUp pllPcie s (fnDisable s f cause))
/-- FUNCTION_ENABLE. -/
def execFunctionEnable (f : Fin 8) (cause : EnableCause) (s : State) : Result := .next (whenUp pllPcie s (startDeferred (fnEnable s f cause)))
/-- POWER_STATE_CHANGE: into D3hot or back to D0. -/
def execPowerStateChange (f : Fin 8) (d3 : Bool) (s : State) : Result := .next (whenUp pllPcie s (startDeferred (powerState s f d3)))
/-- PCIE_LINK_CHANGE: the link's new speed, width and power state. -/
def execPcieLinkChange (speed : Fin 6) (width : Fin 17) (pm : Fin 4) (s : State) : Result := .next (whenUp pllPcie s (linkChange s speed width pm))
/-- PCIE_COMPLETION_TIMEOUT. -/
def execPcieCompletionTimeout (o : ReadOwner) (s : State) : Result := .next (whenUp pllPcie s (completionTimeout s o))

/-! The page ledger. -/

/-- FACCEPT_DURABLE: what the flushing read of an ACCEPTED record answers. -/
def execFacceptDurable (g : Fin 4) (fsn : Nat) (reply : HostReply) (s : State) : Result :=
  .next (whenUp pllControl s (runLedgers (flushReturn s g fsn .accepted reply)))
/-- FRAME_RELEASE: what the flushing read of a FIRING record answers. -/
def execFrameRelease (g : Fin 4) (fsn : Nat) (reply : HostReply) (s : State) : Result :=
  .next (whenUp pllControl s (runLedgers (flushReturn s g fsn .firing reply)))
/-- FRAME_RELEASED: what the flushing read of a disposition answers. -/
def execFrameReleased (g : Fin 4) (fsn : Nat) (reply : HostReply) (s : State) : Result :=
  .next (whenUp pllControl s (runLedgers (flushReturn s g fsn .disposition reply)))
/-- FRAME_COMMIT. -/
def execFrameCommit (g : Fin 4) (fsn : Nat) (s : State) : Result :=
  .next (whenUp pllControl s (match frameOf s g fsn with
    | some f => if commitReady s f then runLedgers (meetCondition s f) else s
    | none => s))
/-- FRAME_SPOIL. -/
def execFrameSpoil (g : Fin 4) (fsn : Nat) (s : State) : Result :=
  .next (whenUp pllControl s (match frameOf s g fsn with
    | some f => if spoilReady s f then runLedgers (meetCondition s f) else s
    | none => s))
/-- DISPOSITION_RECORD. -/
def execDispositionRecord (g : Fin 4) (s : State) : Result := .next (whenUp pllControl s (runLedgers (recordDispositions s g)))
/-- MIRROR_RETRY: a failed flushing read of a slot. -/
def execMirrorRetry (g : Fin 4) (fsn : Nat) (s : State) : Result := .next (whenUp pllControl s (flushRetry s g fsn))

end Sys2Proof.Machine
end

