-- ==== Sys2Proof/Machine/LinkRows.lean ====
section
/-!
DEFINITION. Link frames received and sent, hub bring-up, and the cameras: the messages and internal events of the Dusiane
Link (R131 to R157) and of Mere (R161 to R180).
-/

namespace Sys2Proof.Machine

/-! The Dusiane Link. -/

/-- LINK_FRAME_SEND: the oldest frame that may go to a hub. -/
def execLinkFrameSend (h : Fin 40) (s : State) : Result := .next (whenUp pllLanes s (placeFrame s h))
/-- UPSTREAM_FRAME_DISCARD: blocks received on a lane after 58 given bits. -/
def execUpstreamFrameDiscard (l : LaneBlocks) (s : State) : Result :=
  .next (whenUp pllLanes s (takeLinkBlocks s l.lane l.before l.blocks))
/-- ACK_RECEIVED: lane, hub, CLAIM of the header, payload. -/
def execAckReceived (l : Fin 48) (h : Fin 40) (claim : Nat) (payload : List Byte) (s : State) : Result :=
  .next (whenUp pllLanes s (runLedgers (takeAck s l h claim payload)))
/-- NAK_RECEIVED. -/
def execNakReceived (l : Fin 48) (h : Fin 40) (payload : List Byte) (s : State) : Result := .next (whenUp pllLanes s (takeNak s l h payload))
/-- CTRL_RESPONSE: SEQ of the header and payload. -/
def execCtrlResponse (l : Fin 48) (h : Fin 40) (sequence : Nat) (payload : List Byte) (s : State) : Result :=
  .next (whenUp pllLanes s (runLedgers (ctrlTake s l h sequence payload)))
/-- TIME_RESPONSE: the exchange's count, t3 and the payload. -/
def execTimeResponse (l : Fin 48) (h : Fin 40) (k t3ns t3frac : Nat) (payload : List Byte) (s : State) : Result :=
  .next (whenUp pllLanes s (timeTake s l h k t3ns t3frac payload))
/-- SYNC_IDLE_RECEIVED. -/
def execSyncIdleReceived (l : Fin 48) (h : Fin 40) (crcOk : Bool) (payload : List Byte) (s : State) : Result :=
  .next (whenUp pllLanes s (syncIdleTake s l h crcOk payload))
/-- CLAIM_SEND. -/
def execClaimSend (s : State) : Result := .next (whenUp pllLanes s (claimSend s))
/-- TIME_SEND. -/
def execTimeSend (s : State) : Result := .next (whenUp pllLanes s (timeSend s))
/-- SYNC_IDLE_SEND. -/
def execSyncIdleSend (l : Fin 48) (s : State) : Result := .next (whenUp pllLanes s (syncIdleSend s l))
/-- ACK_TIMEOUT. -/
def execAckTimeout (h : Fin 40) (s : State) : Result := .next (whenUp pllLanes s (ackTimeout s h))
/-- LANE_REMOVAL: a position of a hub's set. -/
def execLaneRemoval (h : Fin 40) (pos : Fin 4) (s : State) : Result := .next (whenUp pllLanes s (runLedgers (laneRemove s h pos)))
/-- LANE_REJOIN. -/
def execLaneRejoin (h : Fin 40) (pos : Fin 4) (s : State) : Result := .next (whenUp pllLanes s (laneRejoin s h pos))
/-- HUB_CONFIG_START. -/
def execHubConfigStart (h : Fin 40) (s : State) : Result := .next (whenUp pllLanes s (hubConfigStart s h))
/-- HUB_SILENCE_DOWN. -/
def execHubSilenceDown (h : Fin 40) (s : State) : Result := .next (whenUp pllLanes s (runLedgers (hubSilence s h)))
/-- CTRL_TIMEOUT: a control operation of a hub, by its SEQ. -/
def execCtrlTimeout (h : Fin 40) (sequence : Nat) (s : State) : Result := .next (whenUp pllLanes s (runLedgers (ctrlTimeout s h sequence)))
/-- TELEMETRY_REPORT. -/
def execTelemetryReport (l : Fin 48) (h : Fin 40) (payload : List Byte) (s : State) : Result :=
  .next (whenUp pllLanes s (telemetryTake s l h payload))

/-! Cameras and Mere. -/

/-- CAMERA_START_END. -/
def execCameraStartEnd (k : Fin 2) (r : CameraStart) (s : State) : Result := .next (whenUp pllPipeline s (cameraStarted s k r))
/-- CAMERA_CMD_ACK. -/
def execCameraCmdAck (k : Fin 2) (error : Bool) (v : Reg32) (s : State) : Result := .next (whenUp pllPipeline s (cameraAck s k error v))
/-- CAMERA_CMD_TIMEOUT. -/
def execCameraCmdTimeout (k : Fin 2) (s : State) : Result := .next (whenUp pllPipeline s (cameraTimeout s k))
/-- CAMERA_EVENT. -/
def execCameraEvent (k : Fin 2) (v : Nat) (s : State) : Result := .next (whenUp pllPipeline s (cameraEventPacket s k v))
/-- CAMERA_DOWN. -/
def execCameraDown (k : Fin 2) (s : State) : Result := .next (whenUp pllPipeline s (cameraLost s k))
/-- CAMERA_IMAGE. -/
def execCameraImage (k : Fin 2) (m : CameraPicture) (s : State) : Result := .next (whenUp pllPipeline s (cameraImage s k m))
/-- CAMERA_LINE_COMPARE: the next received line; `able` where Mere compares it, thermal skips apart. -/
def execCameraLineCompare (k : Fin 2) (able : Bool) (s : State) : Result := .next (whenUp pllPipeline s (compareLine s k able))
/-- DEFECT_EVENT. -/
def execDefectEvent (s : State) : Result := .next (whenUp pllPipeline s (defectEvent s))
/-- NOZZLE_DECISION: by reed8 + r. -/
def execNozzleDecision (r : Fin 4) (s : State) : Result := .next (whenUp pllPipeline s (nozzleDecision s (8 + r)))
/-- MAPSET_RETRY. -/
def execMapsetRetry (s : State) : Result := .next (whenUp pllPipeline s (mapsetRetry s))

end Sys2Proof.Machine
end

