-- ==== Sys2Proof/Machine/MemRows.lean ====
section
/-!
DEFINITION. The events of the memory controller (R316 to R339).
-/

namespace Sys2Proof.Machine

/-- TRAINING_STEP: a training step ends, and its stage where `stageEnds`. -/
def execTrainingStep (stageEnds : Bool) (s : State) : Result := .next (whenUp pllMemory s (trainingStep s stageEnds))
/-- TRAINING_DONE: what waited for SDRAM goes on. -/
def execTrainingDone (fails : List (Fin 4 × Fin 4)) (s : State) : Result := .next (whenUp pllMemory s (startDeferred (runLedgers (trainingDone s fails))))
/-- FREQ_CHANGE_DONE. -/
def execFreqChangeDone (s : State) : Result := .next (whenUp pllMemory s (startDeferred (freqDone s)))
/-- REFRESH of a rank. -/
def execRefresh (m i : Fin 4) (s : State) : Result := .next (whenUp pllMemory s (refreshRank s m i))
/-- MR4_POLL of a rank. -/
def execMr4Poll (m i : Fin 4) (doubled : Bool) (s : State) : Result := .next (whenUp pllMemory s (pollRank s m i doubled))
/-- SCRUB_READ: the next ECC word of a channel and what is found. -/
def execScrubRead (m : Fin 4) (find : EccFind) (s : State) : Result := .next (whenUp pllMemory s (scrubRead s m find))
/-- MIGRATION_PIECE: the next 4 KiB, with the words found uncorrectable. -/
def execMigrationPiece (m : Fin 4) (bad : List (Fin 64)) (s : State) : Result := .next (whenUp pllMemory s (migrationPiece s m bad))
/-- MIGRATION_DONE. -/
def execMigrationDone (m : Fin 4) (s : State) : Result := .next (whenUp pllMemory s (migrationDone s m))
/-- SELF_REFRESH_ENTRY. -/
def execSelfRefreshEntry (s : State) : Result := .next (whenUp pllMemory s (selfRefreshEnter s))
/-- SELF_REFRESH_EXIT. -/
def execSelfRefreshExit (s : State) : Result := .next (whenUp pllMemory s (selfRefreshExit s))

end Sys2Proof.Machine
end

