-- ==== Sys2Proof/Machine/PrintRows.lean ====
section
/-!
DEFINITION. The internal events of the print path and of band intake, from geometry validation to the Lode: each command
names the engine, channel, group or band whose next step is due, and leaves the state unchanged where none is.
-/

namespace Sys2Proof.Machine

/-! Geometry, Mire and bands (R40, R48 to R66). -/

/-- The outcome of a validation in progress; cameras and waiting FARMs then see it (R40, R41, R164). -/
def geoEnd (s : State) : State :=
  if getF s LDE.GEOSTAT_STATE = 1 then
    let s := geoFinish s
    runLedgers (if getF s LDE.GEOSTAT_STATE = 2 then recheckCameras s else s)
  else s

/-- GEO_VALIDATION_END. -/
def execGeoValidationEnd (s : State) : Result := .next (whenUp pllPipeline s (geoEnd s))
/-- BLOAD_WAIT_SERVED: the oldest waiting BLOAD or job. -/
def execBloadWaitServed (s : State) : Result := .next (whenUp pllPipeline s (serveWaiting s))
/-- PCIE_READ_COMPLETION: a read of a band's source, by its offset. -/
def execPcieReadCompletion (band off : Nat) (reply : HostReply) (s : State) : Result := .next (whenUp pllPcie s (readReturn s band off reply))
/-- BLOAD_COMPLETE. -/
def execBloadComplete (band : Nat) (s : State) : Result := .next (whenUp pllPipeline s (runLedgers (finishLoad s band)))
/-- MIRE_LOCK_END: with a lock, a ledger in recovery reads its rings (R289). -/
def execMireLockEnd (s : State) : Result :=
  .next (whenUp pllMemory s (if s.intake.locking then runLedgers (recoverLedger (lockEnd s)) else s))
/-- BAND_RELEASED_REPORT: reports of a function that its ring now has room for. -/
def execBandReleasedReport (f : Fin 8) (s : State) : Result :=
  .next (whenUp pllPcie s (if fnDisabled s f then s else writeReleases s f))
/-- INFLATE_LINE: the next line of an engine. -/
def execInflateLine (e : Fin 16) (s : State) : Result := .next (whenUp pllPipeline s (inflateLine s e))
/-- INFLATE_JOB_RESUME. -/
def execInflateJobResume (e : Fin 16) (s : State) : Result := .next (whenUp pllPipeline s (runLedgers (resumeEngine s e)))
/-- BAND_REFETCH_DONE: what the refetch's reads answer. -/
def execBandRefetchDone (band : Nat) (reply : HostReply) (s : State) : Result := .next (whenUp pllPcie s (runLedgers (refetchEnd s band reply)))
/-- BAND_BLOCK_SWAP. -/
def execBandBlockSwap (band : Nat) (s : State) : Result := .next (whenUp pllPipeline s (swapBlocks s band))
/-- SLUICE_JOB_COMPLETE: a job, by its operation. -/
def execSluiceJobComplete (key : Nat) (reply : HostReply) (s : State) : Result := .next (whenUp pllPipeline s (completeJob s key reply))

/-! Sedge, the limiter and the Hummock logic (R69 to R108). -/

/-- SEDGE_LINE_ENTRY: the next line of a channel. -/
def execSedgeLineEntry (c : Fin 8) (s : State) : Result := .next (whenUp pllPipeline s (sedgeEnter s c))
/-- LIMITER_LINE: the next line of a group whose channels all have it ready. -/
def execLimiterLine (g : Fin 4) (s : State) : Result := .next (whenUp pllPipeline s (limiterRun s g))
/-- SEDGE_LINE_EXIT: the oldest line of a channel. -/
def execSedgeLineExit (c : Fin 8) (s : State) : Result := .next (whenUp pllPipeline s (sedgeLeave s c))
/-- HUMMOCK_LINE_ENTRY: the oldest line that has left Sedge. -/
def execHummockLineEntry (c : Fin 8) (s : State) : Result := .next (whenUp pllPipeline s (hummockEnter s c))
/-- MAP_RELOAD_END. -/
def execMapReloadEnd (s : State) : Result := .next (whenUp pllPipeline s (runLedgers (reloadEnd s)))
/-- MAP_REBUILD_END. -/
def execMapRebuildEnd (s : State) : Result := .next (whenUp pllPipeline s (runLedgers (rebuildEnd s)))

/-! The hold and the Lode (R113, R121). -/

/-- HOLD_SEGMENT_ARRIVE: the next row segment of a channel. -/
def execHoldSegmentArrive (c : Fin 8) (s : State) : Result := .next (whenUp pllPipeline s (runLedgers (segmentArrive s c)))
/-- LODE_ADMIT: the next line of a channel. -/
def execLodeAdmit (c : Fin 8) (s : State) : Result := .next (whenUp pllPipeline s (lodeAdmit s c))

end Sys2Proof.Machine
end

