-- ==== Sys2Proof/Machine/RegRows.lean ====
section
/-!
DEFINITION. The commands that are register accesses of a host function: the general ones (R9, R11, R470), and those whose
register has a row of its own. Each writes or reads the register's home through the function's view.
-/

namespace Sys2Proof.Machine

/-! General accesses, by an offset in the function's BAR0. -/

/-- The completion of a function's read: what the register gives, or an Unsupported Request from D3hot. -/
def completeRead (s : State) (f : Nat) (r : Nat × State) : State :=
  send r.2 (.readDone f (if (fnOf s f).d3 then none else some (BitVec.ofNat 32 r.1)))

/-- REG_WRITE. -/
def execRegWrite (f : Fin 8) (off : Nat) (v : Reg32) (s : State) : Result :=
  .next (whenUp pllPcie s (if off % 4 = 0 then hostWrite32 s f off v else unsupported s))
/-- RC_READ. -/
def execRcRead (f : Fin 8) (off : Nat) (s : State) : Result :=
  .next (whenUp pllPcie s (if off % 4 = 0 then completeRead s f (hostRead s f off) else send (unsupported s) (.readDone f none)))
/-- PAIR_HI_WRITE. -/
def execPairHiWrite (f : Fin 8) (off : Nat) (v : Reg32) (s : State) : Result :=
  .next (whenUp pllPcie s (if off % 4 = 0 then hostWrite32 s f off v else unsupported s))
/-- PAIR_LO_READ. -/
def execPairLoRead (f : Fin 8) (off : Nat) (s : State) : Result :=
  .next (whenUp pllPcie s (if off % 4 = 0 then completeRead s f (hostRead s f off) else send (unsupported s) (.readDone f none)))
/-- UNSUPPORTED_REQUEST: a request that is not one aligned 32-bit access; a read completes without data. -/
def execUnsupportedRequest (f : Fin 8) (write : Bool) (off len : Nat) (s : State) : Result :=
  .next (whenUp pllPcie s (if (off % 4 = 0 ∧ len = 4) ∨ (off % 8 = 0 ∧ len = 8 ∧ (msixAt f off).isSome) then s
    else if write then unsupported s else send (unsupported s) (.readDone f none)))

/-! Registers of GLB, THM and SEC. -/

/-- PROFILE_CONFIRM: vdd is VDD_CORE in mV as the internal monitor finds it. -/
def execProfileConfirm (f : Fin 8) (v : Reg32) (vdd : Nat) (s : State) : Result :=
  .next (whenUp pllPcie s (hostRegWrite (setPower s { s.power with vdd := vdd }) f GLB.PROFILE.base v))
/-- SENSOR_RETIRE. -/
def execSensorRetire (f : Fin 8) (v : Reg32) (s : State) : Result := .next (whenUp pllPcie s (hostRegWrite s f THM.RETIRE_MASK.base v))
/-- THRESH_WRITE. -/
def execThreshWrite (f : Fin 8) (v : Reg32) (s : State) : Result := .next (whenUp pllPcie s (hostRegWrite s f THM.THRESH_WARN.base v))
/-- GLB_RST_WARM. -/
def execGlbRstWarm (f : Fin 8) (v : Reg32) (s : State) : Result := .next (whenUp pllPcie s (hostRegWrite s f GLB.RST.base v))
/-- RSTOUT_RELEASE. -/
def execRstoutRelease (f : Fin 8) (v : Reg32) (s : State) : Result := .next (whenUp pllPcie s (hostRegWrite s f GLB.RST.base v))
/-- BLOCK_SOFT_RESET. -/
def execBlockSoftReset (f : Fin 8) (v : Reg32) (s : State) : Result := .next (whenUp pllPcie s (hostRegWrite s f GLB.BRST.base v))
/-- DOWNLOAD_GO. -/
def execDownloadGo (f : Fin 8) (v : Reg32) (s : State) : Result := .next (whenUp pllPcie s (hostRegWrite s f SEC.DLCTL_GO.base v))
/-- FUSE_PROGRAM. -/
def execFuseProgram (f : Fin 8) (v : Reg32) (s : State) : Result := .next (whenUp pllPcie s (hostRegWrite s f SEC.FUSECTL_OP.base v))
/-- FUSE_REVOKE. -/
def execFuseRevoke (f : Fin 8) (v : Reg32) (s : State) : Result := .next (whenUp pllPcie s (hostRegWrite s f SEC.FUSECTL_OP.base v))
/-- DEBUG_CHALLENGE. -/
def execDebugChallenge (f : Fin 8) (v : Reg32) (s : State) : Result := .next (whenUp pllPcie s (hostRegWrite s f SEC.DBGCTL_CHAL.base v))
/-- DEBUG_SUBMIT. -/
def execDebugSubmit (f : Fin 8) (v : Reg32) (s : State) : Result := .next (whenUp pllPcie s (hostRegWrite s f SEC.DBGCTL_CHAL.base v))

/-! Registers of RDC, LDG and TWN. -/

/-- IMAGE_LOAD. -/
def execImageLoad (f : Fin 8) (v : Reg32) (n : Fin 32) (s : State) : Result := .next (whenUp pllPcie s (hostRegWrite s f (RDC.CTL_LOAD.off n) v))
/-- MIRROR_ENABLE. -/
def execMirrorEnable (f : Fin 8) (v : Reg32) (g : Fin 4) (s : State) : Result := .next (whenUp pllPcie s (hostRegWrite s f (LDG.MIRCFG_EN.off g) v))
/-- MIRROR_DISABLE. -/
def execMirrorDisable (f : Fin 8) (v : Reg32) (g : Fin 4) (s : State) : Result := .next (whenUp pllPcie s (hostRegWrite s f (LDG.MIRCFG_EN.off g) v))
/-- LEDGER_SEED: the write of NEXTFSN_HI. -/
def execLedgerSeed (f : Fin 8) (v : Reg32) (g : Fin 4) (s : State) : Result :=
  .next (whenUp pllPcie s (hostRegWrite s f (LDG.NEXTFSN.base + 8 * g + 4) v))
/-- LEDGER_RESOLVE. -/
def execLedgerResolve (f : Fin 8) (v : Reg32) (g : Fin 4) (s : State) : Result :=
  .next (whenUp pllPcie s (hostRegWrite s f (LDG.RESOLVE_GO.off g) v))
/-- TWIN_PAIR. -/
def execTwinPair (f : Fin 8) (v : Reg32) (s : State) : Result := .next (whenUp pllPcie s (hostRegWrite s f TWN.CTL.base v))
/-- TWIN_REJOIN. -/
def execTwinRejoin (f : Fin 8) (v : Reg32) (s : State) : Result := .next (whenUp pllPcie s (hostRegWrite s f TWN.CTL.base v))
/-- PARTNER_RESET. -/
def execPartnerReset (f : Fin 8) (v : Reg32) (s : State) : Result := .next (whenUp pllPcie s (hostRegWrite s f TWN.CTL.base v))

/-! Registers of the print path. -/

/-- HTIDX_WRITE. -/
def execHtidxWrite (f : Fin 8) (v : Reg32) (s : State) : Result := .next (whenUp pllPcie s (hostRegWrite s f LDE.HTIDX.base v))
/-- HTIDX_READ. -/
def execHtidxRead (f : Fin 8) (v : Reg32) (s : State) : Result := .next (whenUp pllPcie s (hostRegWrite s f LDE.HTIDX.base v))
/-- GEO_VALIDATE_START. -/
def execGeoValidateStart (f : Fin 8) (v : Reg32) (s : State) : Result := .next (whenUp pllPcie s (hostRegWrite s f LDE.GEOCTL.base v))
/-- MIRE_LOCK. -/
def execMireLock (f : Fin 8) (v : Reg32) (s : State) : Result := .next (whenUp pllPcie s (hostRegWrite s f SLC.MIRECTL_LOCK.base v))
/-- MIRE_UNLOCK. -/
def execMireUnlock (f : Fin 8) (v : Reg32) (s : State) : Result := .next (whenUp pllPcie s (hostRegWrite s f SLC.MIRECTL_LOCK.base v))
/-- MAP_RELOAD. -/
def execMapReload (f : Fin 8) (v : Reg32) (s : State) : Result := .next (whenUp pllPcie s (hostRegWrite s f HMK.RELOAD.base v))
/-- HUB_ENABLE. -/
def execHubEnable (f : Fin 8) (v : Reg32) (h : Fin 40) (s : State) : Result := .next (whenUp pllPcie s (hostRegWrite s f (DLK.HUBCTL_EN.off h) v))
/-- HUB_DISABLE. -/
def execHubDisable (f : Fin 8) (v : Reg32) (h : Fin 40) (s : State) : Result := .next (whenUp pllPcie s (hostRegWrite s f (DLK.HUBCTL_EN.off h) v))
/-- HUB_RESTART. -/
def execHubRestart (f : Fin 8) (v : Reg32) (h : Fin 40) (s : State) : Result := .next (whenUp pllPcie s (hostRegWrite s f (DLK.HUBCTL_EN.off h) v))
/-- CAMERA_ENABLE. -/
def execCameraEnable (f : Fin 8) (v : Reg32) (k : Fin 2) (s : State) : Result := .next (whenUp pllPcie s (hostRegWrite s f (MER.CAMCFG_EN.off k) v))
/-- CAMERA_DISABLE. -/
def execCameraDisable (f : Fin 8) (v : Reg32) (k : Fin 2) (s : State) : Result := .next (whenUp pllPcie s (hostRegWrite s f (MER.CAMCFG_EN.off k) v))
/-- CAMERA_CMD_GO. -/
def execCameraCmdGo (f : Fin 8) (v : Reg32) (k : Fin 2) (s : State) : Result := .next (whenUp pllPcie s (hostRegWrite s f (MER.CCCTL.off k) v))

/-! Registers of the host interface. -/

/-- SQ_DOORBELL, by the function that owns the queue. -/
def execSqDoorbell (q : Fin 64) (v : Reg32) (s : State) : Result :=
  .next (whenUp pllPcie s (hostRegWrite s (queueFn s q) (PCI.SQDB_INDEX.off q) v))
/-- CQ_DOORBELL, by the function that owns the queue. -/
def execCqDoorbell (q : Fin 64) (v : Reg32) (s : State) : Result :=
  .next (whenUp pllPcie s (hostRegWrite s (queueFn s q) (PCI.CQDB_INDEX.off q) v))
/-- QUEUE_ENABLE. -/
def execQueueEnable (f : Fin 8) (q : Fin 64) (v : Reg32) (s : State) : Result := .next (whenUp pllPcie s (hostRegWrite s f (PCI.QCFG_EN.off q) v))
/-- QUEUE_DISABLE. -/
def execQueueDisable (f : Fin 8) (q : Fin 64) (v : Reg32) (s : State) : Result := .next (whenUp pllPcie s (hostRegWrite s f (PCI.QCFG_EN.off q) v))
/-- QUEUE_RESUME: a write of 1 to RESUME. -/
def execQueueResume (f : Fin 8) (q : Fin 64) (s : State) : Result := .next (whenUp pllPcie s (hostRegWrite s f (PCI.QCTL_RESUME.off q) 1))
/-- EVENT_RING_ENABLE. -/
def execEventRingEnable (f : Fin 8) (v : Reg32) (s : State) : Result := .next (whenUp pllPcie s (hostRegWrite s f (PCI.EVCFG_EN.off f) v))
/-- EVTAIL_WRITE. -/
def execEvtailWrite (f : Fin 8) (v : Reg32) (s : State) : Result := .next (whenUp pllPcie s (hostRegWrite s f (PCI.EVTAIL.off f) v))
/-- MSIX_UNMASK: a write of 0 to the vector's control word. -/
def execMsixUnmask (f : Fin 8) (vec : Fin 256) (s : State) : Result := .next (whenUp pllPcie s (hostWrite32 s f (msixBase f + 16 * vec + 12) 0))

/-! Registers of memory, lanes and time. -/

/-- MEM_START. -/
def execMemStart (f : Fin 8) (v : Reg32) (s : State) : Result := .next (whenUp pllPcie s (hostRegWrite s f MEM.CTL_START.base v))
/-- FREQ_REQUEST. -/
def execFreqRequest (f : Fin 8) (v : Reg32) (s : State) : Result := .next (whenUp pllPcie s (hostRegWrite s f MEM.FREQ_REQ.base v))
/-- QUAD_ENABLE. -/
def execQuadEnable (f : Fin 8) (v : Reg32) (q : Fin 12) (s : State) : Result := .next (whenUp pllPcie s (hostRegWrite s f (LAN.QCFG_EN.off q) v))
/-- QUAD_RATE_WRITE. -/
def execQuadRateWrite (f : Fin 8) (v : Reg32) (q : Fin 12) (s : State) : Result := .next (whenUp pllPcie s (hostRegWrite s f (LAN.QRATE.off q) v))
/-- LANE_ENABLE. -/
def execLaneEnable (f : Fin 8) (v : Reg32) (l : Fin 48) (s : State) : Result := .next (whenUp pllPcie s (hostRegWrite s f (LAN.LCFG_EN.off l) v))
/-- EYE_SCAN. -/
def execEyeScan (f : Fin 8) (v : Reg32) (l : Fin 48) (s : State) : Result := .next (whenUp pllPcie s (hostRegWrite s f (LAN.EYECTL_GO.off l) v))
/-- PRBS_CLEAR. -/
def execPrbsClear (f : Fin 8) (v : Reg32) (l : Fin 48) (s : State) : Result := .next (whenUp pllPcie s (hostRegWrite s f (LAN.PRBSCFG_CLR.off l) v))
/-- TIME_ACQ. -/
def execTimeAcq (f : Fin 8) (v : Reg32) (d : Fin 2) (s : State) : Result := .next (whenUp pllPcie s (hostRegWrite s f (TIM.TDCTL_ACQ.off d) v))
/-- DOMAIN_STEP: the write of TIM.STEP_HI. -/
def execDomainStep (f : Fin 8) (v : Reg32) (d : Fin 2) (s : State) : Result := .next (whenUp pllPcie s (hostRegWrite s f (TIM.STEP.base + 8 * d + 4) v))
/-- DOMAIN_RATE: the write of TIM.RATE_HI. -/
def execDomainRate (f : Fin 8) (v : Reg32) (d : Fin 2) (s : State) : Result := .next (whenUp pllPcie s (hostRegWrite s f (TIM.RATE.base + 8 * d + 4) v))
/-- WORK_SELECT. -/
def execWorkSelect (f : Fin 8) (v : Reg32) (s : State) : Result := .next (whenUp pllPcie s (hostRegWrite s f TIM.WORK_SEL.base v))
/-- TIME_SNAP. -/
def execTimeSnap (f : Fin 8) (v : Reg32) (s : State) : Result := .next (whenUp pllPcie s (hostRegWrite s f TIM.SNAP_GO.base v))
/-- TOUT_MODE_WRITE. -/
def execToutModeWrite (f : Fin 8) (v : Reg32) (o : Fin 16) (s : State) : Result := .next (whenUp pllPcie s (hostRegWrite s f (TIM.TOCFG_MODE.off o) v))
/-- TIN_POP. -/
def execTinPop (f : Fin 8) (v : Reg32) (i : Fin 8) (s : State) : Result := .next (whenUp pllPcie s (hostRegWrite s f (TIM.TINCFG_POP.off i) v))

/-! Registers of feedback, motion and the sensor ports. -/

/-- ENC_ENABLE. -/
def execEncEnable (f : Fin 8) (v : Reg32) (c : Fin 12) (s : State) : Result := .next (whenUp pllPcie s (hostRegWrite s f (ENC.CFG_EN.off c) v))
/-- ENC_CLEAR. -/
def execEncClear (f : Fin 8) (v : Reg32) (c : Fin 12) (s : State) : Result := .next (whenUp pllPcie s (hostRegWrite s f (ENC.CTL_CLR.off c) v))
/-- ENC_POS_READ: the read of ENC.POS_LO. -/
def execEncPosRead (f : Fin 8) (c : Fin 12) (s : State) : Result :=
  .next (whenUp pllPcie s (completeRead s f (hostRegRead s f (ENC.POS.base + 8 * c))))
/-- LTG_ENABLE. -/
def execLtgEnable (f : Fin 8) (v : Reg32) (j : Fin 8) (s : State) : Result := .next (whenUp pllPcie s (hostRegWrite s f (ENC.LTGCFG_EN.off j) v))
/-- LTG_DISABLE. -/
def execLtgDisable (f : Fin 8) (v : Reg32) (j : Fin 8) (s : State) : Result := .next (whenUp pllPcie s (hostRegWrite s f (ENC.LTGCFG_EN.off j) v))
/-- AXIS_HALT. -/
def execAxisHalt (f : Fin 8) (v : Reg32) (n : Fin 16) (s : State) : Result := .next (whenUp pllPcie s (hostRegWrite s f (AXS.CTL_HALT.off n) v))
/-- AXIS_SETPOS. -/
def execAxisSetpos (f : Fin 8) (v : Reg32) (n : Fin 16) (s : State) : Result := .next (whenUp pllPcie s (hostRegWrite s f (AXS.CTL_HALT.off n) v))
/-- AXIS_CLEAR. -/
def execAxisClear (f : Fin 8) (v : Reg32) (n : Fin 16) (s : State) : Result := .next (whenUp pllPcie s (hostRegWrite s f (AXS.CTL_HALT.off n) v))
/-- TABLE_WRITE. -/
def execTableWrite (f : Fin 8) (v : Reg32) (s : State) : Result := .next (whenUp pllPcie s (hostRegWrite s f AXS.TBLIDX_ENTRY.base v))
/-- TABLE_READ. -/
def execTableRead (f : Fin 8) (v : Reg32) (s : State) : Result := .next (whenUp pllPcie s (hostRegWrite s f AXS.TBLIDX_ENTRY.base v))
/-- INJECTION_START. -/
def execInjectionStart (f : Fin 8) (v : Reg32) (l : Fin 24) (s : State) : Result := .next (whenUp pllPcie s (hostRegWrite s f (LOP.INJ_GO.off l) v))
/-- CAPTURE_ABORT. -/
def execCaptureAbort (f : Fin 8) (v : Reg32) (k : Fin 2) (s : State) : Result := .next (whenUp pllPcie s (hostRegWrite s f (LOP.CAPCTL_ABORT.off k) v))
/-- SENSOR_CLEAR. -/
def execSensorClear (f : Fin 8) (v : Reg32) (p : Fin 8) (s : State) : Result := .next (whenUp pllPcie s (hostRegWrite s f (SNS.CTL_CLR.off p) v))

/-- I2C_TRANSACTION: a transaction of the management port. -/
def execI2cTransaction (op : I2cOp) (s : State) : Result := .next (showPlls (i2cAccess s op))

end Sys2Proof.Machine
end

