-- ==== Sys2Proof/Machine/TwinRows.lean ====
section
/-!
DEFINITION. The messages of the twin link, and the timers of the twin protocol (R294 to R314). A message carries its TSEQ
and TACK; one out of order is not applied (R296).
-/

namespace Sys2Proof.Machine

/-- What follows a change of the ledger or of a trigger: ledgers go on, and cores that wait for a line wake. -/
def afterTwin (s : State) : State := wakeWaits (runLedgers s)

/-- HELLO: starts the sequence numbers anew. -/
def execHello (tseq tack : Nat) (unit preferred profile id claim : Nat) (settings : List Nat) (printing : Bool) (s : State) : Result :=
  .next (whenUp pllControl s (afterTwin (twinReceive s tseq tack true (fun s => takeHello s unit preferred profile id claim settings printing))))
/-- HEARTBEAT. -/
def execHeartbeat (tseq tack claim state : Nat) (s : State) : Result :=
  .next (whenUp pllControl s (afterTwin (twinReceive s tseq tack false (fun s => takeHeartbeat s claim state))))
/-- TWIN_TRIG_RECEIVED: group, trigger and Tm. -/
def execTwinTrigReceived (tseq tack group n tm : Nat) (s : State) : Result :=
  .next (whenUp pllControl s (afterTwin (twinReceive s tseq tack false (fun s => takeTwinTrigger s group n tm))))
/-- RECORD. -/
def execRecord (tseq tack : Nat) (record : List Byte) (s : State) : Result :=
  .next (whenUp pllControl s (afterTwin (twinReceive s tseq tack false (fun s => takeRecord s record))))
/-- RING_ACK. -/
def execRingAck (tseq tack group fsn : Nat) (s : State) : Result :=
  .next (whenUp pllControl s (afterTwin (twinReceive s tseq tack false (fun s => takeRingAck s group fsn))))
/-- CHANGE. -/
def execChange (tseq tack : Nat) (key : TwinKey) (desc : List Byte) (ge : Nat) (s : State) : Result :=
  .next (whenUp pllControl s (afterTwin (twinReceive s tseq tack false (fun s => takeChange s key desc ge))))
/-- RESULT. -/
def execResult (tseq tack : Nat) (key : TwinKey) (code value : Word) (geohash tabsum : Nat) (s : State) : Result :=
  .next (whenUp pllControl s (afterTwin (twinReceive s tseq tack false (fun s => takeResult s key code value geohash tabsum))))
/-- TWIN_ENTRY. -/
def execTwinEntry (tseq tack queue qseq blockCrc argCrc : Nat) (s : State) : Result :=
  .next (whenUp pllControl s (afterTwin (twinReceive s tseq tack false (fun s => takeEntryHash s queue qseq blockCrc argCrc))))
/-- HUBPOINT. -/
def execHubpoint (tseq tack hub : Nat) (points : List PointEntry) (reports : List ReportEntry) (s : State) : Result :=
  .next (whenUp pllControl s (afterTwin (twinReceive s tseq tack false (fun s => takeHubpoint s hub points reports))))
/-- RESYNC. -/
def execResync (tseq tack : Nat) (answer : Bool) (trigger : Nat) (streams : List (Nat × Nat)) (s : State) : Result :=
  .next (whenUp pllControl s (afterTwin (twinReceive s tseq tack false (fun s => takeResync s answer trigger streams))))
/-- DIVERGE. -/
def execDiverge (tseq tack cause detail : Nat) (s : State) : Result :=
  .next (whenUp pllControl s (afterTwin (twinReceive s tseq tack false (fun s => takeDiverge s cause detail))))
/-- STATE_COPY. -/
def execStateCopy (tseq tack : Nat) (part : CopyPart) (s : State) : Result :=
  .next (whenUp pllControl s (afterTwin (twinReceive s tseq tack false (fun s => takeCopy s part))))
/-- REQUEST. -/
def execRequest (tseq tack : Nat) (key : TwinKey) (desc : List Byte) (s : State) : Result :=
  .next (whenUp pllControl s (afterTwin (twinReceive s tseq tack false (fun s => takeRequest s key desc))))

/-- TWIN_MESSAGE_RESEND. -/
def execTwinMessageResend (tseq : Nat) (s : State) : Result := .next (whenUp pllControl s (twinResend s tseq))
/-- HEARTBEAT_SEND. -/
def execHeartbeatSend (s : State) : Result := .next (whenUp pllControl s (heartbeatSend s))
/-- HB_WORD_SEND. -/
def execHbWordSend (s : State) : Result := .next (whenUp pllControl s (hbWordSend s))
/-- HB_WORD_RECEIVED; the edges of HB_RX are a wake source of deep sleep (R417). -/
def execHbWordReceived (w : Word) (s : State) : Result := .next (whenUp pllControl s (afterTwin (hbWordTake (deepWake s 3) w.toNat)))
/-- PARTNER_LOST. -/
def execPartnerLost (s : State) : Result := .next (whenUp pllControl s (afterTwin (partnerLost s)))
/-- PATH_SILENT: the twin link, or the backup pair. -/
def execPathSilent (link : Bool) (s : State) : Result := .next (whenUp pllControl s (pathSilent s link))
/-- QUORUM_RETRY. -/
def execQuorumRetry (s : State) : Result := .next (whenUp pllControl s (afterTwin (quorumRetry s)))
/-- TRIG_FALLBACK. -/
def execTrigFallback (g : Fin 4) (s : State) : Result := .next (whenUp pllControl s (afterTwin (triggerFallback s g)))
/-- MATCH_TIMEOUT: an operation that awaits its RESULT. -/
def execMatchTimeout (key : Nat) (s : State) : Result := .next (whenUp pllControl s (matchTimeout s key))
/-- PAIRING_TIMEOUT. -/
def execPairingTimeout (s : State) : Result := .next (whenUp pllControl s (afterTwin (pairingTimeout s)))

end Sys2Proof.Machine
end

