-- ==== Sys2Proof/Machine/Dispatch.lean ====
section
/-!
DEFINITION. exec: one arm per command, in the opcode table's order, each one direct call of the command's meaning.
-/

namespace Sys2Proof.Machine

def exec (i : Instr) (s : State) : Host.Outcome State Fault Refusal :=
  match i with
  | .regWrite f off v => Sys2Proof.Machine.execRegWrite f off v s
  | .rcRead f off => Sys2Proof.Machine.execRcRead f off s
  | .pairHiWrite f off v => Sys2Proof.Machine.execPairHiWrite f off v s
  | .pairLoRead f off => Sys2Proof.Machine.execPairLoRead f off s
  | .unsupportedRequest f write off len => Sys2Proof.Machine.execUnsupportedRequest f write off len s
  | .profileConfirm f v vdd => Sys2Proof.Machine.execProfileConfirm f v vdd s
  | .htidxWrite f v => Sys2Proof.Machine.execHtidxWrite f v s
  | .htidxRead f v => Sys2Proof.Machine.execHtidxRead f v s
  | .geoValidateStart f v => Sys2Proof.Machine.execGeoValidateStart f v s
  | .geoValidationEnd => Sys2Proof.Machine.execGeoValidationEnd s
  | .bload c rd ra rb reply => Sys2Proof.Machine.execBload c rd ra rb reply s
  | .bloadWaitServed => Sys2Proof.Machine.execBloadWaitServed s
  | .pcieReadCompletion band off reply => Sys2Proof.Machine.execPcieReadCompletion band off reply s
  | .bloadComplete band => Sys2Proof.Machine.execBloadComplete band s
  | .mireLock f v => Sys2Proof.Machine.execMireLock f v s
  | .mireLockEnd => Sys2Proof.Machine.execMireLockEnd s
  | .mireUnlock f v => Sys2Proof.Machine.execMireUnlock f v s
  | .bandReleasedReport f => Sys2Proof.Machine.execBandReleasedReport f s
  | .inflateLine e => Sys2Proof.Machine.execInflateLine e s
  | .inflateJobResume e => Sys2Proof.Machine.execInflateJobResume e s
  | .bandRefetchDone band reply => Sys2Proof.Machine.execBandRefetchDone band reply s
  | .bandBlockSwap band => Sys2Proof.Machine.execBandBlockSwap band s
  | .sluiceJobComplete key reply => Sys2Proof.Machine.execSluiceJobComplete key reply s
  | .sedgeLineEntry c => Sys2Proof.Machine.execSedgeLineEntry c s
  | .limiterLine g => Sys2Proof.Machine.execLimiterLine g s
  | .sedgeLineExit c => Sys2Proof.Machine.execSedgeLineExit c s
  | .hummockLineEntry c => Sys2Proof.Machine.execHummockLineEntry c s
  | .mapReload f v => Sys2Proof.Machine.execMapReload f v s
  | .mapReloadEnd => Sys2Proof.Machine.execMapReloadEnd s
  | .mapRebuildEnd => Sys2Proof.Machine.execMapRebuildEnd s
  | .holdSegmentArrive c => Sys2Proof.Machine.execHoldSegmentArrive c s
  | .lodeAdmit c => Sys2Proof.Machine.execLodeAdmit c s
  | .encTransition c levels => Sys2Proof.Machine.execEncTransition c levels s
  | .linkFrameSend h => Sys2Proof.Machine.execLinkFrameSend h s
  | .upstreamFrameDiscard l => Sys2Proof.Machine.execUpstreamFrameDiscard l s
  | .ackReceived l h claim payload => Sys2Proof.Machine.execAckReceived l h claim payload s
  | .nakReceived l h payload => Sys2Proof.Machine.execNakReceived l h payload s
  | .ctrlResponse l h sequence payload => Sys2Proof.Machine.execCtrlResponse l h sequence payload s
  | .timeResponse l h k t3ns t3frac payload => Sys2Proof.Machine.execTimeResponse l h k t3ns t3frac payload s
  | .syncIdleReceived l h crcOk payload => Sys2Proof.Machine.execSyncIdleReceived l h crcOk payload s
  | .claimSend => Sys2Proof.Machine.execClaimSend s
  | .timeSend => Sys2Proof.Machine.execTimeSend s
  | .syncIdleSend l => Sys2Proof.Machine.execSyncIdleSend l s
  | .ackTimeout h => Sys2Proof.Machine.execAckTimeout h s
  | .laneRemoval h pos => Sys2Proof.Machine.execLaneRemoval h pos s
  | .laneRejoin h pos => Sys2Proof.Machine.execLaneRejoin h pos s
  | .hubEnable f v h => Sys2Proof.Machine.execHubEnable f v h s
  | .hubDisable f v h => Sys2Proof.Machine.execHubDisable f v h s
  | .hubRestart f v h => Sys2Proof.Machine.execHubRestart f v h s
  | .hubConfigStart h => Sys2Proof.Machine.execHubConfigStart h s
  | .hubSilenceDown h => Sys2Proof.Machine.execHubSilenceDown h s
  | .ctrlTimeout h sequence => Sys2Proof.Machine.execCtrlTimeout h sequence s
  | .cameraEnable f v k => Sys2Proof.Machine.execCameraEnable f v k s
  | .cameraDisable f v k => Sys2Proof.Machine.execCameraDisable f v k s
  | .cameraStartEnd k r => Sys2Proof.Machine.execCameraStartEnd k r s
  | .cameraCmdGo f v k => Sys2Proof.Machine.execCameraCmdGo f v k s
  | .cameraCmdAck k error v => Sys2Proof.Machine.execCameraCmdAck k error v s
  | .cameraCmdTimeout k => Sys2Proof.Machine.execCameraCmdTimeout k s
  | .cameraEvent k v => Sys2Proof.Machine.execCameraEvent k v s
  | .cameraDown k => Sys2Proof.Machine.execCameraDown k s
  | .cameraImage k m => Sys2Proof.Machine.execCameraImage k m s
  | .cameraLineCompare k able => Sys2Proof.Machine.execCameraLineCompare k able s
  | .defectEvent => Sys2Proof.Machine.execDefectEvent s
  | .nozzleDecision r => Sys2Proof.Machine.execNozzleDecision r s
  | .mapsetRetry => Sys2Proof.Machine.execMapsetRetry s
  | .add c rd ra rb => Sys2Proof.Machine.execAdd c rd ra rb s
  | .sub c rd ra rb => Sys2Proof.Machine.execSub c rd ra rb s
  | .and c rd ra rb => Sys2Proof.Machine.execAnd c rd ra rb s
  | .or c rd ra rb => Sys2Proof.Machine.execOr c rd ra rb s
  | .xor c rd ra rb => Sys2Proof.Machine.execXor c rd ra rb s
  | .sll c rd ra rb => Sys2Proof.Machine.execSll c rd ra rb s
  | .srl c rd ra rb => Sys2Proof.Machine.execSrl c rd ra rb s
  | .sra c rd ra rb => Sys2Proof.Machine.execSra c rd ra rb s
  | .slt c rd ra rb => Sys2Proof.Machine.execSlt c rd ra rb s
  | .sltu c rd ra rb => Sys2Proof.Machine.execSltu c rd ra rb s
  | .mul c rd ra rb => Sys2Proof.Machine.execMul c rd ra rb s
  | .mulh c rd ra rb => Sys2Proof.Machine.execMulh c rd ra rb s
  | .mulhu c rd ra rb => Sys2Proof.Machine.execMulhu c rd ra rb s
  | .div c rd ra rb => Sys2Proof.Machine.execDiv c rd ra rb s
  | .divu c rd ra rb => Sys2Proof.Machine.execDivu c rd ra rb s
  | .rem c rd ra rb => Sys2Proof.Machine.execRem c rd ra rb s
  | .remu c rd ra rb => Sys2Proof.Machine.execRemu c rd ra rb s
  | .adds c rd ra rb => Sys2Proof.Machine.execAdds c rd ra rb s
  | .subs c rd ra rb => Sys2Proof.Machine.execSubs c rd ra rb s
  | .addv c rd ra rb => Sys2Proof.Machine.execAddv c rd ra rb s
  | .subv c rd ra rb => Sys2Proof.Machine.execSubv c rd ra rb s
  | .mulv c rd ra rb => Sys2Proof.Machine.execMulv c rd ra rb s
  | .min c rd ra rb => Sys2Proof.Machine.execMin c rd ra rb s
  | .max c rd ra rb => Sys2Proof.Machine.execMax c rd ra rb s
  | .minu c rd ra rb => Sys2Proof.Machine.execMinu c rd ra rb s
  | .maxu c rd ra rb => Sys2Proof.Machine.execMaxu c rd ra rb s
  | .clz c rd ra => Sys2Proof.Machine.execClz c rd ra s
  | .ctz c rd ra => Sys2Proof.Machine.execCtz c rd ra s
  | .popc c rd ra => Sys2Proof.Machine.execPopc c rd ra s
  | .addi c rd ra imm => Sys2Proof.Machine.execAddi c rd ra imm s
  | .andi c rd ra imm => Sys2Proof.Machine.execAndi c rd ra imm s
  | .ori c rd ra imm => Sys2Proof.Machine.execOri c rd ra imm s
  | .xori c rd ra imm => Sys2Proof.Machine.execXori c rd ra imm s
  | .shori c rd ra imm => Sys2Proof.Machine.execShori c rd ra imm s
  | .slti c rd ra imm => Sys2Proof.Machine.execSlti c rd ra imm s
  | .sltiu c rd ra imm => Sys2Proof.Machine.execSltiu c rd ra imm s
  | .shiLeft c rd ra sh => Sys2Proof.Machine.execShiLeft c rd ra sh s
  | .shiRightLogical c rd ra sh => Sys2Proof.Machine.execShiRightLogical c rd ra sh s
  | .shiRightArith c rd ra sh => Sys2Proof.Machine.execShiRightArith c rd ra sh s
  | .shiRotate c rd ra sh => Sys2Proof.Machine.execShiRotate c rd ra sh s
  | .lb c rd ra imm => Sys2Proof.Machine.execLb c rd ra imm s
  | .lbu c rd ra imm => Sys2Proof.Machine.execLbu c rd ra imm s
  | .lh c rd ra imm => Sys2Proof.Machine.execLh c rd ra imm s
  | .lhu c rd ra imm => Sys2Proof.Machine.execLhu c rd ra imm s
  | .lw c rd ra imm => Sys2Proof.Machine.execLw c rd ra imm s
  | .lwu c rd ra imm => Sys2Proof.Machine.execLwu c rd ra imm s
  | .ld c rd ra imm => Sys2Proof.Machine.execLd c rd ra imm s
  | .sb c rd ra imm => Sys2Proof.Machine.execSb c rd ra imm s
  | .sh c rd ra imm => Sys2Proof.Machine.execSh c rd ra imm s
  | .sw c rd ra imm => Sys2Proof.Machine.execSw c rd ra imm s
  | .sd c rd ra imm => Sys2Proof.Machine.execSd c rd ra imm s
  | .hostReadReturn c reply => Sys2Proof.Machine.execHostReadReturn c reply s
  | .amoSwap c rd ra rb wide aq rl => Sys2Proof.Machine.execAmoSwap c rd ra rb wide aq rl s
  | .amoAdd c rd ra rb wide aq rl => Sys2Proof.Machine.execAmoAdd c rd ra rb wide aq rl s
  | .amoAnd c rd ra rb wide aq rl => Sys2Proof.Machine.execAmoAnd c rd ra rb wide aq rl s
  | .amoOr c rd ra rb wide aq rl => Sys2Proof.Machine.execAmoOr c rd ra rb wide aq rl s
  | .amoXor c rd ra rb wide aq rl => Sys2Proof.Machine.execAmoXor c rd ra rb wide aq rl s
  | .amoMin c rd ra rb wide aq rl => Sys2Proof.Machine.execAmoMin c rd ra rb wide aq rl s
  | .amoMax c rd ra rb wide aq rl => Sys2Proof.Machine.execAmoMax c rd ra rb wide aq rl s
  | .amoMinu c rd ra rb wide aq rl => Sys2Proof.Machine.execAmoMinu c rd ra rb wide aq rl s
  | .amoMaxu c rd ra rb wide aq rl => Sys2Proof.Machine.execAmoMaxu c rd ra rb wide aq rl s
  | .amoCas c rd ra rb wide aq rl => Sys2Proof.Machine.execAmoCas c rd ra rb wide aq rl s
  | .beq c ra rb off => Sys2Proof.Machine.execBeq c ra rb off s
  | .bne c ra rb off => Sys2Proof.Machine.execBne c ra rb off s
  | .blt c ra rb off => Sys2Proof.Machine.execBlt c ra rb off s
  | .bge c ra rb off => Sys2Proof.Machine.execBge c ra rb off s
  | .bltu c ra rb off => Sys2Proof.Machine.execBltu c ra rb off s
  | .bgeu c ra rb off => Sys2Proof.Machine.execBgeu c ra rb off s
  | .j c off => Sys2Proof.Machine.execJ c off s
  | .jal c off => Sys2Proof.Machine.execJal c off s
  | .jalr c rd ra => Sys2Proof.Machine.execJalr c rd ra s
  | .mfs c rd sr => Sys2Proof.Machine.execMfs c rd sr s
  | .mts c ra sr => Sys2Proof.Machine.execMts c ra sr s
  | .fence c kind => Sys2Proof.Machine.execFence c kind s
  | .yield c => Sys2Proof.Machine.execYield c s
  | .wfe c ra => Sys2Proof.Machine.execWfe c ra s
  | .wfeWake c => Sys2Proof.Machine.execWfeWake c s
  | .brk c code => Sys2Proof.Machine.execBrk c code s
  | .exit c ra => Sys2Proof.Machine.execExit c ra s
  | .exitComplete c => Sys2Proof.Machine.execExitComplete c s
  | .reservedOpcode c w => Sys2Proof.Machine.execReservedOpcode c w s
  | .reedTimerExpire n => Sys2Proof.Machine.execReedTimerExpire n s
  | .imageLoad f v n => Sys2Proof.Machine.execImageLoad f v n s
  | .imageLoadEnd n reply => Sys2Proof.Machine.execImageLoadEnd n reply s
  | .reedRun n run => Sys2Proof.Machine.execReedRun n run s
  | .reedDoorbell n => Sys2Proof.Machine.execReedDoorbell n s
  | .debugHalt c => Sys2Proof.Machine.execDebugHalt c s
  | .debugResume c => Sys2Proof.Machine.execDebugResume c s
  | .debugStep c => Sys2Proof.Machine.execDebugStep c s
  | .dbgdataWrite c v => Sys2Proof.Machine.execDbgdataWrite c v s
  | .breakpointHalt c => Sys2Proof.Machine.execBreakpointHalt c s
  | .threadClear t => Sys2Proof.Machine.execThreadClear t s
  | .faccept c rd ra rb reply => Sys2Proof.Machine.execFaccept c rd ra rb reply s
  | .facceptDurable g fsn reply => Sys2Proof.Machine.execFacceptDurable g fsn reply s
  | .bstage c rd ra rb reply => Sys2Proof.Machine.execBstage c rd ra rb reply s
  | .farmPosition c rd ra rb reply => Sys2Proof.Machine.execFarmPosition c rd ra rb reply s
  | .farmFollow c rd ra rb reply => Sys2Proof.Machine.execFarmFollow c rd ra rb reply s
  | .farmWithdraw c rd ra rb reply => Sys2Proof.Machine.execFarmWithdraw c rd ra rb reply s
  | .waitpos c rd ra rb => Sys2Proof.Machine.execWaitpos c rd ra rb s
  | .waitposTimeout c => Sys2Proof.Machine.execWaitposTimeout c s
  | .waittime c rd ra rb => Sys2Proof.Machine.execWaittime c rd ra rb s
  | .waittimeReturn c => Sys2Proof.Machine.execWaittimeReturn c s
  | .waittag c rd ra rb => Sys2Proof.Machine.execWaittag c rd ra rb s
  | .issueSluiceInflate c rd ra rb reply => Sys2Proof.Machine.execIssueSluiceInflate c rd ra rb reply s
  | .issueSluiceDeflate c rd ra rb reply => Sys2Proof.Machine.execIssueSluiceDeflate c rd ra rb reply s
  | .issueDictLoad c rd ra rb reply => Sys2Proof.Machine.execIssueDictLoad c rd ra rb reply s
  | .issueStrip c rd ra rb reply => Sys2Proof.Machine.execIssueStrip c rd ra rb reply s
  | .issueHubctrl c rd ra rb reply => Sys2Proof.Machine.execIssueHubctrl c rd ra rb reply s
  | .issueCopy c rd ra rb reply => Sys2Proof.Machine.execIssueCopy c rd ra rb reply s
  | .issueCapture c rd ra rb reply => Sys2Proof.Machine.execIssueCapture c rd ra rb reply s
  | .mapset c rd ra rb reply => Sys2Proof.Machine.execMapset c rd ra rb reply s
  | .scrsel c rd ra rb reply => Sys2Proof.Machine.execScrsel c rd ra rb reply s
  | .axmoveAbsolute c rd ra rb reply => Sys2Proof.Machine.execAxmoveAbsolute c rd ra rb reply s
  | .axmoveRelative c rd ra rb reply => Sys2Proof.Machine.execAxmoveRelative c rd ra rb reply s
  | .axmoveLimits c rd ra rb reply => Sys2Proof.Machine.execAxmoveLimits c rd ra rb reply s
  | .axmoveStop c rd ra rb reply => Sys2Proof.Machine.execAxmoveStop c rd ra rb reply s
  | .loopset c rd ra rb reply => Sys2Proof.Machine.execLoopset c rd ra rb reply s
  | .trig c rd ra rb reply => Sys2Proof.Machine.execTrig c rd ra rb reply s
  | .trigAction o => Sys2Proof.Machine.execTrigAction o s
  | .trigPulseEnd o => Sys2Proof.Machine.execTrigPulseEnd o s
  | .mark c rd ra rb reply => Sys2Proof.Machine.execMark c rd ra rb reply s
  | .markPulse k => Sys2Proof.Machine.execMarkPulse k s
  | .markPulseEnd k => Sys2Proof.Machine.execMarkPulseEnd k s
  | .lread c rd ra rb reply => Sys2Proof.Machine.execLread c rd ra rb reply s
  | .evt c rd ra rb => Sys2Proof.Machine.execEvt c rd ra rb s
  | .sqDoorbell q v => Sys2Proof.Machine.execSqDoorbell q v s
  | .cqDoorbell q v => Sys2Proof.Machine.execCqDoorbell q v s
  | .queueEnable f q v => Sys2Proof.Machine.execQueueEnable f q v s
  | .queueDisable f q v => Sys2Proof.Machine.execQueueDisable f q v s
  | .queueResume f q => Sys2Proof.Machine.execQueueResume f q s
  | .entryFetch q reply => Sys2Proof.Machine.execEntryFetch q reply s
  | .programFetchDone q reply => Sys2Proof.Machine.execProgramFetchDone q reply s
  | .eventRingEnable f v => Sys2Proof.Machine.execEventRingEnable f v s
  | .evtailWrite f v => Sys2Proof.Machine.execEvtailWrite f v s
  | .msixUnmask f vec => Sys2Proof.Machine.execMsixUnmask f vec s
  | .functionDisable f cause => Sys2Proof.Machine.execFunctionDisable f cause s
  | .functionEnable f cause => Sys2Proof.Machine.execFunctionEnable f cause s
  | .powerStateChange f d3 => Sys2Proof.Machine.execPowerStateChange f d3 s
  | .flr f => Sys2Proof.Machine.execFlr f s
  | .flrComplete f => Sys2Proof.Machine.execFlrComplete f s
  | .frameRelease g fsn reply => Sys2Proof.Machine.execFrameRelease g fsn reply s
  | .frameCommit g fsn => Sys2Proof.Machine.execFrameCommit g fsn s
  | .frameSpoil g fsn => Sys2Proof.Machine.execFrameSpoil g fsn s
  | .dispositionRecord g => Sys2Proof.Machine.execDispositionRecord g s
  | .frameReleased g fsn reply => Sys2Proof.Machine.execFrameReleased g fsn reply s
  | .mirrorRetry g fsn => Sys2Proof.Machine.execMirrorRetry g fsn s
  | .mirrorEnable f v g => Sys2Proof.Machine.execMirrorEnable f v g s
  | .mirrorDisable f v g => Sys2Proof.Machine.execMirrorDisable f v g s
  | .ledgerSeed f v g => Sys2Proof.Machine.execLedgerSeed f v g s
  | .ledgerResolve f v g => Sys2Proof.Machine.execLedgerResolve f v g s
  | .hello tseq tack unit preferred profile id claim settings printing => Sys2Proof.Machine.execHello tseq tack unit preferred profile id claim settings printing s
  | .heartbeat tseq tack claim state => Sys2Proof.Machine.execHeartbeat tseq tack claim state s
  | .twinTrigReceived tseq tack group n tm => Sys2Proof.Machine.execTwinTrigReceived tseq tack group n tm s
  | .record tseq tack record => Sys2Proof.Machine.execRecord tseq tack record s
  | .ringAck tseq tack group fsn => Sys2Proof.Machine.execRingAck tseq tack group fsn s
  | .change tseq tack key desc ge => Sys2Proof.Machine.execChange tseq tack key desc ge s
  | .result tseq tack key code value geohash tabsum => Sys2Proof.Machine.execResult tseq tack key code value geohash tabsum s
  | .twinEntry tseq tack queue qseq blockCrc argCrc => Sys2Proof.Machine.execTwinEntry tseq tack queue qseq blockCrc argCrc s
  | .hubpoint tseq tack hub points reports => Sys2Proof.Machine.execHubpoint tseq tack hub points reports s
  | .resync tseq tack answer trigger streams => Sys2Proof.Machine.execResync tseq tack answer trigger streams s
  | .diverge tseq tack cause detail => Sys2Proof.Machine.execDiverge tseq tack cause detail s
  | .resetReq tseq tack claim => Sys2Proof.Machine.execResetReq tseq tack claim s
  | .stateCopy tseq tack part => Sys2Proof.Machine.execStateCopy tseq tack part s
  | .image tseq tack offset bytes => Sys2Proof.Machine.execImage tseq tack offset bytes s
  | .request tseq tack key desc => Sys2Proof.Machine.execRequest tseq tack key desc s
  | .twinMessageResend tseq => Sys2Proof.Machine.execTwinMessageResend tseq s
  | .heartbeatSend => Sys2Proof.Machine.execHeartbeatSend s
  | .hbWordSend => Sys2Proof.Machine.execHbWordSend s
  | .hbWordReceived w => Sys2Proof.Machine.execHbWordReceived w s
  | .partnerLost => Sys2Proof.Machine.execPartnerLost s
  | .pathSilent link => Sys2Proof.Machine.execPathSilent link s
  | .quorumRetry => Sys2Proof.Machine.execQuorumRetry s
  | .trigFallback g => Sys2Proof.Machine.execTrigFallback g s
  | .matchTimeout key => Sys2Proof.Machine.execMatchTimeout key s
  | .twinPair f v => Sys2Proof.Machine.execTwinPair f v s
  | .twinRejoin f v => Sys2Proof.Machine.execTwinRejoin f v s
  | .partnerReset f v => Sys2Proof.Machine.execPartnerReset f v s
  | .pairingTimeout => Sys2Proof.Machine.execPairingTimeout s
  | .memStart f v => Sys2Proof.Machine.execMemStart f v s
  | .trainingStep stageEnds => Sys2Proof.Machine.execTrainingStep stageEnds s
  | .trainingDone fails => Sys2Proof.Machine.execTrainingDone fails s
  | .freqRequest f v => Sys2Proof.Machine.execFreqRequest f v s
  | .freqChangeDone => Sys2Proof.Machine.execFreqChangeDone s
  | .refresh m r => Sys2Proof.Machine.execRefresh m r s
  | .mr4Poll m r doubled => Sys2Proof.Machine.execMr4Poll m r doubled s
  | .scrubRead m find => Sys2Proof.Machine.execScrubRead m find s
  | .migrationPiece m bad => Sys2Proof.Machine.execMigrationPiece m bad s
  | .migrationDone m => Sys2Proof.Machine.execMigrationDone m s
  | .selfRefreshEntry => Sys2Proof.Machine.execSelfRefreshEntry s
  | .selfRefreshExit => Sys2Proof.Machine.execSelfRefreshExit s
  | .quadEnable f v q => Sys2Proof.Machine.execQuadEnable f v q s
  | .quadRateWrite f v q => Sys2Proof.Machine.execQuadRateWrite f v q s
  | .quadRateDone q => Sys2Proof.Machine.execQuadRateDone q s
  | .laneEnable f v l => Sys2Proof.Machine.execLaneEnable f v l s
  | .laneTrainingStage l ok => Sys2Proof.Machine.execLaneTrainingStage l ok s
  | .laneLock l => Sys2Proof.Machine.execLaneLock l s
  | .laneLockLost l signal => Sys2Proof.Machine.execLaneLockLost l signal s
  | .laneErrsd l errors => Sys2Proof.Machine.execLaneErrsd l errors s
  | .laneRetrain l => Sys2Proof.Machine.execLaneRetrain l s
  | .tdWindow l transitions => Sys2Proof.Machine.execTdWindow l transitions s
  | .eyeScan f v l => Sys2Proof.Machine.execEyeScan f v l s
  | .eyeScanDone l count => Sys2Proof.Machine.execEyeScanDone l count s
  | .prbsClear f v l => Sys2Proof.Machine.execPrbsClear f v l s
  | .laneSleep l tx deep => Sys2Proof.Machine.execLaneSleep l tx deep s
  | .laneWake l tx => Sys2Proof.Machine.execLaneWake l tx s
  | .timeAcq f v d => Sys2Proof.Machine.execTimeAcq f v d s
  | .domainStep f v d => Sys2Proof.Machine.execDomainStep f v d s
  | .domainRate f v d => Sys2Proof.Machine.execDomainRate f v d s
  | .workSelect f v => Sys2Proof.Machine.execWorkSelect f v s
  | .timeSwitched => Sys2Proof.Machine.execTimeSwitched s
  | .timeSnap f v => Sys2Proof.Machine.execTimeSnap f v s
  | .toutModeWrite f v o => Sys2Proof.Machine.execToutModeWrite f v o s
  | .toutPeriodEdge o => Sys2Proof.Machine.execToutPeriodEdge o s
  | .tinEdge n rising => Sys2Proof.Machine.execTinEdge n rising s
  | .tinPop f v n => Sys2Proof.Machine.execTinPop f v n s
  | .ethRxFrame p frame => Sys2Proof.Machine.execEthRxFrame p frame s
  | .ethTxFrame p => Sys2Proof.Machine.execEthTxFrame p s
  | .pressStateReceived message => Sys2Proof.Machine.execPressStateReceived message s
  | .pmsStatusSend => Sys2Proof.Machine.execPmsStatusSend s
  | .spdlimPeriod => Sys2Proof.Machine.execSpdlimPeriod s
  | .encEnable f v c => Sys2Proof.Machine.execEncEnable f v c s
  | .serialReading c data nerr nwarn crc trailing timeout ago => Sys2Proof.Machine.execSerialReading c data nerr nwarn crc trailing timeout ago s
  | .indexEdge c rising => Sys2Proof.Machine.execIndexEdge c rising s
  | .speedWindow c => Sys2Proof.Machine.execSpeedWindow c s
  | .standstill c => Sys2Proof.Machine.execStandstill c s
  | .fbFrozen c => Sys2Proof.Machine.execFbFrozen c s
  | .encClear f v c => Sys2Proof.Machine.execEncClear f v c s
  | .encPosRead f c => Sys2Proof.Machine.execEncPosRead f c s
  | .ltgEnable f v j => Sys2Proof.Machine.execLtgEnable f v j s
  | .ltgDisable f v j => Sys2Proof.Machine.execLtgDisable f v j s
  | .axisSample n => Sys2Proof.Machine.execAxisSample n s
  | .axisHalt f v n => Sys2Proof.Machine.execAxisHalt f v n s
  | .webStopIn => Sys2Proof.Machine.execWebStopIn s
  | .axisSetpos f v n => Sys2Proof.Machine.execAxisSetpos f v n s
  | .axisClear f v n => Sys2Proof.Machine.execAxisClear f v n s
  | .chopCycle st coilB on decay early => Sys2Proof.Machine.execChopCycle st coilB on decay early s
  | .irunUpdate st => Sys2Proof.Machine.execIrunUpdate st s
  | .tableWrite f v => Sys2Proof.Machine.execTableWrite f v s
  | .tableRead f v => Sys2Proof.Machine.execTableRead f v s
  | .loopSample l => Sys2Proof.Machine.execLoopSample l s
  | .injectionStart f v l => Sys2Proof.Machine.execInjectionStart f v l s
  | .captureAbort f v k => Sys2Proof.Machine.execCaptureAbort f v k s
  | .pwmPeriod m => Sys2Proof.Machine.execPwmPeriod m s
  | .sensorPeriod p words => Sys2Proof.Machine.execSensorPeriod p words s
  | .sensorClear f v p => Sys2Proof.Machine.execSensorClear f v p s
  | .domainGate d => Sys2Proof.Machine.execDomainGate d s
  | .domainPowerDown d => Sys2Proof.Machine.execDomainPowerDown d s
  | .domainEntryEnd d => Sys2Proof.Machine.execDomainEntryEnd d s
  | .domainWake d step => Sys2Proof.Machine.execDomainWake d step s
  | .deepSleepEntry => Sys2Proof.Machine.execDeepSleepEntry s
  | .deepSleepWake src => Sys2Proof.Machine.execDeepSleepWake src s
  | .sleeptmrExpire => Sys2Proof.Machine.execSleeptmrExpire s
  | .refclkSysLost => Sys2Proof.Machine.execRefclkSysLost s
  | .pllLockLoss k => Sys2Proof.Machine.execPllLockLoss k s
  | .thermalSample readings => Sys2Proof.Machine.execThermalSample readings s
  | .zoneLevelChange z => Sys2Proof.Machine.execZoneLevelChange z s
  | .sensorRetire f v => Sys2Proof.Machine.execSensorRetire f v s
  | .threshWrite f v => Sys2Proof.Machine.execThreshWrite f v s
  | .thermalGraceEnd z => Sys2Proof.Machine.execThermalGraceEnd z s
  | .trip z => Sys2Proof.Machine.execTrip z s
  | .powerOnReset => Sys2Proof.Machine.execPowerOnReset s
  | .warmReset => Sys2Proof.Machine.execWarmReset s
  | .glbRstWarm f v => Sys2Proof.Machine.execGlbRstWarm f v s
  | .rstoutRelease f v => Sys2Proof.Machine.execRstoutRelease f v s
  | .blockSoftReset f v => Sys2Proof.Machine.execBlockSoftReset f v s
  | .bootStart straps vdd => Sys2Proof.Machine.execBootStart straps vdd s
  | .downloadGo f v => Sys2Proof.Machine.execDownloadGo f v s
  | .containerChecked image => Sys2Proof.Machine.execContainerChecked image s
  | .fuseProgram f v => Sys2Proof.Machine.execFuseProgram f v s
  | .fuseRevoke f v => Sys2Proof.Machine.execFuseRevoke f v s
  | .fuseDone ok => Sys2Proof.Machine.execFuseDone ok s
  | .debugChallenge f v => Sys2Proof.Machine.execDebugChallenge f v s
  | .debugSubmit f v => Sys2Proof.Machine.execDebugSubmit f v s
  | .mossBrownout => Sys2Proof.Machine.execMossBrownout s
  | .i2cTransaction op => Sys2Proof.Machine.execI2cTransaction op s
  | .gpioEdge n level => Sys2Proof.Machine.execGpioEdge n level s
  | .telemetryReport l h payload => Sys2Proof.Machine.execTelemetryReport l h payload s
  | .refclkSysReturn => Sys2Proof.Machine.execRefclkSysReturn s
  | .pllRelock k => Sys2Proof.Machine.execPllRelock k s
  | .xtal32Start => Sys2Proof.Machine.execXtal32Start s
  | .signalReturn l => Sys2Proof.Machine.execSignalReturn l s
  | .quadPllFail q => Sys2Proof.Machine.execQuadPllFail q s
  | .pcieLinkChange speed width pm => Sys2Proof.Machine.execPcieLinkChange speed width pm s
  | .pcieCompletionTimeout o => Sys2Proof.Machine.execPcieCompletionTimeout o s
  | .copyComplete key reply => Sys2Proof.Machine.execCopyComplete key reply s
  | .bootImageRequest tseq tack => Sys2Proof.Machine.execBootImageRequest tseq tack s
  | .prbsSyncChange l sync compared errors => Sys2Proof.Machine.execPrbsSyncChange l sync compared errors s

end Sys2Proof.Machine
end

