-- ==== Sys2Proof/Safety.lean ====
section
/-!
DEFINITION. What counts as a safe run, and the words in which statements about the machine are put: when a block acts, when
a core executes, when a host write reaches a register, and what an instruction leaves alone.
-/

namespace Sys2Proof.Machine

/-! Safety. -/

/-- Whether CRS.PLLSTAT.LOCK shows the PLLs that run (R418). -/
def State.locksShown (s : State) : Prop := getF s CRS.PLLSTAT_LOCK = pllLock s

/-- Whether the sparse stores are in their one form: addresses strictly rising, and no entry equal to what an unlisted
address reads as. -/
def State.canonical (s : State) : Bool := Memory.wf s.mem && Regs.wf s.regs

/-- Whether a step answers a next state. -/
def State.advances (s : State) : Prop := ∃ t, step s = .next t

/-- Whether every register but CRS.PLLSTAT reads as before. -/
def sameRegisters (s t : State) : Prop := ∀ o, o ≠ 0x300000 → regRaw t o = regRaw s o

/-! Cores. -/

/-- Whether an instruction that reaches a core is executed: the control PLL is up and no reset holds, the core runs and is not
stalled, its pc lies in its program, and no breakpoint halts it first (R188, R194, R207, R214). -/
def Executes (s : State) (c : CoreId) : Prop :=
  stands s pllControl = false ∧ ready s (coreNum c) = true ∧
  inProgram (coreOf s (coreNum c)) (coreOf s (coreNum c)).pc = true ∧
  (catches s (coreNum c) && !(coreOf s (coreNum c)).bpSkip && atBreakpoint s (coreNum c)) = false

/-- The pc of the next instruction in line. -/
def nextPc (s : State) (c : CoreId) : Word := (coreOf s (coreNum c)).pc + 4

/-- A core after an instruction: general register `rd` holds `v`, every other general register and the special registers what
they held; the pc and the two STATUS bits are as given; other cores, memory and what has been sent are as before, and,
unless one instruction is being stepped, every register of the blocks too. A write to g0 is discarded (R184). -/
structure Retires (s t : State) (c : CoreId) (rd : GReg) (v pc : Word) (sat ovf : Bool) : Prop where
  general : ∀ r, readG t (coreNum c) r = if r = rd ∧ rd ≠ 0 then v else readG s (coreNum c) r
  pcIs : (coreOf t (coreNum c)).pc = pc
  satIs : (coreOf t (coreNum c)).sat = sat
  ovfIs : (coreOf t (coreNum c)).ovf = ovf
  special : (coreOf t (coreNum c)).hwin = (coreOf s (coreNum c)).hwin ∧ (coreOf t (coreNum c)).hostfn = (coreOf s (coreNum c)).hostfn ∧
    (coreOf t (coreNum c)).event = (coreOf s (coreNum c)).event ∧ (coreOf t (coreNum c)).evmask = (coreOf s (coreNum c)).evmask ∧
    (coreOf t (coreNum c)).timer = (coreOf s (coreNum c)).timer
  others : ∀ j, j ≠ coreNum c → coreOf t j = coreOf s j
  memory : t.mem = s.mem
  sent : t.outs = s.outs
  registers : (coreOf s (coreNum c)).stepping = false → sameRegisters s t

/-- A core after an instruction that leaves STATUS alone and falls through. -/
abbrev Writes (s t : State) (c : CoreId) (rd : GReg) (v : Word) : Prop :=
  Retires s t c rd v (nextPc s c) (coreOf s (coreNum c)).sat (coreOf s (coreNum c)).ovf

/-- A core after a jump that writes no register. -/
abbrev JumpsTo (s t : State) (c : CoreId) (pc : Word) : Prop :=
  Retires s t c 0 0 pc (coreOf s (coreNum c)).sat (coreOf s (coreNum c)).ovf

/-- A core after a fault: the code, the faulting pc and the fault address are recorded, no register or byte of memory changes,
and the core is FAULTED, or in DEBUG where it catches faults; a CLEAR or a RESUME held for the fault's completion would
return a thread to IDLE at once (R196, R214, R257, R259). -/
structure Faults (s t : State) (c : CoreId) (code addr : Nat) : Prop where
  stateIs : (coreOf s (coreNum c)).clearHeld = false → (∀ q, (queueOf s q).resumeHeld = false) →
    coreState t (coreNum c) = if catches s (coreNum c) then stDebug (coreNum c) else stFaulted (coreNum c)
  codeIs : (if isThread (coreNum c) then getF t CWY.TSTAT_CODE (coreNum c) else getF t RDC.STAT_CODE (coreNum c - 16)) = code
  pcIs : (if isThread (coreNum c) then getP t CWY.FAULTPC (coreNum c) else getP t RDC.FAULTPC (coreNum c - 16)) =
    (coreOf s (coreNum c)).pc.toNat
  addrIs : (if isThread (coreNum c) then getP t CWY.FAULTADDR (coreNum c) else getP t RDC.FAULTADDR (coreNum c - 16)) = addr
  general : ∀ r, readG t (coreNum c) r = readG s (coreNum c) r
  statusIs : (coreOf t (coreNum c)).sat = (coreOf s (coreNum c)).sat ∧ (coreOf t (coreNum c)).ovf = (coreOf s (coreNum c)).ovf
  memory : t.mem = s.mem

/-- A core that stalls: it keeps its pc and registers and waits as given; memory is as before. -/
structure Stalls (s t : State) (c : CoreId) (w : Stall) : Prop where
  stallIs : (coreOf t (coreNum c)).stall = w
  pcIs : (coreOf t (coreNum c)).pc = (coreOf s (coreNum c)).pc
  general : ∀ r, readG t (coreNum c) r = readG s (coreNum c) r
  memory : t.mem = s.mem
  registers : sameRegisters s t

/-- Device memory that a load, store or AMO of `n` bytes on core `k` at `ea` reaches at `a`: aligned, in a data memory of an
awake domain, or in SDRAM that is up, free of poison and open to stores (R192, R197 to R199, R335). -/
def DataAt (s : State) (k ea n a : Nat) : Prop :=
  ea < 2 ^ 48 ∧ ea % n = 0 ∧ resolveAlias k ea = some a ∧ heldSpace s a = none ∧
  (spaceOf s a = .cdata ∨ spaceOf s a = .rdmem ∨
    (spaceOf s a = .sdram ∧ memUp s = true ∧ poisoned s a n = false ∧ partlyPoisoned s a n = false ∧ mireRefused s a = false))

/-- The registers in which an access to memory at `a` leaves the unit: a request to SDRAM ends self-refresh (R337). -/
def requested (s : State) (a : Nat) : State :=
  if spaceOf s a = .sdram ∧ flag s MEM.STAT_SELFREF = true then setF s MEM.STAT_SELFREF 0 else s

/-- Memory after a store of the `n` low bytes of `v` at `a`: those bytes are as given and every other byte as before. -/
def BytesPut (s t : State) (a n : Nat) (v : Word) : Prop :=
  ∀ x, memByte t x = if a ≤ x ∧ x < a + n then (v >>> (8 * (x - a))).setWidth 8 else memByte s x

/-! Host accesses. -/

/-- Whether a function's read of a register's home reaches it, under the conditions of HostWrites. -/
def HostReads (s : State) (f : Fin 8) (home : Nat) : Prop :=
  stands s pllPcie = false ∧ (fnOf s f).d3 = false ∧ hostBlind s f home = false ∧ (reaches s f home).isSome = true ∧
  (regAt s home).isSome = true

/-- Whether a function's write of a register's home reaches it: the PCIe PLL is up and no reset holds, the function is not in
D3hot, the boot ROM is not waiting with the block closed, the function's view takes writes to it, and the register is
there (R249, R436, R471, R473). -/
def HostWrites (s : State) (f : Fin 8) (home : Nat) : Prop :=
  stands s pllPcie = false ∧ (fnOf s f).d3 = false ∧ hostBlind s f home = false ∧ reaches s f home = some true ∧
  (regAt s home).isSome = true

/-! Commands of the blocks. -/

/-- A command answers a next state, of which `p` holds. -/
def Acts (s : State) (c : Instr) (p : State → Prop) : Prop := ∃ t, exec c s = .next t ∧ p t

/-- No ledger operation waits in its group's order and no group recovers, so that nothing of the ledger goes on by itself. -/
def LedgersIdle (s : State) : Prop := s.ledger.order = [] ∧ ∀ g < 4, flag s LDG.STAT_RECOVERING g = false

/-- Every frame of the ledger stands once, under its own key. -/
def FramesKeyed (s : State) : Prop := mrising 0 s.ledger.frames = true ∧ ∀ e ∈ s.ledger.frames, e.1 = e.2.key

/-- The ledger holds frame `f` of a group under an FSN. -/
def HasFrame (s : State) (g fsn : Nat) (f : Frame) : Prop :=
  frameOf s g fsn = some f ∧ f.group = g ∧ f.fsn = fsn ∧ FramesKeyed s

/-- After a command the ledger's frame of a group and an FSN is one of which `p` holds. -/
def FrameThen (t : State) (g fsn : Nat) (p : Frame → Prop) : Prop := ∃ f, frameOf t g fsn = some f ∧ p f

/-- A twin message comes in its turn to a unit that takes it, with nothing of the ledger going on by itself (R296). -/
def InTurn (s : State) (tseq : Nat) : Prop :=
  stands s pllControl = false ∧ twinEnabled s = true ∧ tseq = s.twin.applied + 1 ∧ LedgersIdle s

/-- A message has been applied (R296, R298). -/
def Applied (s t : State) (tseq : Nat) : Prop := t.twin.applied = tseq ∧ t.twin.linkAt = some s.frc

/-- A message to the partner has been sent or waits to be sent. -/
def TwinSays (t : State) (m : TwinBody) : Prop := ∃ n, (n, m) ∈ t.twin.unacked

/-- Nothing but registers has changed, and of those only the ones at the offsets given, beside CRS.PLLSTAT. -/
def OnlyRegs (s t : State) (os : List Nat) : Prop :=
  t = { s with regs := t.regs } ∧ ∀ o, o ∉ os → o ≠ 0x300000 → regRaw t o = regRaw s o

end Sys2Proof.Machine
end

