-- ==== Sys2Proof/Certificates/Slice0/Obligations.lean ====
section
/-!
DEFINITION. The statements for the provers.
-/

namespace Sys2Proof.Machine

/-! Words in which the statements about instructions are put. -/

/-- An instruction on two registers writes `f` of them to rd and changes nothing else of Retires. -/
def AluGives (op : CoreId → GReg → GReg → GReg → Instr) (f : Word → Word → Word) : Prop :=
  ∀ c rd ra rb s, Executes s c → ∃ t, exec (op c rd ra rb) s = .next t ∧
    Writes s t c rd (f (readG s (coreNum c) ra) (readG s (coreNum c) rb))

/-- An instruction on two registers writes `f` of them to rd, and sets SAT or OVF where the conditions hold; STATUS is sticky. -/
def FlagGives (op : CoreId → GReg → GReg → GReg → Instr) (f : Word → Word → Word) (sat ovf : Word → Word → Bool) : Prop :=
  ∀ c rd ra rb s, Executes s c → ∃ t, exec (op c rd ra rb) s = .next t ∧
    Retires s t c rd (f (readG s (coreNum c) ra) (readG s (coreNum c) rb)) (nextPc s c)
      ((coreOf s (coreNum c)).sat || sat (readG s (coreNum c) ra) (readG s (coreNum c) rb))
      ((coreOf s (coreNum c)).ovf || ovf (readG s (coreNum c) ra) (readG s (coreNum c) rb))

/-- A count of bits of ra is written to rd: the count, at most 64, is the one of which `p` holds. -/
def CountGives (op : CoreId → GReg → GReg → Instr) (p : Word → Nat → Prop) : Prop :=
  ∀ c rd ra s, Executes s c → ∃ t n, exec (op c rd ra) s = .next t ∧ Writes s t c rd (BitVec.ofNat 64 n) ∧
    n ≤ 64 ∧ p (readG s (coreNum c) ra) n

/-- An instruction on a register and an immediate writes `f` of them to rd. -/
def ImmGives {α : Type} (op : CoreId → GReg → GReg → α → Instr) (f : Word → α → Word) : Prop :=
  ∀ c rd ra imm s, Executes s c → ∃ t, exec (op c rd ra imm) s = .next t ∧
    Writes s t c rd (f (readG s (coreNum c) ra) imm)

/-- A branch jumps to pc + sext(off16) × 4 where `p` holds of its registers, and falls through elsewhere. -/
def BranchGoes (op : CoreId → GReg → GReg → BitVec 16 → Instr) (p : Word → Word → Prop) : Prop :=
  ∀ c ra rb off s, Executes s c → ∃ t, exec (op c ra rb off) s = .next t ∧
    (p (readG s (coreNum c) ra) (readG s (coreNum c) rb) →
      JumpsTo s t c ((coreOf s (coreNum c)).pc + off.signExtend 64 * 4)) ∧
    (¬ p (readG s (coreNum c) ra) (readG s (coreNum c) rb) → JumpsTo s t c (nextPc s c))

end Sys2Proof.Machine

open Sys2Proof Sys2Proof.Machine

/-! The queue, idling and reset. -/

/-- A step takes the command at the front of the queue and runs it with the queue's rest. -/
def Obligations.StepRunsFront : Prop :=
  ∀ (c : Instr) (rest : List Instr) (s : State), s.pending = c :: rest → step s = exec c { s with pending := rest }

/-- R355: with no command waiting, a step is one tick of the time PLL: the counter advances by 1, or by 50 in deep sleep, and
stands while REFCLK_SYS or the PLL is lost; memory, cores' operations and the ledger stay. That an empty queue ticks is a
DESIGN CHOICE (log entry 3). -/
def Statement.IdleTicks : Prop :=
  ∀ (s : State), s.pending = [] → ∃ t, step s = .next t ∧
    t.frc = (if s.time.stopped = true ∨ s.power.pllDown.contains 2 = true then s.frc
      else (s.frc + (if s.power.deep.isSome then 50 else 1)) % 2 ^ 64) ∧
    t.mem = s.mem ∧ t.host = s.host ∧ t.ledger = s.ledger ∧ t.outs = s.outs ∧ t.pending = []

/-! Brofer: arithmetic. -/

/-- R190: the operations that leave STATUS alone. -/
def Statement.AluResults : Prop :=
  AluGives .add (fun a b => a + b) ∧ AluGives .sub (fun a b => a - b) ∧ AluGives .and (fun a b => a &&& b) ∧
  AluGives .or (fun a b => a ||| b) ∧ AluGives .xor (fun a b => a ^^^ b) ∧
  AluGives .sll (fun a b => a <<< (b.toNat % 64)) ∧ AluGives .srl (fun a b => a >>> (b.toNat % 64)) ∧
  AluGives .sra (fun a b => a.sshiftRight (b.toNat % 64)) ∧
  AluGives .slt (fun a b => if a.toInt < b.toInt then 1 else 0) ∧
  AluGives .sltu (fun a b => if a.toNat < b.toNat then 1 else 0) ∧
  AluGives .mul (fun a b => BitVec.ofInt 64 (a.toInt * b.toInt)) ∧
  AluGives .mulh (fun a b => BitVec.ofInt 64 (a.toInt * b.toInt / 2 ^ 64)) ∧
  AluGives .mulhu (fun a b => BitVec.ofNat 64 (a.toNat * b.toNat / 2 ^ 64)) ∧
  AluGives .min (fun a b => if a.toInt < b.toInt then a else b) ∧
  AluGives .max (fun a b => if a.toInt < b.toInt then b else a) ∧
  AluGives .minu (fun a b => if a.toNat < b.toNat then a else b) ∧
  AluGives .maxu (fun a b => if a.toNat < b.toNat then b else a)

/-- R190: the operations that count bits. -/
def Statement.BitCounts : Prop :=
  CountGives .clz (fun a n => (∀ i < n, a.getLsbD (63 - i) = false) ∧ (n < 64 → a.getLsbD (63 - n) = true)) ∧
  CountGives .ctz (fun a n => (∀ i < n, a.getLsbD i = false) ∧ (n < 64 → a.getLsbD n = true)) ∧
  CountGives .popc (fun a n => n = ((List.range 64).filter (fun i => a.getLsbD i)).length)

/-- R190, R185: the operations that set SAT or OVF, corners of division included. -/
def Obligations.StatusResults : Prop :=
  FlagGives .div (fun a b => if b = 0 then -1 else if a.toInt = -2 ^ 63 ∧ b.toInt = -1 then BitVec.ofInt 64 (-2 ^ 63)
      else BitVec.ofInt 64 (a.toInt.tdiv b.toInt))
    (fun _ _ => false) (fun a b => b = 0 ∨ (a.toInt = -2 ^ 63 ∧ b.toInt = -1)) ∧
  FlagGives .divu (fun a b => if b = 0 then BitVec.ofNat 64 (2 ^ 64 - 1) else BitVec.ofNat 64 (a.toNat / b.toNat))
    (fun _ _ => false) (fun _ b => b = 0) ∧
  FlagGives .rem (fun a b => if b = 0 then a else if a.toInt = -2 ^ 63 ∧ b.toInt = -1 then 0
      else BitVec.ofInt 64 (a.toInt - b.toInt * a.toInt.tdiv b.toInt))
    (fun _ _ => false) (fun a b => b = 0 ∨ (a.toInt = -2 ^ 63 ∧ b.toInt = -1)) ∧
  FlagGives .remu (fun a b => if b = 0 then a else BitVec.ofNat 64 (a.toNat % b.toNat)) (fun _ _ => false) (fun _ b => b = 0) ∧
  FlagGives .adds (fun a b => BitVec.ofInt 64 (max (-2 ^ 63) (min (2 ^ 63 - 1) (a.toInt + b.toInt))))
    (fun a b => a.toInt + b.toInt < -2 ^ 63 ∨ 2 ^ 63 - 1 < a.toInt + b.toInt) (fun _ _ => false) ∧
  FlagGives .subs (fun a b => BitVec.ofInt 64 (max (-2 ^ 63) (min (2 ^ 63 - 1) (a.toInt - b.toInt))))
    (fun a b => a.toInt - b.toInt < -2 ^ 63 ∨ 2 ^ 63 - 1 < a.toInt - b.toInt) (fun _ _ => false) ∧
  FlagGives .addv (fun a b => a + b) (fun _ _ => false)
    (fun a b => a.toInt + b.toInt < -2 ^ 63 ∨ 2 ^ 63 - 1 < a.toInt + b.toInt) ∧
  FlagGives .subv (fun a b => a - b) (fun _ _ => false)
    (fun a b => a.toInt - b.toInt < -2 ^ 63 ∨ 2 ^ 63 - 1 < a.toInt - b.toInt) ∧
  FlagGives .mulv (fun a b => a * b) (fun _ _ => false)
    (fun a b => a.toInt * b.toInt < -2 ^ 63 ∨ 2 ^ 63 - 1 < a.toInt * b.toInt)

/-- R191: the immediate instructions. -/
def Statement.ImmediateResults : Prop :=
  ImmGives .addi (fun a i => a + i.signExtend 64) ∧ ImmGives .andi (fun a i => a &&& i.zeroExtend 64) ∧
  ImmGives .ori (fun a i => a ||| i.zeroExtend 64) ∧ ImmGives .xori (fun a i => a ^^^ i.zeroExtend 64) ∧
  ImmGives .shori (fun a i => (a <<< 16) ||| i.zeroExtend 64) ∧
  ImmGives .slti (fun a i => if a.toInt < (i.signExtend 64).toInt then 1 else 0) ∧
  ImmGives .sltiu (fun a i => if a.toNat < (i.signExtend 64).toNat then 1 else 0) ∧
  ImmGives .shiLeft (fun a n => a <<< n.val) ∧ ImmGives .shiRightLogical (fun a n => a >>> n.val) ∧
  ImmGives .shiRightArith (fun a n => a.sshiftRight n.val) ∧ ImmGives .shiRotate (fun a n => a.rotateRight n.val)

/-! Brofer: branches and jumps. -/

/-- R194: the branches. -/
def Statement.Branches : Prop :=
  BranchGoes .beq (fun a b => a = b) ∧ BranchGoes .bne (fun a b => a ≠ b) ∧
  BranchGoes .blt (fun a b => a.toInt < b.toInt) ∧ BranchGoes .bge (fun a b => b.toInt ≤ a.toInt) ∧
  BranchGoes .bltu (fun a b => a.toNat < b.toNat) ∧ BranchGoes .bgeu (fun a b => b.toNat ≤ a.toNat)

/-- R194: J jumps, JAL links into g31 first, JALR links into rd and takes its target from ra as it was before. -/
def Statement.Jumps : Prop :=
  ∀ (c : CoreId) (s : State), Executes s c →
    (∀ off, ∃ t, exec (.j c off) s = .next t ∧ JumpsTo s t c ((coreOf s (coreNum c)).pc + off.signExtend 64 * 4)) ∧
    (∀ off, ∃ t, exec (.jal c off) s = .next t ∧
      Retires s t c 31 (nextPc s c) ((coreOf s (coreNum c)).pc + off.signExtend 64 * 4)
        (coreOf s (coreNum c)).sat (coreOf s (coreNum c)).ovf) ∧
    (∀ rd ra, (readG s (coreNum c) ra).toNat % 4 = 0 → ∃ t, exec (.jalr c rd ra) s = .next t ∧
      Retires s t c rd (nextPc s c) (readG s (coreNum c) ra) (coreOf s (coreNum c)).sat (coreOf s (coreNum c)).ovf)

/-! Brofer: special registers, fences, events, faults. -/

/-- R186, R187: MFS reads STATUS, CORE, HOSTFN of a Reed core, HWIN, FRC and, on Reed cores, EVENT and EVMASK; a reserved special
register reads 0. -/
def Statement.SpecialReads : Prop :=
  ∀ (c : CoreId) (rd : GReg) (sr : Fin 64) (s : State), Executes s c →
    ∃ t v, exec (.mfs c rd sr) s = .next t ∧ Writes s t c rd v ∧
      (sr = 0 → v.getLsbD 0 = (coreOf s (coreNum c)).sat ∧ v.getLsbD 1 = (coreOf s (coreNum c)).ovf ∧ v.toNat < 4) ∧
      (sr = 1 → v = match c with | .thread k => BitVec.ofNat 64 (32 + 256 * k.val) | .reed n => BitVec.ofNat 64 n.val) ∧
      (sr = 3 → v = (coreOf s (coreNum c)).hwin.zeroExtend 64 <<< 47) ∧
      (sr = 5 → v = BitVec.ofNat 64 s.frc) ∧
      (∀ n, c = .reed n → (sr = 16 → v = (coreOf s (coreNum c)).event.zeroExtend 64) ∧
        (sr = 17 → v = (coreOf s (coreNum c)).evmask)) ∧
      (∀ k, c = .thread k → (sr = 12 → v = (coreOf s (coreNum c)).qseq.zeroExtend 64) ∧
        (sr = 13 → v = (coreOf s (coreNum c)).eflags.zeroExtend 64)) ∧
      (19 ≤ sr.val → v = 0)

/-- R185 to R187: MTS writes STATUS and HWIN, and on Reed cores HOSTFN, EVENT (each bit written 1 is cleared), EVMASK and TIMER;
on any other special register it faults with SPECIAL and changes nothing. -/
def Statement.SpecialWrites : Prop :=
  ∀ (c : CoreId) (ra : GReg) (sr : Fin 64) (s : State), Executes s c →
    ∃ t, exec (.mts c ra sr) s = .next t ∧
      (sr = 0 → (coreOf t (coreNum c)).sat = (readG s (coreNum c) ra).getLsbD 0 ∧
        (coreOf t (coreNum c)).ovf = (readG s (coreNum c) ra).getLsbD 1) ∧
      (sr = 3 → (coreOf t (coreNum c)).hwin = ((readG s (coreNum c) ra) >>> 47).setWidth 17) ∧
      (∀ n, c = .reed n →
        (sr = 2 → (coreOf t (coreNum c)).hostfn = (readG s (coreNum c) ra).toNat % 8) ∧
        (sr = 16 → (coreOf t (coreNum c)).event = (coreOf s (coreNum c)).event &&& ~~~((readG s (coreNum c) ra).setWidth 4)) ∧
        (sr = 17 → (coreOf t (coreNum c)).evmask = readG s (coreNum c) ra) ∧
        (sr = 18 → (coreOf t (coreNum c)).timer = readG s (coreNum c) ra)) ∧
      ((∃ k, c = .thread k) → sr ≠ 0 → sr ≠ 3 → Faults s t c 9 0) ∧
      ((∃ n, c = .reed n) → sr ≠ 0 → sr ≠ 2 → sr ≠ 3 → sr ≠ 16 → sr ≠ 17 → sr ≠ 18 → Faults s t c 9 0) ∧
      (∀ r, readG t (coreNum c) r = readG s (coreNum c) r) ∧ t.mem = s.mem

/-- Special registers that are reserved on a kind of core, and those that are RO (Table: special registers). -/
def Statement.srReserved (c : CoreId) (sr : Fin 64) : Bool :=
  match c with
  | .thread _ => decide (16 ≤ sr.val)
  | .reed _ => (decide (7 ≤ sr.val) && decide (sr.val ≤ 13)) || decide (19 ≤ sr.val)
def Statement.srReadOnly (c : CoreId) (sr : Fin 64) : Bool :=
  match c with
  | .thread _ => sr.val != 0 && sr.val != 3 && decide (sr.val ≤ 15)
  | .reed _ => [1, 4, 5, 6, 14, 15].contains sr.val

/-- R187: MFS of a reserved special register returns 0; MTS to a reserved or RO one faults with SPECIAL and changes nothing; MTS to EVENT,
the one W1C register, clears each bit written 1. -/
def Obligations.SpecialRegisterRules : Prop :=
  ∀ (c : CoreId) (rd ra : GReg) (sr : Fin 64) (s : State), Executes s c →
    (Statement.srReserved c sr = true → ∃ t, exec (.mfs c rd sr) s = .next t ∧ Writes s t c rd 0) ∧
    (Statement.srReserved c sr = true ∨ Statement.srReadOnly c sr = true → ∃ t, exec (.mts c ra sr) s = .next t ∧ Faults s t c 9 0 ∧
      (coreOf t (coreNum c)).hwin = (coreOf s (coreNum c)).hwin ∧ (coreOf t (coreNum c)).hostfn = (coreOf s (coreNum c)).hostfn ∧
      (coreOf t (coreNum c)).evmask = (coreOf s (coreNum c)).evmask ∧ (coreOf t (coreNum c)).timer = (coreOf s (coreNum c)).timer ∧
      (coreOf t (coreNum c)).event = (coreOf s (coreNum c)).event) ∧
    (∀ n, c = .reed n → sr = 16 → ∃ t, exec (.mts c ra sr) s = .next t ∧
      (coreOf t (coreNum c)).event = (coreOf s (coreNum c)).event &&& ~~~((readG s (coreNum c) ra).setWidth 4))

/-- R195, R203: YIELD falls through; FENCE of any kind without HOST falls through, and with SL or SS stalls while a disabled function
holds the core's host-window stores back; FENCE HOST stalls until its zero-length read
returns, and sends that read where its function is enabled; WFE falls through where an enabled event is set, and stalls
a Reed core otherwise. -/
def Statement.FencesAndWaits : Prop :=
  ∀ (c : CoreId) (s : State), Executes s c →
    (∃ t, exec (.yield c) s = .next t ∧ JumpsTo s t c (nextPc s c)) ∧
    (∀ kind : BitVec 6, kind ≠ 0 → kind.getLsbD 4 = false →
      ((kind.getLsbD 2 = false ∧ kind.getLsbD 3 = false) ∨ storesWait s (coreNum c) = 0) → ∃ t, exec (.fence c kind) s = .next t ∧ JumpsTo s t c (nextPc s c)) ∧
    (∀ kind : BitVec 6, kind.getLsbD 4 = false → kind.getLsbD 2 = true ∨ kind.getLsbD 3 = true → storesWait s (coreNum c) ≠ 0 →
      ∃ t, exec (.fence c kind) s = .next t ∧ Stalls s t c .memory) ∧
    (∀ kind : BitVec 6, kind.getLsbD 4 = true → ∃ t, exec (.fence c kind) s = .next t ∧ Stalls s t c .hostFence ∧
      (fnDisabled s (hostFn s (coreNum c)) = false → t.outs = s.outs ++ [.hostRead (hostFn s (coreNum c)) 0 0])) ∧
    (∀ n ra, c = .reed n → (coreOf s (coreNum c)).event.zeroExtend 64 &&& (coreOf s (coreNum c)).evmask ≠ 0 →
      ∃ t, exec (.wfe c ra) s = .next t ∧ JumpsTo s t c (nextPc s c)) ∧
    (∀ n ra, c = .reed n → (coreOf s (coreNum c)).event.zeroExtend 64 &&& (coreOf s (coreNum c)).evmask = 0 →
      ∃ t d, exec (.wfe c ra) s = .next t ∧ Stalls s t c (.wfe d) ∧ (readG s (coreNum c) ra = 0 ↔ d = none))

/-- R195: a stalled WFE ends, and the core moves on, once an enabled event is set or its count has run out. -/
def Statement.WfeWakes : Prop :=
  ∀ (n : Fin 32) (d : Option Nat) (s : State), stands s pllControl = false → running s (16 + n.val) = true →
    (coreOf s (16 + n.val)).stall = .wfe d →
    ((coreOf s (16 + n.val)).event.zeroExtend 64 &&& (coreOf s (16 + n.val)).evmask ≠ 0 ∨ (∃ e, d = some e ∧ e ≤ s.frc)) →
    ∃ t, exec (.wfeWake (.reed n)) s = .next t ∧ JumpsTo s t (.reed n) (nextPc s (.reed n)) ∧
      (coreOf t (16 + n.val)).stall = .none

/-- R189, R194 to R196: what faults instead of executing: BRK records its code; a reserved word, FENCE of kind 0 and WFE on
Causeway are ILLEGAL; a JALR to an unaligned target faults with ALIGN. -/
def Statement.FaultingInstructions : Prop :=
  ∀ (c : CoreId) (s : State), Executes s c →
    (∀ code : BitVec 6, ∃ t, exec (.brk c code) s = .next t ∧ Faults s t c 10 code.toNat) ∧
    (∀ w, ∃ t, exec (.reservedOpcode c w) s = .next t ∧ Faults s t c 1 0) ∧
    (∃ t, exec (.fence c 0) s = .next t ∧ Faults s t c 1 0) ∧
    (∀ k ra, c = .thread k → ∃ t, exec (.wfe c ra) s = .next t ∧ Faults s t c 1 0) ∧
    (∀ rd ra, (readG s (coreNum c) ra).toNat % 4 ≠ 0 →
      ∃ t, exec (.jalr c rd ra) s = .next t ∧ Faults s t c 2 (readG s (coreNum c) ra).toNat)

/-- R194: an instruction fetched outside the program faults with FETCH, recording the jump that led there. -/
def Statement.FetchFault : Prop :=
  ∀ (c : CoreId) (rd ra rb : GReg) (s : State), stands s pllControl = false → ready s (coreNum c) = true →
    inProgram (coreOf s (coreNum c)) (coreOf s (coreNum c)).pc = false →
    ∃ t, exec (.add c rd ra rb) s = .next t ∧ Faults s t c 8 (coreOf s (coreNum c)).jumpFrom.toNat

/-! Brofer: memory. -/

/-- R192, R337: a load of `n` bytes gives rd the little-endian value there, sign-extended or zero-extended, and changes nothing else
but that a load from SDRAM ends self-refresh. -/
def LoadGives (op : CoreId → GReg → GReg → BitVec 16 → Instr) (n : Nat) (ext : Nat → Word) : Prop :=
  ∀ c rd ra imm s a, Executes s c → DataAt s (coreNum c) (readG s (coreNum c) ra + imm.signExtend 64).toNat n a →
    ∃ t, exec (op c rd ra imm) s = .next t ∧ 
      Writes (requested s a) t c rd (ext (ofBytes ((List.range n).map (fun i => memByte s (a + i)))))

/-- R192: loads from data memories and SDRAM. -/
def Statement.Loads : Prop :=
  LoadGives .lb 1 (fun v => (BitVec.ofNat 8 v).signExtend 64) ∧ LoadGives .lbu 1 (fun v => BitVec.ofNat 64 v) ∧
  LoadGives .lh 2 (fun v => (BitVec.ofNat 16 v).signExtend 64) ∧ LoadGives .lhu 2 (fun v => BitVec.ofNat 64 v) ∧
  LoadGives .lw 4 (fun v => (BitVec.ofNat 32 v).signExtend 64) ∧ LoadGives .lwu 4 (fun v => BitVec.ofNat 64 v) ∧
  LoadGives .ld 8 (fun v => BitVec.ofNat 64 v)

/-- R192, R337: a store of `n` bytes writes the low bytes of the register in the rd field at ea, and changes no other byte, no general
register, no STATUS bit, no other core and, but that a store to SDRAM ends self-refresh, no register of a block. -/
def StorePuts (op : CoreId → GReg → GReg → BitVec 16 → Instr) (n : Nat) : Prop :=
  ∀ c rd ra imm s a, Executes s c → DataAt s (coreNum c) (readG s (coreNum c) ra + imm.signExtend 64).toNat n a →
    ∃ t, exec (op c rd ra imm) s = .next t ∧ BytesPut s t a n (readG s (coreNum c) rd) ∧
      (∀ r, readG t (coreNum c) r = readG s (coreNum c) r) ∧ (coreOf t (coreNum c)).pc = nextPc s c ∧
      (coreOf t (coreNum c)).sat = (coreOf s (coreNum c)).sat ∧ (coreOf t (coreNum c)).ovf = (coreOf s (coreNum c)).ovf ∧
      (∀ j, j ≠ coreNum c → coreOf t j = coreOf s j) ∧ t.outs = s.outs ∧
      ((coreOf s (coreNum c)).stepping = false → sameRegisters (requested s a) t)

/-- R192: stores to data memories and SDRAM. -/
def Statement.Stores : Prop := StorePuts .sb 1 ∧ StorePuts .sh 2 ∧ StorePuts .sw 4 ∧ StorePuts .sd 8

/-- R193, R203: an AMO gives rd the old value, sign-extended where 32 bits wide, and stores `f` of the old value, rb and the old rd.
With RL it waits for the core's own host-window stores that a disabled function holds back. -/
def AmoDoes (op : CoreId → GReg → GReg → GReg → Bool → Bool → Bool → Instr) (f32 : BitVec 32 → BitVec 32 → BitVec 32 → BitVec 32)
    (f64 : BitVec 64 → BitVec 64 → BitVec 64 → BitVec 64) : Prop :=
  ∀ c rd ra rb aq rl s a, Executes s c → (rl = true → storesWait s (coreNum c) = 0) →
    (DataAt s (coreNum c) (readG s (coreNum c) ra).toNat 4 a → (spaceOf s a = .sdram → regionOf s a = some 8) →
      ∃ t, exec (op c rd ra rb false aq rl) s = .next t ∧
        (let old := BitVec.ofNat 32 (ofBytes ((List.range 4).map (fun i => memByte s (a + i))))
         readG t (coreNum c) rd = (if rd = 0 then 0 else old.signExtend 64) ∧
         BytesPut s t a 4 ((f32 old ((readG s (coreNum c) rb).setWidth 32) ((readG s (coreNum c) rd).setWidth 32)).zeroExtend 64)) ∧
        (coreOf t (coreNum c)).pc = nextPc s c ∧ (∀ r, r ≠ rd → readG t (coreNum c) r = readG s (coreNum c) r) ∧
        (coreOf t (coreNum c)).sat = (coreOf s (coreNum c)).sat ∧ (coreOf t (coreNum c)).ovf = (coreOf s (coreNum c)).ovf ∧
        (∀ j, j ≠ coreNum c → coreOf t j = coreOf s j) ∧ ((coreOf s (coreNum c)).stepping = false → sameRegisters (requested s a) t)) ∧
    (DataAt s (coreNum c) (readG s (coreNum c) ra).toNat 8 a → (spaceOf s a = .sdram → regionOf s a = some 8) →
      ∃ t, exec (op c rd ra rb true aq rl) s = .next t ∧
        (let old := BitVec.ofNat 64 (ofBytes ((List.range 8).map (fun i => memByte s (a + i))))
         readG t (coreNum c) rd = (if rd = 0 then 0 else old) ∧
         BytesPut s t a 8 (f64 old (readG s (coreNum c) rb) (readG s (coreNum c) rd))) ∧
        (coreOf t (coreNum c)).pc = nextPc s c ∧ (∀ r, r ≠ rd → readG t (coreNum c) r = readG s (coreNum c) r) ∧
        (coreOf t (coreNum c)).sat = (coreOf s (coreNum c)).sat ∧ (coreOf t (coreNum c)).ovf = (coreOf s (coreNum c)).ovf ∧
        (∀ j, j ≠ coreNum c → coreOf t j = coreOf s j) ∧ ((coreOf s (coreNum c)).stepping = false → sameRegisters (requested s a) t))

/-- R193: the atomic operations. -/
def Statement.Atomics : Prop :=
  AmoDoes .amoSwap (fun _ b _ => b) (fun _ b _ => b) ∧ AmoDoes .amoAdd (fun a b _ => a + b) (fun a b _ => a + b) ∧
  AmoDoes .amoAnd (fun a b _ => a &&& b) (fun a b _ => a &&& b) ∧ AmoDoes .amoOr (fun a b _ => a ||| b) (fun a b _ => a ||| b) ∧
  AmoDoes .amoXor (fun a b _ => a ^^^ b) (fun a b _ => a ^^^ b) ∧
  AmoDoes .amoMin (fun a b _ => if b.toInt < a.toInt then b else a) (fun a b _ => if b.toInt < a.toInt then b else a) ∧
  AmoDoes .amoMax (fun a b _ => if a.toInt < b.toInt then b else a) (fun a b _ => if a.toInt < b.toInt then b else a) ∧
  AmoDoes .amoMinu (fun a b _ => if b.toNat < a.toNat then b else a) (fun a b _ => if b.toNat < a.toNat then b else a) ∧
  AmoDoes .amoMaxu (fun a b _ => if a.toNat < b.toNat then b else a) (fun a b _ => if a.toNat < b.toNat then b else a) ∧
  AmoDoes .amoCas (fun a b d => if a = d then b else a) (fun a b d => if a = d then b else a)

/-- R192, R193, R197: which accesses fault: ADDRESS before ALIGN, a misaligned AMO with ALIGN wherever it lies, and an aligned AMO
outside its spaces with ATOMIC. -/
def Statement.AccessFaults : Prop :=
  ∀ (c : CoreId) (s : State), Executes s c →
    (∀ rd ra imm, 2 ^ 48 ≤ (readG s (coreNum c) ra + imm.signExtend 64).toNat →
      (∃ t, exec (.ld c rd ra imm) s = .next t ∧ Faults s t c 3 (readG s (coreNum c) ra + imm.signExtend 64).toNat) ∧
      (∃ t, exec (.sd c rd ra imm) s = .next t ∧ Faults s t c 3 (readG s (coreNum c) ra + imm.signExtend 64).toNat)) ∧
    (∀ rd ra imm, (readG s (coreNum c) ra + imm.signExtend 64).toNat < 2 ^ 48 →
      (readG s (coreNum c) ra + imm.signExtend 64).toNat % 4 ≠ 0 →
      ∃ t, exec (.lw c rd ra imm) s = .next t ∧ Faults s t c 2 (readG s (coreNum c) ra + imm.signExtend 64).toNat) ∧
    (∀ rd ra rb aq rl, 2 ^ 48 ≤ (readG s (coreNum c) ra).toNat →
      ∃ t, exec (.amoAdd c rd ra rb true aq rl) s = .next t ∧ Faults s t c 3 (readG s (coreNum c) ra).toNat) ∧
    (∀ rd ra rb aq rl, (readG s (coreNum c) ra).toNat < 2 ^ 48 → (readG s (coreNum c) ra).toNat % 8 ≠ 0 →
      ∃ t, exec (.amoAdd c rd ra rb true aq rl) s = .next t ∧ Faults s t c 2 (readG s (coreNum c) ra).toNat) ∧
    (∀ rd ra rb aq rl a, (readG s (coreNum c) ra).toNat < 2 ^ 48 → (readG s (coreNum c) ra).toNat % 8 = 0 →
      resolveAlias (coreNum c) (readG s (coreNum c) ra).toNat = some a → (spaceOf s a = .host ∨ spaceOf s a = .regs) →
      ∃ t, exec (.amoAdd c rd ra rb true aq rl) s = .next t ∧ Faults s t c 0xB (readG s (coreNum c) ra).toNat)

/-- R201, R264: a load from the host window stalls its core and, where the function is enabled, sends the read; the data that returns
ends it, and a failed read faults with HOST, where no read of an earlier program of the core is still out. -/
def Statement.HostLoads : Prop :=
  (∀ (c : CoreId) (rd ra : GReg) (imm : BitVec 16) (s : State) (a : Nat), Executes s c →
    a = (readG s (coreNum c) ra + imm.signExtend 64).toNat → 2 ^ 47 ≤ a → a < 2 ^ 48 → a % 8 = 0 →
    ∃ t, exec (.ld c rd ra imm) s = .next t ∧ Stalls s t c (.hostLoad rd a 8 false) ∧
      (fnDisabled s (hostFn s (coreNum c)) = false →
        t.outs = s.outs ++ [.hostRead (hostFn s (coreNum c)) ((coreOf s (coreNum c)).hwin.toNat * 2 ^ 47 + (a - 2 ^ 47)) 8])) ∧
  (∀ (c : CoreId) (rd : GReg) (a n : Nat) (s : State) (bs : List Byte), stands s pllPcie = false →
    running s (coreNum c) = true → fnDisabled s (hostFn s (coreNum c)) = false → bs.length = n → .load c ∉ s.host.stale →
    (coreOf s (coreNum c)).stall = .hostLoad rd a n false →
    ∃ t, exec (.hostReadReturn c (.data bs)) s = .next t ∧ Writes s t c rd (BitVec.ofNat 64 (ofBytes bs)) ∧
      (coreOf t (coreNum c)).stall = .none) ∧
  (∀ (c : CoreId) (rd : GReg) (a n : Nat) (x : Bool) (s : State), stands s pllPcie = false →
    running s (coreNum c) = true → fnDisabled s (hostFn s (coreNum c)) = false → a < 2 ^ 64 → .load c ∉ s.host.stale →
    (coreOf s (coreNum c)).stall = .hostLoad rd a n x →
    ∃ t, exec (.hostReadReturn c .failed) s = .next t ∧ Faults s t c 7 a)

/-- R208, R211, R257, R263: EXIT waits, with the low 32 bits of ra as its result, until the operations it issued have completed; then
a Reed core is EXITED with the result in EXITVAL, and a thread is IDLE and unbound, its entry completed; while its function is disabled
the completion is held and the thread stays bound. The boot program's EXIT ends the boot. -/
def Statement.Exits : Prop :=
  (∀ (c : CoreId) (ra : GReg) (s : State), Executes s c →
    Acts s (.exit c ra) (fun t => Stalls s t c (.exit ((readG s (coreNum c) ra).setWidth 32)))) ∧
  (∀ (c : CoreId) (v : Reg32) (s : State), stands s pllControl = false → running s (coreNum c) = true →
    (coreOf s (coreNum c)).stall = .exit v → opsOf s (coreNum c) = [] →
    Acts s (.exitComplete c) (fun t =>
      (∀ n, c = .reed n → getF t RDC.STAT_STATE n = 6 ∧ regRaw t (RDC.EXITVAL.off n) = v ∧ t.mem = s.mem) ∧
      (∀ k, c = .thread k → fnDisabled s (hostFn s k) = false ∨ getF s CWY.TSTAT_BOUND k = 0 →
        getF t CWY.TSTAT_STATE k = 0 ∧ getF t CWY.TSTAT_BOUND k = 0 ∧
        (getF s CWY.TSTAT_BOUND k = 1 → (queueOf t (getF s CWY.TSTAT_QUEUE k)).entry = none) ∧
        (getF s CWY.TSTAT_BOUND k = 0 → getF t SEC.BOOTSTAT_STATE = 2)) ∧
      (∀ k e, c = .thread k → getF s CWY.TSTAT_BOUND k = 1 → fnDisabled s (hostFn s k) = true →
        (queueOf s (getF s CWY.TSTAT_QUEUE k)).entry = some e → e.ended = none →
        getF t CWY.TSTAT_BOUND k = 1 ∧ t.outs = s.outs ∧
        (queueOf t (getF s CWY.TSTAT_QUEUE k)).entry = some { e with ended := some (workNs s) })))

/-- R257, Table CWY.TCTL: CLEAR returns a FAULTED thread to IDLE, unless its completion is still to be posted: then it is held. A
thread in another state is left alone. -/
def Statement.ThreadClears : Prop :=
  ∀ (k : Fin 16) (s : State), stands s pllControl = false →
    Acts s (.threadClear k) (fun t => t.mem = s.mem ∧
      (getF s CWY.TSTAT_STATE k ≠ 2 → OnlyRegs s t []) ∧
      (getF s CWY.TSTAT_STATE k = 2 → (getF s CWY.TSTAT_BOUND k = 0 ∨ (queueOf s (getF s CWY.TSTAT_QUEUE k)).entry = none) →
        getF t CWY.TSTAT_STATE k = 0 ∧ getF t CWY.TSTAT_BOUND k = 0 ∧ (coreOf t k).stall = .none) ∧
      (getF s CWY.TSTAT_STATE k = 2 → getF s CWY.TSTAT_BOUND k = 1 →
        (queueOf s (getF s CWY.TSTAT_QUEUE k)).entry ≠ none → (coreOf t k).clearHeld = true ∧ getF t CWY.TSTAT_STATE k = 2))

/-- R214, R215: with debug unlocked, HALT halts a running core and abandons its stall, RESUME and STEP leave DEBUG, DBGDATA writes
the selected register, and a breakpoint halts the core before its instruction; HALT of a core that may not be halted is
refused. With debug locked, nothing happens. -/
def Statement.Debug : Prop :=
  ∀ (c : CoreId) (s : State), stands s pllControl = false →
    Acts s (.debugHalt c) (fun t =>
      (debugUnlocked s = false → OnlyRegs s t []) ∧
      (debugUnlocked s = true → haltRefused s (coreNum c) = true →
        getF t RDC.DBGCTL_REFUSED (coreNum c - 16) = 1 ∧ OnlyRegs s t [RDC.DBGCTL_REFUSED.off (coreNum c - 16)]) ∧
      (debugUnlocked s = true → haltRefused s (coreNum c) = false → running s (coreNum c) = true →
        coreState t (coreNum c) = stDebug (coreNum c) ∧ (coreOf t (coreNum c)).stall = .none ∧
        (coreOf t (coreNum c)).pc = (coreOf s (coreNum c)).pc ∧ (∀ r, readG t (coreNum c) r = readG s (coreNum c) r))) ∧
    (debugUnlocked s = true → coreState s (coreNum c) = stDebug (coreNum c) →
      Acts s (.debugResume c) (fun t => coreState t (coreNum c) = stRunning (coreNum c) ∧ (coreOf t (coreNum c)).stepping = false) ∧
      Acts s (.debugStep c) (fun t => coreState t (coreNum c) = stRunning (coreNum c) ∧ (coreOf t (coreNum c)).stepping = true) ∧
      (∀ v, Acts s (.dbgdataWrite c v) (fun t =>
        (∀ r : GReg, r ≠ 0 → debugSel s (coreNum c) = r.val → readG t (coreNum c) r = v ∧
          (coreOf t (coreNum c)).pc = (coreOf s (coreNum c)).pc) ∧
        (debugSel s (coreNum c) = 32 → (coreOf t (coreNum c)).pc = v ∧ ∀ r, readG t (coreNum c) r = readG s (coreNum c) r)))) ∧
    (ready s (coreNum c) = true → catches s (coreNum c) = true → (coreOf s (coreNum c)).bpSkip = false →
      inProgram (coreOf s (coreNum c)) (coreOf s (coreNum c)).pc = true → atBreakpoint s (coreNum c) = true →
      Acts s (.breakpointHalt c) (fun t => coreState t (coreNum c) = stDebug (coreNum c) ∧
        (coreOf t (coreNum c)).pc = (coreOf s (coreNum c)).pc ∧ (∀ r, readG t (coreNum c) r = readG s (coreNum c) r) ∧ t.mem = s.mem))

/-- R186, Table RDC.CTL: a doorbell sets bit 0 of EVENT, and a TIMER that has counted down sets bit 2; RUN starts a READY core,
whose domain is asked to wake, and stops a RUNNING one. -/
def Statement.ReedEvents : Prop :=
  ∀ (n : Fin 32) (s : State), stands s pllControl = false →
    Acts s (.reedDoorbell n) (fun t => (coreOf t (16 + n.val)).event = (coreOf s (16 + n.val)).event ||| 1 ∧ OnlyRegs { s with host := t.host } t []) ∧
    ((coreOf s (16 + n.val)).timer ≠ 0 → timerNow s (coreOf s (16 + n.val)) = 0 →
      Acts s (.reedTimerExpire n) (fun t => (coreOf t (16 + n.val)).timer = 0 ∧
        (coreOf t (16 + n.val)).event = (coreOf s (16 + n.val)).event ||| 4)) ∧
    (∀ run, Acts s (.reedRun n run) (fun t => getF t RDC.CTL_RUN n = (if run then 1 else 0) ∧
      getF t RDC.STAT_STATE n = (if run = true ∧ getF s RDC.STAT_STATE n = 2 then 3
        else if run = false ∧ getF s RDC.STAT_STATE n = 3 then 2 else getF s RDC.STAT_STATE n) ∧
      (∀ k, k ≠ 16 + n.val → coreOf t k = coreOf s k) ∧ t.mem = s.mem ∧ t.outs = s.outs))

/-- R213: LOAD of a Reed core begins the loading of its image, and is refused with LREF while one is loading, running or in DEBUG; the
end of a load, in a domain that is up, records its code, and returns the core to its former STATE where the image fails, or to RUNNING
where it was READY and RUN is 1 by now. -/
def Statement.ImageLoads : Prop :=
  (∀ (f : Fin 8) (v : Reg32) (n : Fin 32) (s : State), HostWrites s f (RDC.CTL_LOAD.off n) → v.getLsbD 1 = true →
    Acts s (.imageLoad f v n) (fun t =>
      (getF s RDC.STAT_STATE n ∈ [1, 3, 5] → getF t RDC.STAT_LREF n = 1 ∧ t.boot = s.boot) ∧
      (getF s RDC.STAT_STATE n ∉ [1, 3, 5] → getF t RDC.STAT_STATE n = 1 ∧
        mfind t.boot.loading n = some (getF s RDC.STAT_STATE n)))) ∧
  (∀ (n : Fin 32) (reply : HostReply) (s u : State) (old : Nat) (r : Fetched), stands s pllControl = false →
    mfind s.boot.loading n = some old → reedDown s n = false → bulkRoom s 0 ≠ 0 → readContainer s (getP s RDC.IMG n) reply = (r, u) → r ≠ .waits →
    Acts s (.imageLoadEnd n reply) (fun t => mfind t.boot.loading n = none ∧
      (∀ bs, r = .bytes bs → getF t RDC.STAT_LCODE n = imageCode u (some n) (some bs) % 16 ∧
        (imageCode u (some n) (some bs) ≠ 0 → getF t RDC.STAT_STATE n = (if old = 2 ∧ flag s RDC.CTL_RUN n = true then 3 else old % 8))) ∧
      ((∀ bs, r ≠ .bytes bs) → getF t RDC.STAT_LCODE n = imageCode u (some n) none % 16)))

/-! Brofer: waits, events and press operations. -/

/-- R234: WAITTIME returns the FRC at once where working time has reached its target, and waits elsewhere; WAITPOS returns what its
condition gives, and waits elsewhere, until its timeout where it names one. -/
def Statement.Waits : Prop :=
  ∀ (c : CoreId) (rd ra rb : GReg) (s : State), Executes s c → (coreOf s (coreNum c)).stored = false →
    (rb = 0 → Acts s (.waittime c rd ra rb) (fun t =>
      ((readG s (coreNum c) ra).toNat ≤ workNs s → Writes s t c rd (BitVec.ofNat 64 s.frc)) ∧
      (workNs s < (readG s (coreNum c) ra).toNat → Stalls s t c (.waitTime rd (readG s (coreNum c) ra))))) ∧
    (bits (readG s (coreNum c) rb).toNat 6 26 = 0 →
      ¬ ((readG s (coreNum c) rb).getLsbD 4 = true ∧ (readG s (coreNum c) rb).getLsbD 5 = true) →
      Acts s (.waitpos c rd ra rb) (fun t =>
        (∀ v, posReturn s (readG s (coreNum c) ra) (readG s (coreNum c) rb) true = some v → Writes s t c rd (BitVec.ofNat 64 v)) ∧
        (posReturn s (readG s (coreNum c) ra) (readG s (coreNum c) rb) true = none →
          Stalls s t c (.waitPos rd (readG s (coreNum c) ra) (readG s (coreNum c) rb)
            (if (readG s (coreNum c) rb).toNat / 2 ^ 32 = 0 then none
             else some (s.frc + 1250 * ((readG s (coreNum c) rb).toNat / 2 ^ 32)))))))

/-- R234: a waiting core goes on: WAITTIME with the FRC once working time reaches its target, and WAITPOS with 0 when its timeout
runs out. -/
def Statement.WaitsEnd : Prop :=
  ∀ (c : CoreId) (rd : GReg) (a b : Word) (d : Nat) (s : State), stands s pllControl = false → running s (coreNum c) = true →
    ((coreOf s (coreNum c)).stall = .waitTime rd a → a.toNat ≤ workNs s →
      Acts s (.waittimeReturn c) (fun t => Writes s t c rd (BitVec.ofNat 64 s.frc) ∧ (coreOf t (coreNum c)).stall = .none)) ∧
    ((coreOf s (coreNum c)).stall = .waitPos rd a b (some d) → d ≤ s.frc →
      Acts s (.waitposTimeout c) (fun t => Writes s t c rd 0 ∧ (coreOf t (coreNum c)).stall = .none))

/-- R223: WAITTAG with 0 returns 0 once no operation of the core is outstanding and waits until then; with a tag value it returns
the code word of the operation it names, 0xFF where the tag has been used again, and waits while the operation runs; a value
that names no tag of the core faults with TAG. -/
def Statement.TagWaits : Prop :=
  ∀ (c : CoreId) (rd ra : GReg) (s : State), Executes s c → (coreOf s (coreNum c)).stored = false →
    (readG s (coreNum c) ra = 0 → Acts s (.waittag c rd ra 0) (fun t =>
      (opsOf s (coreNum c) = [] → Writes s t c rd 0) ∧ (opsOf s (coreNum c) ≠ [] → Stalls s t c (.waitAll rd)))) ∧
    (∀ v, v = (readG s (coreNum c) ra).toNat → v ≠ 0 → bits v 10 6 = 0 → v % 1024 < (if isThread (coreNum c) then 512 else 16) →
      v / 65536 ≤ mget s.host.serials (poolOf (coreNum c)) 0 →
      Acts s (.waittag c rd ra 0) (fun t =>
        (∀ r, mfind s.host.results (1024 * poolOf (coreNum c) + v % 1024) = some r → r.serial = v / 65536 → Writes s t c rd r.code) ∧
        (∀ r, mfind s.host.results (1024 * poolOf (coreNum c) + v % 1024) = some r → v / 65536 < r.serial → Writes s t c rd 0xFF) ∧
        (mfind s.host.results (1024 * poolOf (coreNum c) + v % 1024) = none →
          Stalls s t c (.waitTag rd (1024 * poolOf (coreNum c) + v % 1024) (v / 65536))))) ∧
    (mget s.host.serials (poolOf (coreNum c)) 0 < (readG s (coreNum c) ra).toNat / 65536 →
      Acts s (.waittag c rd ra 0) (fun t => Faults s t c 0x23 0))

/-- R245: EVT with a code below 0x8000 raises nothing and gives 2; with another it is written to the function's event ring where
that has room, and gives 0. -/
def Statement.ProgramEvents : Prop :=
  ∀ (c : CoreId) (rd ra rb : GReg) (s : State) (f : Nat), Executes s c → (coreOf s (coreNum c)).stored = false → (readG s (coreNum c) rb).toNat < 2 ^ 19 →
    (isThread (coreNum c) = true → (readG s (coreNum c) rb).toNat < 2 ^ 16) →
    f = (if isThread (coreNum c) then hostFn s (coreNum c) else (readG s (coreNum c) rb).toNat / 2 ^ 16) →
    Acts s (.evt c rd ra rb) (fun t =>
      ((readG s (coreNum c) rb).toNat % 2 ^ 16 < 0x8000 → Writes s t c rd 2) ∧
      (0x8000 ≤ (readG s (coreNum c) rb).toNat % 2 ^ 16 → fnDisabled s f = false → (fnOf s f).lost = 0 → evRoom s f = true →
        readG t (coreNum c) rd = 0 ∧ (coreOf t (coreNum c)).pc = nextPc s c ∧
        getF t PCI.EVHEAD f = (getF s PCI.EVHEAD f + 1) % 2 ^ 32))

/-- How a tagged operation is issued (R206, R217 to R222): where no host-window store of the core is to be fenced first, the core takes
the tag it has waited for, or its first free one, the pool's SERIAL rises by 1, rd holds the tag value, and the operation goes to its
engine with the descriptor it has read. -/
def TagIssues (op : CoreId → GReg → GReg → GReg → HostReply → Instr) (sub : Nat) (fits : List Byte → Bool) : Prop :=
  ∀ c rd ra rb reply s u d bs tag, Executes s c → (coreOf s (coreNum c)).stored = false → (sub ≤ 4 → isThread (coreNum c) = true) →
    (readG s (coreNum c) ra).toNat % 8 = 0 → resolveAlias (coreNum c) (readG s (coreNum c) ra).toNat = some d →
    (rb = 0 ∨ ∃ r, resolveAlias (coreNum c) (readG s (coreNum c) rb).toNat = some r ∧ recordOpen s r = true) →
    readDesc s (coreNum c) sub d reply = (.bytes bs, u) → fits bs = true → takeTag s (coreNum c) = some tag →
    Acts s (op c rd ra rb reply) (fun t => ∃ o w, o.index = tag ∧ o.pool = poolOf (coreNum c) ∧ o.issuer = c ∧ o.sub = sub ∧
      o.serial = mget s.host.serials (poolOf (coreNum c)) 0 + 1 ∧ o.desc = bs ∧
      o.record = (if rb = 0 then none else resolveAlias (coreNum c) (readG s (coreNum c) rb).toNat) ∧
      w.host.ops = s.host.ops ++ [o] ∧ mget w.host.serials (poolOf (coreNum c)) 0 = o.serial ∧
      readG w (coreNum c) rd = (if rd = 0 then 0 else tagValue o) ∧ w.regs = u.regs ∧ w.mem = s.mem ∧
      t = showPlls (retire (startOp w o (afterDesc d bs.length reply)) (coreNum c) (nextPc s c) none))

/-- R217 to R222, R229 to R245: every tagged operation is issued in the same way. -/
def Obligations.TaggedOperations : Prop :=
  TagIssues .faccept 1 (fun _ => true) ∧ TagIssues .bload 2 (fun _ => true) ∧ TagIssues .bstage 3 (fun _ => true) ∧
  TagIssues .farmPosition 4 (fun d => field d 16 1 % 4 = 0) ∧ TagIssues .farmFollow 4 (fun d => field d 16 1 % 4 = 1) ∧
  TagIssues .farmWithdraw 4 (fun d => field d 16 1 % 4 = 2) ∧
  TagIssues .issueSluiceInflate 8 (fun d => field d 0 1 = 1 ∧ bits (field d 32 4) 0 2 = 0) ∧
  TagIssues .issueSluiceDeflate 8 (fun d => field d 0 1 = 1 ∧ bits (field d 32 4) 0 2 = 1) ∧
  TagIssues .issueDictLoad 8 (fun d => field d 0 1 = 1 ∧ bits (field d 32 4) 0 2 = 2) ∧
  TagIssues .issueStrip 8 (fun d => field d 0 1 = 2) ∧ TagIssues .issueHubctrl 8 (fun d => field d 0 1 = 3) ∧
  TagIssues .issueCopy 8 (fun d => field d 0 1 = 4) ∧ TagIssues .issueCapture 8 (fun d => field d 0 1 = 5) ∧
  TagIssues .mapset 9 (fun _ => true) ∧ TagIssues .scrsel 10 (fun _ => true) ∧
  TagIssues .axmoveAbsolute 11 (fun d => bits (field d 24 1) 4 3 = 0) ∧ TagIssues .axmoveRelative 11 (fun d => bits (field d 24 1) 4 3 = 1) ∧
  TagIssues .axmoveLimits 11 (fun d => bits (field d 24 1) 4 3 = 2) ∧ TagIssues .axmoveStop 11 (fun d => bits (field d 24 1) 4 3 = 3) ∧
  TagIssues .loopset 12 (fun _ => true) ∧ TagIssues .trig 13 (fun _ => true) ∧ TagIssues .mark 14 (fun _ => true) ∧
  TagIssues .lread 15 (fun _ => true)

/-- R206, R217 to R221: what an operation does first or instead: a core with a host-window store behind it stalls until a zero-length
read returns; a ledger operation on a Reed core faults with SUBOP, a misaligned descriptor address with ALIGN, and a core that has no
free tag stalls until it has one. -/
def Statement.IssueLimits : Prop :=
  ∀ (c : CoreId) (rd ra rb : GReg) (reply : HostReply) (s : State), Executes s c →
    ((coreOf s (coreNum c)).stored = true →
      Acts s (.trig c rd ra rb reply) (fun t => Stalls s t c .storeFence ∧ (fnDisabled s (hostFn s (coreNum c)) = false →
        t.outs = s.outs ++ [.hostRead (hostFn s (coreNum c)) 0 0]))) ∧
    ((coreOf s (coreNum c)).stored = false → ∀ n, c = .reed n →
      Acts s (.faccept c rd ra rb reply) (fun t => Faults s t c 0x22 0) ∧ Acts s (.bload c rd ra rb reply) (fun t => Faults s t c 0x22 0) ∧
      Acts s (.bstage c rd ra rb reply) (fun t => Faults s t c 0x22 0) ∧
      Acts s (.farmPosition c rd ra rb reply) (fun t => Faults s t c 0x22 0)) ∧
    ((coreOf s (coreNum c)).stored = false → (readG s (coreNum c) ra).toNat % 8 ≠ 0 →
      Acts s (.trig c rd ra rb reply) (fun t => Faults s t c 2 (readG s (coreNum c) ra).toNat) ∧
      Acts s (.mapset c rd ra rb reply) (fun t => Faults s t c 2 (readG s (coreNum c) ra).toNat)) ∧
    ((coreOf s (coreNum c)).stored = false → (readG s (coreNum c) ra).toNat % 8 = 0 → rb = 0 → takeTag s (coreNum c) = none →
      Acts s (.trig c rd ra rb reply) (fun t => Stalls s t c .noTag ∧ t.host.tagWaiters = s.host.tagWaiters ++ [coreNum c]) ∧
      Acts s (.loopset c rd ra rb reply) (fun t => Stalls s t c .noTag ∧ t.host.tagWaiters = s.host.tagWaiters ++ [coreNum c]))

/-- R237: a COPY that ends has its source's bytes at its destination, its operation is complete, and its tag has its result. -/
def Statement.CopyEnds : Prop :=
  ∀ (key : Nat) (reply : HostReply) (s u : State) (o : Op) (bs : List Byte), stands s pllControl = false → opOf s key = some o →
    o.sub = 8 → field o.desc 0 1 = 4 →
    engineRead s o.hostfn o.hwin (o.addr (field o.desc 8 8)) (field o.desc 24 4) reply = (.bytes bs, u) →
    (2 ^ 47 ≤ o.addr (field o.desc 8 8) → bulkRoom s o.hostfn ≠ 0) →
    Acts s (.copyComplete key reply) (fun t => opOf t key = none ∧
      (LedgersIdle s → o.record = none →
        spaceOf s (o.addr (field o.desc 16 8)) = .sdram ∨ spaceOf s (o.addr (field o.desc 16 8)) = .cdata →
        partlyPoisoned s (o.addr (field o.desc 16 8)) bs.length = false →
        ∀ i < bs.length, memByte t (o.addr (field o.desc 16 8) + i) = bs.getD i 0))

/-! Register accesses of the host. -/

/-- A function's aligned access of its BAR0 that comes to a register of its view: the register, and whether the view takes writes (R249,
R436, R471, R473). -/
def Statement.Reached (s : State) (f : Fin 8) (off home : Nat) (writable : Bool) (d : RegDef) : Prop :=
  stands s pllPcie = false ∧ (fnOf s f).d3 = false ∧ hostBlind s f off = false ∧ msixAt f off = none ∧ off % 4 = 0 ∧
  viewHome s f off = some (home, writable) ∧ regAt s home = some d

/-- Registers whose writes do more than their tables' access types say: each has rows, or statements, of its own. -/
def Statement.actsOnWrite (home : Nat) : Bool :=
  isGeoOffset home || constantReg home || debugRegister home || (debugCore home).isSome || (debugCore (home - 4)).isSome ||
  (match findReg home with
  | some d => hooked.any (fun h => h.base == d.base) ||
    [GLB.PROFILE, GLB.RST, GLB.BRST, PWR.SLEEPTMR, THM.THRESH, THM.POLICY, CWY.TCTL, RDC.CTL, LDG.RESOLVE, TWN.CTL, SLC.MIRECTL,
     HMK.RELOAD, LDE.HTIDX, LDE.GEOCTL, LDE.RATECAP, MER.CCCTL, MEM.CTL, LAN.PRBSCFG, LAN.EYECTL, PCI.QCTL, TIM.TDCTL, TIM.STEPFR,
     TIM.SNAP, TIM.TINCFG, TIM.SPD, ENC.CTL, AXS.CTL, AXS.TBLIDX, LOP.INJ, LOP.CAPCTL, SNS.CTL, SEC.DLCTL, SEC.FUSECTL, SEC.DBGCTL,
     SEC.DBGRESP, PIN.BANKCFG].any (fun h => h.base == d.base) || inRange home TIM.STEP.base (TIM.STEP.base + 15) || inRange home TIM.RATE.base (TIM.RATE.base + 15) ||
    inRange home LDG.NEXTFSN.base (LDG.NEXTFSN.base + 31)
  | none => false)

/-- What bit `i` of a field holds after a write of `v`, by its access type (R9, R10); `free` says whether an RWL field may change. -/
def Statement.bitAfter (fd : FieldDef) (free : Bool) (old v : Reg32) (i : Nat) : Bool :=
  match fd.access with
  | .rw | .rws => v.getLsbD i
  | .rwl => if free then v.getLsbD i else old.getLsbD i
  | .w1c => old.getLsbD i && !v.getLsbD i
  | .w1s => old.getLsbD i || v.getLsbD i
  | .ro | .rc | .wo => old.getLsbD i

/-- R8 to R11, R250, R262, R470 to R473: an aligned 32-bit write of a host function. From D3hot, and misaligned, it is an Unsupported
Request; where there is no register, or none that its view takes writes to, it changes nothing; each field of a register follows its
access type, an RWL field only while its owner is stopped, and an ignored RWL write is recorded in GLB.ACCERR; a pair's low half is
staged, and its high half commits both; a word of the MSI-X table is stored. Registers that act on a write are left to the statements of
their own rows. -/
def Statement.HostWrite (op : Fin 8 → Nat → Reg32 → Instr) : Prop :=
  ∀ (f : Fin 8) (off : Nat) (v : Reg32) (s : State), stands s pllPcie = false → Acts s (op f off v) (fun t =>
    (off % 4 ≠ 0 ∨ ((fnOf s f).d3 = true ∧ off % 4 = 0) → getF t PCI.ERR_UR = 1 ∧ OnlyRegs s t [PCI.ERR.base]) ∧
    (off % 4 = 0 → (fnOf s f).d3 = false → hostBlind s f off = true ∨ (msixAt f off = none ∧ (∀ h, viewHome s f off = some (h, true) →
      regAt s h = none)) → OnlyRegs s t []) ∧
    (∀ o, off % 4 = 0 → (fnOf s f).d3 = false → hostBlind s f off = false → msixAt f off = some o → o < 0x1000 →
      msixRead t f o = nth [v.toNat / 4 * 4, v.toNat, v.toNat, v.toNat % 2] (o % 16 / 4) ∧ t.mem = s.mem ∧ t.regs = (showPlls s).regs) ∧
    (∀ home d, Statement.Reached s f off home true d → Statement.actsOnWrite home = false →
      (d.half = .whole →
        (home ≠ CRS.PLLSTAT.base ∨ s.locksShown → ∀ fd ∈ d.fields, ∀ i, fd.lo ≤ i → i < fd.lo + fd.width → (regRaw t home).getLsbD i =
          Statement.bitAfter fd (fieldFree s d home v.toNat fd) (regRaw s home) v i) ∧
        (rwlBarred d (fieldFree s d home v.toNat) (regRaw s home).toNat v.toNat = true → getF t GLB.ACCERR_RWL_IGN = 1 ∧
          (flag s GLB.ACCERR_RWL_IGN = false → getF t GLB.ACCERR_ADDR_OFFSET = home) ∧
          (flag s GLB.ACCERR_RWL_IGN = true → getF t GLB.ACCERR_MULTI = 1)) ∧
        (rwlBarred d (fieldFree s d home v.toNat) (regRaw s home).toNat v.toNat = false → inRange home 0x1400000 0x1FFFFFF = false →
          OnlyRegs s t [home])) ∧
      (d.half = .lo → mfind t.stage (pairKey f home) = some v ∧ t.mem = s.mem ∧ t.regs = (showPlls s).regs) ∧
      (d.half = .hi → ∀ e, findReg (home - 4) = some e → mfind t.stage (pairKey f (home - 4)) = none ∧
        ((∃ fd ∈ d.fields, fd.access = .rw ∨ fd.access = .rws) ∨
          ((∃ fd ∈ d.fields, fd.access = .rwl) ∧ ownerStopped s d.owner (d.index home) = true) →
          regRaw t (home - 4) = BitVec.ofNat 32 (e.kept (stagedLow s f (home - 4))) ∧
          regRaw t home = BitVec.ofNat 32 (d.kept v.toNat)) ∧
        ((∀ fd ∈ d.fields, fd.access = .ro) → regRaw t (home - 4) = regRaw s (home - 4) ∧ regRaw t home = regRaw s home))))

/-- R9, R11, R374, R470 to R473: an aligned 32-bit read of a host function. From D3hot, and misaligned, it completes without data and is
an Unsupported Request; where there is no register it gives 0; a register gives its live value, and its RC fields are cleared; a
pair's low half gives its own live value and keeps that of the high half for the requester, whose next read of the high half gives
it. The level of the PROFILE ball, PIN, is open and left out. -/
def Statement.HostRead (op : Fin 8 → Nat → Instr) : Prop :=
  ∀ (f : Fin 8) (off : Nat) (s : State), stands s pllPcie = false → Acts s (op f off) (fun t =>
    t.mem = s.mem ∧ t.host = s.host ∧
    (off % 4 ≠ 0 ∨ ((fnOf s f).d3 = true ∧ off % 4 = 0) → getF t PCI.ERR_UR = 1 ∧ t.outs = s.outs ++ [.readDone f none] ∧
      OnlyRegs { s with outs := t.outs } t [PCI.ERR.base]) ∧
    (off % 4 = 0 → (fnOf s f).d3 = false → hostBlind s f off = true ∨ (msixAt f off = none ∧ (∀ h w, viewHome s f off = some (h, w) →
      regAt s h = none)) → t.outs = s.outs ++ [.readDone f (some 0)] ∧ OnlyRegs { s with outs := t.outs } t []) ∧
    (∀ home w d, Statement.Reached s f off home w d → home ≠ GLB.PROFILE.base →
      (d.half = .whole → snapped d = false → t.outs = s.outs ++ [.readDone f (some (BitVec.ofNat 32 (liveValue s home)))] ∧
        OnlyRegs { s with outs := t.outs } t [home] ∧
        (∀ fd ∈ d.fields, ∀ i, fd.lo ≤ i → i < fd.lo + fd.width →
          (regRaw t home).getLsbD i = (if fd.access = .rc then false else if home = 0x300000 then (regRaw t home).getLsbD i
            else (regRaw s home).getLsbD i))) ∧
      (d.half = .lo → t.outs = s.outs ++ [.readDone f (some (BitVec.ofNat 32 (liveValue s home)))] ∧
        mfind t.snaps (pairKey f (home + 4)) = some (BitVec.ofNat 32 (liveValue s (home + 4))) ∧ t.regs = (showPlls s).regs) ∧
      (d.half = .hi → t.outs = s.outs ++ [.readDone f (some ((mfind s.snaps (pairKey f home)).getD (BitVec.ofNat 32 (liveValue s home))))] ∧
        mfind t.snaps (pairKey f home) = none ∧ t.regs = (showPlls s).regs)))

/-- R8 to R11, R470 to R473: host writes of registers and of pairs. -/
def Statement.RegisterWrites : Prop := Statement.HostWrite .regWrite ∧ Statement.HostWrite .pairHiWrite

/-- R9, R11, R470 to R473: host reads of registers and of pairs. -/
def Statement.RegisterReads : Prop := Statement.HostRead .rcRead ∧ Statement.HostRead .pairLoRead

/-- R470: a request that is not one aligned 32-bit access, nor an aligned 64-bit one of the MSI-X table, is an Unsupported Request: a
write changes nothing but PCI.ERR.UR, and a read completes without data. -/
def Statement.UnsupportedRequests : Prop :=
  ∀ (f : Fin 8) (off len : Nat) (s : State), stands s pllPcie = false → ¬ (off % 4 = 0 ∧ len = 4) →
    ¬ (off % 8 = 0 ∧ len = 8 ∧ (msixAt f off).isSome = true) →
    Acts s (.unsupportedRequest f true off len) (fun t => getF t PCI.ERR_UR = 1 ∧ OnlyRegs s t [PCI.ERR.base]) ∧
    Acts s (.unsupportedRequest f false off len) (fun t => getF t PCI.ERR_UR = 1 ∧ t.outs = s.outs ++ [.readDone f none] ∧
      OnlyRegs { s with outs := t.outs } t [PCI.ERR.base])

/-- R18, R19: a keyed write of GLB.PROFILE that asks for the strap's profile, with VDD_CORE inside its range, confirms the profile; one
that asks for the other profile leaves MISMATCH and drives FAULT_OUT. A write without the key changes nothing of STATE. -/
def Statement.ProfileConfirms : Prop :=
  ∀ (f : Fin 8) (v : Reg32) (vdd : Nat) (s : State), HostWrites s f GLB.PROFILE.base → s.power.deferred = [] →
    Acts s (.profileConfirm f v vdd) (fun t =>
      (getF s GLB.PROFILE_STATE = 0 → bits v.toNat 16 8 = 0xA5 → bits v.toNat 8 1 = getF s GLB.PROFILE_STRAP →
        ((getF s GLB.PROFILE_STRAP = 0 ∧ 735 ≤ vdd ∧ vdd ≤ 775) ∨ (getF s GLB.PROFILE_STRAP = 1 ∧ 805 ≤ vdd ∧ vdd ≤ 845)) →
        getF t GLB.PROFILE_STATE = 1 ∧ getF t GLB.PROFILE_VCORE_LOW = 0 ∧ getF t GLB.PROFILE_REQ_DIFF = 0) ∧
      (getF s GLB.PROFILE_STATE = 0 → bits v.toNat 16 8 = 0xA5 → bits v.toNat 8 1 ≠ getF s GLB.PROFILE_STRAP →
        getF t GLB.PROFILE_STATE = 2 ∧ getF t GLB.PROFILE_REQ_DIFF = 1 ∧ .mismatch ∈ t.power.faults) ∧
      (bits v.toNat 16 8 ≠ 0xA5 → getF t GLB.PROFILE_STATE = getF s GLB.PROFILE_STATE))

/-- R421, R423: thresholds in ascending order up to 122 °C are taken whole and others refused; a broken sensor whose zone has
another is retired, and any other retirement is refused. -/
def Statement.ThermalWrites : Prop :=
  (∀ (f : Fin 8) (v : Reg32) (s : State), HostWrites s f THM.THRESH_WARN.base →
    Acts s (.threshWrite f v) (fun t =>
      (bits v.toNat 0 8 < bits v.toNat 8 8 → bits v.toNat 8 8 < bits v.toNat 16 8 → bits v.toNat 16 8 ≤ 122 →
        getF t THM.THRESH_WARN = bits v.toNat 0 8 ∧ getF t THM.THRESH_THROTTLE = bits v.toNat 8 8 ∧
        getF t THM.THRESH_CRITICAL = bits v.toNat 16 8 ∧ OnlyRegs s t [THM.THRESH.base]) ∧
      (¬ (bits v.toNat 0 8 < bits v.toNat 8 8 ∧ bits v.toNat 8 8 < bits v.toNat 16 8 ∧ bits v.toNat 16 8 ≤ 122) →
        getF t THM.ERR_THRESH = 1 ∧ OnlyRegs s t [THM.ERR.base]))) ∧
  (∀ (f : Fin 8) (k : Fin 24) (s : State), HostWrites s f THM.RETIRE_MASK.base → sensorRetired s k = false →
    Acts s (.sensorRetire f (BitVec.ofNat 32 (2 ^ k.val))) (fun t =>
      (sensorBroken s k = true → sensorRetired s (mate k) = false → sensorBroken s (mate k) = false →
        sensorRetired t k = true ∧ flagBit t THM.RETIRE_MASK k = true) ∧
      (sensorBroken s k = false → getF t THM.ERR_RETIRE_REF = 1 ∧ OnlyRegs s t [THM.ERR.base, THM.RETIRE_MASK.base])))

/-- R432, R433: a keyed write of WARM to GLB.RST is a warm reset with cause 2 unless something holds it, and waits then; OUTREL lets
RSTOUT_N go. -/
def Statement.ResetWrites : Prop :=
  (∀ (f : Fin 8) (v : Reg32) (s : State), HostWrites s f GLB.RST.base → v.getLsbD 0 = true → bits v.toNat 8 8 = 0x5A →
    Acts s (.glbRstWarm f v) (fun t =>
      (warmHeld s = false → t.power.line = .warm ∧ getF t GLB.RSTCAUSE_CAUSE = 2 ∧ t.frc = s.frc ∧ ∀ k, coreOf t k = Core.fresh) ∧
      (warmHeld s = true → s.power.heldReset = none → t.power.heldReset = some 2 ∧ t.power.line = .none))) ∧
  (∀ (f : Fin 8) (v : Reg32) (s : State), HostWrites s f GLB.RST.base → v.getLsbD 0 = false → v.getLsbD 1 = true →
    Acts s (.rstoutRelease f v) (fun t => t.power.rstoutLow = false ∧ t.mem = s.mem))

/-- R434: a block that is idle returns to its reset values, and one that is not is recorded in GLB.BRSTREF. Shown for Mere, the network
ports and the Dusiane Link. -/
def Statement.BlockResets : Prop :=
  ∀ (f : Fin 8) (s : State), HostWrites s f GLB.BRST.base →
    Acts s (.blockSoftReset f 1) (fun t =>
      (blockIdle s 0 = true → t.mere = MereState.reset ∧ ∀ o, 0x2400000 ≤ o → o < 0x2410000 → regRaw t o = regDefault o) ∧
      (blockIdle s 0 = false → getF t GLB.BRSTREF_MER = 1 ∧ t.mere = s.mere)) ∧
    Acts s (.blockSoftReset f 2) (fun t =>
      (blockIdle s 1 = true → ∀ o, 0x3100000 ≤ o → o < 0x3110000 → regRaw t o = regDefault o) ∧
      (blockIdle s 1 = false → getF t GLB.BRSTREF_ETH = 1)) ∧
    Acts s (.blockSoftReset f 32) (fun t =>
      (blockIdle s 5 = true → t.dlk = DlkState.reset ∧ ∀ o, 0x2000000 ≤ o → o < 0x2010000 → regRaw t o = regDefault o) ∧
      (blockIdle s 5 = false → getF t GLB.BRSTREF_DLK = 1 ∧ t.dlk = s.dlk))

/-- R436, R438: GO while the boot ROM waits for a host container starts its read from the address and length given. -/
def Statement.Downloads : Prop :=
  ∀ (f : Fin 8) (v : Reg32) (s : State), HostWrites s f SEC.DLCTL_GO.base → v.getLsbD 0 = true →
    Acts s (.downloadGo f v) (fun t =>
      (s.boot.stage = .hostIdle → getF t SEC.DLCTL_BUSY = 1 ∧ t.boot.stage = .hostRead ∧
        t.outs = (sendReads s 0 (getP s SEC.DLADDR) (getF s SEC.DLLEN)).outs) ∧
      (s.boot.stage ≠ .hostIdle → t.boot = s.boot ∧ t.outs = s.outs))

/-- R439, R440: a keyed PROGRAM of a free slot, or REVOKE where another slot still serves, starts a fuse operation; any other is
refused. -/
def Statement.Fuses : Prop :=
  (∀ (f : Fin 8) (v : Reg32) (s : State), HostWrites s f SEC.FUSECTL_OP.base → bits v.toNat 0 2 = 1 →
    Acts s (.fuseProgram f v) (fun t =>
      (bits v.toNat 8 8 = 0xC3 → flag s SEC.FUSECTL_BUSY = false → slotHeld s (bits v.toNat 2 2) = false →
        getF t SEC.FUSECTL_BUSY = 1 ∧ getF t SEC.FUSECTL_STATUS = 0 ∧ t.boot.fuse = some ⟨false, bits v.toNat 2 2, v.getLsbD 4, fuseHash s⟩) ∧
      (bits v.toNat 8 8 ≠ 0xC3 ∨ flag s SEC.FUSECTL_BUSY = true ∨ slotHeld s (bits v.toNat 2 2) = true →
        getF t SEC.FUSECTL_STATUS = 2 ∧ t.boot.fuse = s.boot.fuse))) ∧
  (∀ (f : Fin 8) (v : Reg32) (s : State), HostWrites s f SEC.FUSECTL_OP.base → bits v.toNat 0 2 = 2 →
    Acts s (.fuseRevoke f v) (fun t =>
      (bits v.toNat 8 8 = 0xC3 → flag s SEC.FUSECTL_BUSY = false →
        (∃ j : Fin 4, j.val ≠ bits v.toNat 2 2 ∧ slotHeld s j = true ∧ flag s SEC.KEYSTAT_REVOKED j = false) →
        getF t SEC.FUSECTL_BUSY = 1 ∧ t.boot.fuse = some ⟨true, bits v.toNat 2 2, v.getLsbD 4, fuseHash s⟩) ∧
      ((∀ j : Fin 4, j.val ≠ bits v.toNat 2 2 → slotHeld s j = true → flag s SEC.KEYSTAT_REVOKED j = true) →
        getF t SEC.FUSECTL_STATUS = 2 ∧ t.boot.fuse = s.boot.fuse)))

/-- R441: a challenge is twelve words, which nothing constrains; a submission whose signature a debug key made unlocks debug, and any
other counts a failure, the third of which locks debug out. -/
def Statement.DebugLock : Prop :=
  (∀ (f : Fin 8) (s : State), HostWrites s f SEC.DBGCTL_CHAL.base →
    Acts s (.debugChallenge f 1) (fun t => t.boot.challenged = true ∧
      ∀ k : Fin 12, getF t SEC.DBGCHAL k = Config.freeValue (s.fresh + k) % 2 ^ 32)) ∧
  (∀ (f : Fin 8) (s : State), HostWrites s f SEC.DBGCTL_CHAL.base → s.boot.challenged = true → flag s SEC.DBGCTL_LOCKOUT = false →
    Acts s (.debugSubmit f 2) (fun t => t.boot.challenged = false ∧
      (∀ k, debugSlot s = some k → getF t SEC.DBGCTL_UNLOCKED = 1 ∧ t.boot.fails = s.boot.fails) ∧
      (debugSlot s = none → t.boot.fails = s.boot.fails + 1 ∧ getF t SEC.DBGCTL_FAILS = min (s.boot.fails + 1) 3 ∧
        (2 ≤ s.boot.fails → getF t SEC.DBGCTL_LOCKOUT = 1))))

/-! The memory controller. -/

/-- Channels that are fitted, first to last. -/
def Sys2Proof.Machine.fitted (s : State) : List Nat := (upto 4).filter (chanOn s)

/-- R335, R333: START checks the configuration, and begins training or fails with the check's code; a request for a set point is
kept in REQ, and one that is trained begins a change. -/
def Statement.MemoryStarts : Prop :=
  (∀ (f : Fin 8) (v : Reg32) (s : State), HostWrites s f MEM.CTL_START.base → v.getLsbD 0 = true →
    getF s MEM.STAT_STATE = 0 ∨ getF s MEM.STAT_STATE = 3 →
    Acts s (.memStart f v) (fun t =>
      (memCheck s = 0 → getF t MEM.STAT_STATE = 1 ∧ getF t MEM.STAT_CODE = 0 ∧ getF t MEM.FREQ_BUSY = 1 ∧
        t.memctl.training = some (getF s MEM.FREQ_REQ) ∧ ∀ m ∈ fitted s, getF t MEM.TRSTAT_STEP m = 1) ∧
      (memCheck s ≠ 0 → getF t MEM.STAT_STATE = 3 ∧ getF t MEM.STAT_CODE = memCheck s))) ∧
  (∀ (f : Fin 8) (v : Reg32) (s : State), HostWrites s f MEM.FREQ_REQ.base →
    Acts s (.freqRequest f v) (fun t => getF t MEM.FREQ_REQ = v.toNat % 4 ∧
      (getF s MEM.STAT_STATE = 2 → s.memctl.change = none → v.toNat % 4 ≠ getF s MEM.FREQ_CUR → spTrained s (v.toNat % 4) = true →
        t.memctl.change = some (v.toNat % 4) ∧ getF t MEM.FREQ_BUSY = 1) ∧
      (s.memctl.change.isSome = true → s.memctl.training ≠ some (v.toNat % 4) → t.memctl.next = some (v.toNat % 4))))

/-- R332, R334, R335: the stages of training follow one another on every fitted channel; a rank that none replaces fails it; when
training ends with no failure STATE is READY with the set point valid; a frequency change ends with the set point in force. -/
def Statement.MemoryTrains : Prop :=
  (∀ (s : State) (n m : Nat), stands s pllMemory = false → getF s MEM.STAT_STATE = 1 → s.memctl.next = none →
    (fitted s).head? = some m → getF s MEM.TRSTAT_STEP m = n → n < 9 →
    Acts s (.trainingStep true) (fun t => (∀ k ∈ fitted s, getF t MEM.TRSTAT_STEP k = n + 1) ∧ getF t MEM.STAT_STATE = 1) ∧
    Acts s (.trainingStep false) (fun t => OnlyRegs s t [])) ∧
  (∀ (s : State) (sp : Nat), stands s pllMemory = false → getF s MEM.STAT_STATE = 1 → s.memctl.training = some sp → sp < 4 →
    s.memctl.next = none → LedgersIdle s →
    Acts s (.trainingDone []) (fun t => getF t MEM.STAT_STATE = 2 ∧ getF t MEM.STAT_CODE = 0 ∧ getF t MEM.FREQ_CUR = sp ∧
      getF t MEM.FREQ_BUSY = 0 ∧ (∀ m ∈ fitted s, flagBit t MEM.TRSTAT_SPVALID sp m = true ∧ getF t MEM.TRSTAT_STEP m = 0))) ∧
  (∀ (s : State) (sp : Nat) (m r : Fin 4), stands s pllMemory = false → getF s MEM.STAT_STATE = 1 → s.memctl.training = some sp →
    chanOn s m = true → r.val < chanRanks s m → spareOf s m = none → LedgersIdle s →
    Acts s (.trainingDone [(m, r)]) (fun t => getF t MEM.STAT_STATE = 3 ∧ getF t MEM.STAT_CODE = 4 ∧ getF t MEM.STAT_FAILCH = m ∧
      getF t MEM.ERR_TRAIN = 1)) ∧
  (∀ (s : State) (sp : Nat), stands s pllMemory = false → s.memctl.change = some sp → s.memctl.next = none →
    Acts s .freqChangeDone (fun t => getF t MEM.FREQ_CUR = sp % 4 ∧ getF t MEM.FREQ_BUSY = 0 ∧ t.memctl.change = none ∧ t.mem = s.mem))

/-- R324, R329, R336, R337: refreshes and MR4 reads of a rank in service are done at their times; patrol scrub passes to the next word
and counts what it corrects; self-refresh is entered after IDLE µs without a request where nothing migrates, and ends at a request. No byte of
memory changes. -/
def Statement.MemoryUpkeep : Prop :=
  ∀ (s : State), stands s pllMemory = false →
    (∀ (m r : Fin 4), chanOn s m = true → r.val < chanRanks s m → getF s MEM.STAT_STATE = 2 → flag s MEM.STAT_SELFREF = false →
      Acts s (.refresh m r) (fun t => mfind t.memctl.refreshed (4 * m.val + r.val) = some s.frc ∧ OnlyRegs { s with memctl := t.memctl } t []) ∧
      ∀ doubled, Acts s (.mr4Poll m r doubled) (fun t => mfind t.memctl.polled (4 * m.val + r.val) = some s.frc ∧
        (4 * m.val + r.val ∈ t.memctl.hot ↔ doubled = true) ∧ OnlyRegs { s with memctl := t.memctl } t [])) ∧
    (∀ (m : Fin 4), flag s MEM.SCRUB_EN = true → memUp s = true → flag s MEM.STAT_SELFREF = false → chanOn s m = true →
      getF s THM.ZSTAT_LEVEL 2 < 2 →
      Acts s (.scrubRead m .clean) (fun t =>
        mget t.memctl.scrub m 0 = (mget s.memctl.scrub m 0 + 1) % Nat.max 1 (logicalRanks s m * rankGib s m * 2 ^ 24) ∧
        OnlyRegs { s with memctl := t.memctl } t []) ∧
      (∀ r, r = rankAt s m (64 * mget s.memctl.scrub m 0) → getF s MEM.CFG_CETHR = 0 →
        Acts s (.scrubRead m .corrected) (fun t => getF t MEM.CECNT (4 * m + r) = satInc (getF s MEM.CECNT (4 * m + r)) ∧ t.mem = s.mem))) ∧
    (memUp s = true → getF s MEM.PWRCFG_IDLE ≠ 0 → s.memctl.lastAccess + 1250 * getF s MEM.PWRCFG_IDLE ≤ s.frc → (∀ m < 4, migrating s m = false) →
      Acts s .selfRefreshEntry (fun t => getF t MEM.STAT_SELFREF = 1 ∧ OnlyRegs { s with memctl := t.memctl } t [MEM.STAT.base])) ∧
    Acts s .selfRefreshExit (fun t => getF t MEM.STAT_SELFREF = 0 ∧ OnlyRegs s t [MEM.STAT.base])

/-- R330: migration copies a retiring rank 4 KiB at a time; at its end the spare is IN_SERVICE and the rank RETIRED. -/
def Statement.Migration : Prop :=
  ∀ (s : State) (m : Fin 4), stands s pllMemory = false →
    (migrating s m = true → memUp s = true → getF s MEM.MIGPTR m < rankGib s m * 2 ^ 18 →
      Acts s (.migrationPiece m []) (fun t => getF t MEM.MIGPTR m = getF s MEM.MIGPTR m + 1 ∧
        OnlyRegs { s with memctl := t.memctl } t [MEM.MIGPTR.off m])) ∧
    (∀ i p, (upto 4).find? (fun i => rankStat s m i == 2) = some i → spareOf s m = some p → rankGib s m * 2 ^ 18 ≤ getF s MEM.MIGPTR m →
      Acts s (.migrationDone m) (fun t => rankStat t m i = 3 ∧ rankStat t m p = 0 ∧ t.mem = s.mem ∧
        mfind t.memctl.ranks (4 * m.val + getF s MEM.RANKSTAT_LOG m) = some p))

/-! The serial lanes. -/

/-- R344, R353, Table LAN.LCFG: EN of a lane is refused with a code where its domain is held, its quad is not ready or its configuration
is wrong; EN 0 sends both sides to SLEEP. EN of a quad at a legal rate starts its PLL. -/
def Statement.LaneEnables : Prop :=
  (∀ (f : Fin 8) (v : Reg32) (l : Fin 48) (s : State), HostWrites s f (LAN.LCFG_EN.off l) →
    Acts s (.laneEnable f v l) (fun t =>
      (v.getLsbD 0 = true → flag s LAN.LCFG_EN l = false → domainHeld s (laneDomain l) = true →
        getF t LAN.LSTAT_CODE l = 1 ∧ getF t LAN.LCFG_EN l = 0) ∧
      (v.getLsbD 0 = true → flag s LAN.LCFG_EN l = false → domainHeld s (laneDomain l) = false → flag s LAN.QCFG_EN (l / 4) = false →
        getF t LAN.LSTAT_CODE l = 2 ∧ getF t LAN.LCFG_EN l = 0) ∧
      (v.getLsbD 0 = false → flag s LAN.LCFG_EN l = true →
        getF t LAN.LCFG_EN l = 0 ∧ getF t LAN.LSTAT_TXST l = 2 ∧ getF t LAN.LSTAT_RXST l = 2 ∧ getF t LAN.LSTAT_LOCK l = 0))) ∧
  (∀ (f : Fin 8) (v : Reg32) (q : Fin 12) (s : State), HostWrites s f (LAN.QCFG_EN.off q) → v.getLsbD 0 = true → flag s LAN.QCFG_EN q = false →
    Acts s (.quadEnable f v q) (fun t =>
      (rateLegal (getF s LAN.QRATE q) = true → getF t LAN.QCFG_EN q = 1 ∧ (quadOf t q).lockAt = some (s.frc + 50000)) ∧
      (rateLegal (getF s LAN.QRATE q) = false → getF t LAN.QSTAT_RATEREF q = 1 ∧ getF t LAN.QCFG_EN q = 0)))

/-- R341, R342: a rate written to a disabled quad is its rate; written to an enabled one it is refused where it is not legal, and
begins a change where nothing stands in its way; the change ends with the PLL locked. A PLL that fails takes the quad's receivers
out of lock. -/
def Statement.QuadRates : Prop :=
  (∀ (f : Fin 8) (v : Reg32) (q : Fin 12) (s : State), HostWrites s f (LAN.QRATE.off q) →
    Acts s (.quadRateWrite f v q) (fun t =>
      (flag s LAN.QCFG_EN q = false → regRaw t (LAN.QRATE.off q) = v) ∧
      (flag s LAN.QCFG_EN q = true → rateLegal v.toNat = false →
        getF t LAN.QSTAT_RATEREF q = 1 ∧ regRaw t (LAN.QRATE.off q) = regRaw s (LAN.QRATE.off q)) ∧
      (flag s LAN.QCFG_EN q = true → rateLegal v.toNat = true → flag s LAN.QSTAT_CHANGING q = false → (quadOf s q).waits = [] →
        regRaw s (LAN.QRATE.off q) ≠ v → (∀ l ∈ quadLanes q, getF s LAN.RXSTAT_STAGE l = 0 ∧ flag s LAN.LSTAT_LOCK l = false) →
        regRaw t (LAN.QRATE.off q) = v ∧ getF t LAN.QSTAT_CHANGING q = 1 ∧ getF t LAN.QSTAT_PLLLOCK q = 0))) ∧
  (∀ (q : Fin 12) (s : State), stands s pllLanes = false → flag s LAN.QSTAT_CHANGING q = true → (quadOf s q).want = none →
    Acts s (.quadRateDone q) (fun t => getF t LAN.QSTAT_CHANGING q = 0 ∧ getF t LAN.QSTAT_PLLLOCK q = 1 ∧ t.mem = s.mem)) ∧
  (∀ (q : Fin 12) (s : State), stands s pllLanes = false → flag s LAN.QCFG_EN q = true →
    (∀ l ∈ quadLanes q, flag s LAN.LSTAT_LOCK l = false) →
    Acts s (.quadPllFail q) (fun t => getF t LAN.QSTAT_PLLFAIL q = 1 ∧ getF t LAN.QSTAT_PLLLOCK q = 0 ∧
      ∀ l ∈ quadLanes q, getF t LAN.RXSTAT_STAGE l = 0))

/-- R345, R348, R350: a receiver trains stage by stage and begins again where a stage fails; reacquisition that fails trains from stage
1, and a signal that returns is detected. -/
def Statement.LaneTraining : Prop :=
  ∀ (l : Fin 48) (s : State), stands s pllLanes = false →
    (∀ n, getF s LAN.RXSTAT_STAGE l = n → n ≠ 0 → (quadOf s (l / 4)).waits = [] →
      (n < 5 → Acts s (.laneTrainingStage l true) (fun t => getF t LAN.RXSTAT_STAGE l = n + 1 ∧ t.mem = s.mem)) ∧
      Acts s (.laneTrainingStage l false) (fun t => getF t LAN.RXSTAT_STAGE l = 1 ∧ OnlyRegs s t [LAN.RXSTAT.off l])) ∧
    (rxActive s l = true → flag s LAN.LSTAT_LOCK l = false → flag s LAN.QSTAT_CHANGING (l / 4) = false →
      Acts s (.laneRetrain l) (fun t => getF t LAN.RXSTAT_STAGE l = 1 ∧ l.val ∉ t.lane.reacquiring ∧
        OnlyRegs { s with lane := t.lane } t [LAN.RXSTAT.off l])) ∧
    (rxActive s l = true → flag s LAN.LSTAT_SIGDET l = false →
      Acts s (.signalReturn l) (fun t => getF t LAN.LSTAT_SIGDET l = 1 ∧ (getF s LAN.RXSTAT_STAGE l = 0 → l.val ∈ t.lane.reacquiring) ∧
        OnlyRegs { s with lane := t.lane } t [LAN.LSTAT.off l]))

/-- R348, R349: a receiver that gains lock shows it; one that loses it counts the loss; errors are counted, and above ERRMAX they shut
the receiver down. Shown for lanes that no hub, twin link or port uses. -/
def Statement.LaneLock : Prop :=
  ∀ (l : Fin 48) (s : State), stands s pllLanes = false → isCamLane s l = true →
    (rxActive s l = true → flag s LAN.LSTAT_LOCK l = false → flag s LAN.QSTAT_CHANGING (l / 4) = false →
      (l.val ∈ s.lane.reacquiring ∨ getF s LAN.RXSTAT_STAGE l = 5) →
      Acts s (.laneLock l) (fun t => getF t LAN.LSTAT_LOCK l = 1 ∧ getF t LAN.LSTAT_SIGDET l = 1 ∧ getF t LAN.RXSTAT_STAGE l = 0)) ∧
    (flag s LAN.LSTAT_LOCK l = true → ∀ signal, Acts s (.laneLockLost l signal) (fun t => getF t LAN.LSTAT_LOCK l = 0 ∧
      getF t LAN.LSTAT_SIGDET l = (if signal then 1 else 0) ∧ getF t LAN.LOCKCNT l = satInc (getF s LAN.LOCKCNT l))) ∧
    (∀ n, Acts s (.laneErrsd l n) (fun t => getF t LAN.BLKERR l = satAdd (getF s LAN.BLKERR l) n ∧
      (n ≤ Nat.max 1 (getF s LAN.CFG_ERRMAX) → OnlyRegs s t [LAN.BLKERR.off l]) ∧
      (flag s LAN.LSTAT_LOCK l = true → Nat.max 1 (getF s LAN.CFG_ERRMAX) < n →
        getF t LAN.LSTAT_ERRSD l = 1 ∧ getF t LAN.LSTAT_LOCK l = 0)))

/-- R346, R351, R352: a density window records its count and freezes adaptation below TDMIN; a scan begins at GO and ends with its
result; the PRBS checker counts while it is in step, and CLR clears its counts. -/
def Statement.LaneChecks : Prop :=
  ∀ (l : Fin 48) (s : State),
    (stands s pllLanes = false → rxActive s l = true → getF s LAN.RXCFG_ADAPT l ≠ 0 → ∀ n, Acts s (.tdWindow l n) (fun t =>
      getF t LAN.RXSTAT_TDENS l = min 255 (n / 256) ∧ getF t LAN.RXSTAT_FROZEN l = (if n < 256 * getF s LAN.RXCFG_TDMIN l then 1 else 0) ∧
      OnlyRegs s t [LAN.RXSTAT.off l])) ∧
    (stands s pllLanes = false → flag s LAN.EYECTL_BUSY l = true → ∀ n, Acts s (.eyeScanDone l n) (fun t =>
      getF t LAN.EYECTL_BUSY l = 0 ∧ getF t LAN.EYERES l = min 0xFFFFFFFF n ∧ OnlyRegs s t [LAN.EYECTL.off l, LAN.EYERES.off l])) ∧
    (stands s pllLanes = false → rxActive s l = true → getF s LAN.LCFG_TEST l = 1 → checksRefused s = false →
      ∀ sync compared errors, Acts s (.prbsSyncChange l sync compared errors) (fun t =>
        getF t LAN.PRBSCFG_SYNC l = (if sync then 1 else 0) ∧
        (getF s LAN.PRBSCFG_SYNC l = 1 → getP t LAN.PRBSBITS l = min (2 ^ 48 - 1) (getP s LAN.PRBSBITS l + compared) ∧
          getP t LAN.PRBSERR l = min (2 ^ 48 - 1) (getP s LAN.PRBSERR l + errors)) ∧
        (getF s LAN.PRBSCFG_SYNC l = 0 → OnlyRegs s t [LAN.PRBSCFG.off l]))) ∧
    (∀ (f : Fin 8) (v : Reg32), HostWrites s f (LAN.EYECTL_GO.off l) → v.getLsbD 15 = true → checksRefused s = false →
      Acts s (.eyeScan f v l) (fun t => getF t LAN.EYECTL_BUSY l = 1 ∧ OnlyRegs s t [LAN.EYECTL.off l])) ∧
    (∀ (f : Fin 8) (v : Reg32), HostWrites s f (LAN.PRBSCFG_CLR.off l) → v.getLsbD 4 = true →
      Acts s (.prbsClear f v l) (fun t => getP t LAN.PRBSERR l = 0 ∧ getP t LAN.PRBSBITS l = 0))

/-- R353: a side of a lane sleeps as deep as its owner asks within LAN.PWR, and wakes to ACTIVE. -/
def Statement.LaneSleep : Prop :=
  ∀ (l : Fin 48) (s : State), stands s pllLanes = false → flag s LAN.LCFG_EN l = true →
    (∀ deep : Bool, (if deep then 2 else 1) ≤ Nat.min 2 (getF s LAN.PWR_TXMIN l) → getF s LAN.LSTAT_TXST l ≠ 2 →
      getF s LAN.LSTAT_TXST l ≠ (if deep then 2 else 1) →
      Acts s (.laneSleep l true deep) (fun t => getF t LAN.LSTAT_TXST l = (if deep then 2 else 1) ∧
        getF t LAN.LSTAT_RXST l = getF s LAN.LSTAT_RXST l)) ∧
    (getF s LAN.LSTAT_TXST l ≠ 0 → isDeadLane s l = false → isCamLane s l = false →
      Acts s (.laneWake l true) (fun t => getF t LAN.LSTAT_TXST l = 0)) ∧
    (getF s LAN.LSTAT_RXST l ≠ 0 → isDeadLane s l = false →
      Acts s (.laneWake l false) (fun t => getF t LAN.LSTAT_RXST l = 0 ∧
        (getF s LAN.LSTAT_RXST l = 3 → getF t LAN.RXSTAT_STAGE l = 1) ∧
        (getF s LAN.LSTAT_RXST l ≠ 3 → l.val ∈ t.lane.reacquiring)))

/-! Power, clocks and temperature. -/

/-- R413 to R415: a domain that issues no work is GATED, powers down once its HOLD has passed and nothing keeps it awake, and
enters OFF, or RETAIN for PD_MAPS with RETEN 1; a request wakes it, or lets a GATED one go on at once. -/
def Obligations.PowerDomains : Prop :=
  ∀ (d : Fin 14) (s : State), d ≠ 0 →
    (domState s d = 2 → Acts s (.domainGate d) (fun t => domState t d = 3 ∧ t.mem = s.mem ∧ OnlyRegs s t [PWR.DSTAT.off d])) ∧
    (domState s d = 3 → keepAwake s d = false → getF s PWR.DOM_HOLD d ≠ 0 →
      Acts s (.domainPowerDown d) (fun t => domState t d = 4 ∧ OnlyRegs s t [PWR.DSTAT.off d])) ∧
    (domState s d = 3 → (keepAwake s d = true ∨ getF s PWR.DOM_HOLD d = 0) → Acts s (.domainPowerDown d) (fun t => OnlyRegs s t [])) ∧
    (domState s d = 4 → keepAwake s d = false → d.val ∉ s.power.queued → Acts s (.domainEntryEnd d) (fun t =>
      domState t d = if d = 10 ∧ flag s PWR.DOM_RETEN 10 = true then 5 else 0)) ∧
    (domState s d = 4 → keepAwake s d = true → Acts s (.domainEntryEnd d) (fun t => domState t d = 2 ∧ t.mem = s.mem)) ∧
    (s.power.tripped = false → s.power.deep = none → domainHeld s d = false → Acts s (.domainWake d (.request false)) (fun t =>
      (domState s d = 0 ∨ domState s d = 5 → domState t d = 1) ∧ (domState s d = 3 ∨ domState s d = 4 → domState t d = 2) ∧
      (domState s d = 1 ∨ domState s d = 2 → domState t d = domState s d))) ∧
    (domState s d = 1 → (d = 1 ∨ domState s 1 = 2 ∨ domState s 1 = 3) → Acts s (.domainWake d .ready) (fun t => domState t d = 2))

/-- R416, R417, R456: deep sleep begins where no domain is awake, DEEPEN is set and the crystal runs; an enabled source ends it
and is recorded in PWR.LASTWAKE. -/
def Statement.DeepSleep : Prop :=
  ∀ (s : State),
    ((∀ d, 1 ≤ d → d ≤ 13 → domState s d = 0 ∨ domState s d = 5) → flag s PWR.CFG_DEEPEN = true → s.power.xtal = true →
      s.power.deep = none → s.power.tripped = false →
      Acts s .deepSleepEntry (fun t => t.power.deep = some s.frc ∧ OnlyRegs { s with power := t.power } t [])) ∧
    ((∃ d, 1 ≤ d ∧ d ≤ 13 ∧ domState s d = 2) → Acts s .deepSleepEntry (fun t => t.power.deep = s.power.deep)) ∧
    (∀ src : WakeSource, s.power.deep.isSome = true →
      flagBit s PWR.WAKESRC (match src with | .i2c => 1 | .heartbeat => 2 | .clkreq => 3) = true →
      Acts s (.deepSleepWake src) (fun t => t.power.deep = none ∧
        getF t PWR.LASTWAKE_SRC = (match src with | .i2c => 2 | .heartbeat => 3 | .clkreq => 4))) ∧
    (s.power.deep.isSome = true → flagBit s PWR.WAKESRC 0 = true →
      Acts s .sleeptmrExpire (fun t => t.power.deep = none ∧ getF t PWR.LASTWAKE_SRC = 1 ∧ getF t PWR.SLEEPTMR = 0)) ∧
    Acts s .xtal32Start (fun t => t.power.xtal = true ∧ OnlyRegs { s with power := t.power } t [])

/-- R418, R419: the loss of REFCLK_SYS is seen while the crystal runs, recorded in SYSLOST and driven on FAULT_OUT, and its return
ends it; a PLL that loses lock is recorded in PLLFAIL and what it clocks stands until it locks again. -/
def Statement.Clocks : Prop :=
  ∀ (s : State),
    (s.power.xtal = true → s.time.stopped = false → Acts s .refclkSysLost (fun t => t.time.stopped = true ∧
      getF t CRS.CLKERR_SYSLOST = 1 ∧ .clockLost ∈ t.power.faults ∧ t.frc = s.frc ∧ t.mem = s.mem)) ∧
    Acts s .refclkSysReturn (fun t => t.time.stopped = false ∧ t.power = s.power ∧ t.mem = s.mem) ∧
    (∀ k : Fin 6, Acts s (.pllLockLoss k) (fun t => flagBit t CRS.CLKERR_PLLFAIL k = true ∧ k.val ∈ t.power.pllDown ∧
      stands t k = true ∧ flagBit t CRS.PLLSTAT_LOCK k = false ∧ t.mem = s.mem)) ∧
    (∀ k : Fin 6, Acts s (.pllRelock k) (fun t => k.val ∉ t.power.pllDown ∧ OnlyRegs { s with power := t.power } t []))

/-- R420 to R428: a sample is shown in THM.TEMP; a dwell of 2 ms moves a zone's level up at once and down a level at a time below
each threshold; grace ends; and TRIP records its zone, takes every domain down and keeps the unit tripped. -/
def Statement.Thermal : Prop :=
  (∀ (s : State) (readings : List (Option Int)) (i : Fin 24) (v : Int), s.power.heldReset = none →
    readings.getD i none = some v → -2 ^ 15 ≤ v → v < 2 ^ 15 →
    Acts s (.thermalSample readings) (fun t => sensorT t i = v ∧ t.frc = s.frc)) ∧
  (∀ (s : State) (z : Fin 12) (l : Nat), 1 ≤ l → l ≤ 3 → zoneLevel s z < l → dwelt s (mfind (zoneOf s z).above l) = true →
    (∀ k, l < k → k ≤ 3 → dwelt s (mfind (zoneOf s z).above k) = false) →
    Acts s (.zoneLevelChange z) (fun t => zoneLevel t z = l)) ∧
  (∀ (s : State) (z : Fin 12) (l : Nat), 1 ≤ l → l ≤ zoneLevel s z → dwelt s (mfind (zoneOf s z).below l) = true →
    (∀ k, zoneLevel s z < k → k ≤ 3 → dwelt s (mfind (zoneOf s z).above k) = false) →
    (∀ k, 1 ≤ k → k < l → dwelt s (mfind (zoneOf s z).below k) = false) →
    Acts s (.zoneLevelChange z) (fun t => zoneLevel t z = l - 1)) ∧
  (∀ (s : State) (z : Fin 12), flag s THM.ZSTAT_GRACE z = true →
    Acts s (.thermalGraceEnd z) (fun t => flag t THM.ZSTAT_GRACE z = false ∧ zoneLevel t z = zoneLevel s z)) ∧
  (∀ (s : State) (z : Fin 12), s.power.tripped = false → tripDue s z = true →
    Acts s (.trip z) (fun t => t.power.tripped = true ∧ getF t THM.STAT_TRIPPED = 1 ∧ getF t THM.STAT_TRIPZONE = z ∧
      .trip ∈ t.power.faults ∧ (∀ d, 1 ≤ d → d ≤ 13 → domState t d = 0) ∧ ∀ k, stands t k = true))

/-! Reset and boot. -/

/-- R431 to R433: power-on reset returns every register but the key slots to its reset value and asserts reset; a warm reset keeps the
free-running counter and what SDRAM holds, stops every core, and records its cause; it waits while something holds it. -/
def Statement.Resets : Prop :=
  (∀ (s : State), s.boot.fuse = none →
    (Acts s .powerOnReset (fun t => t.power.line = .powerOn ∧ t.frc = 0 ∧ (∀ k, coreOf t k = Core.fresh) ∧ t.mem = [] ∧
      (∀ o, (∀ k : Fin 4, o ≠ SEC.KEYSTAT.off k) → o ≠ 0x300000 → regRaw t o = regDefault o))) ∧
    (Acts s .mossBrownout (fun t => t.power.line = .powerOn ∧ t.frc = 0 ∧ (∀ k, coreOf t k = Core.fresh) ∧ t.mem = [] ∧
      (∀ k : Fin 4, regRaw t (SEC.KEYSTAT.off k) = regRaw s (SEC.KEYSTAT.off k))))) ∧
  (∀ (s : State), s.power.line = .none →
    Acts s .warmReset (fun t =>
      (warmHeld s = false → t.power.line = .warm ∧ getF t GLB.RSTCAUSE_CAUSE = (if s.power.tripped then 4 else 1) ∧
        t.frc = s.frc ∧ (∀ k, coreOf t k = Core.fresh) ∧ ∀ a, a < 2 ^ 39 → memByte t a = memByte s a) ∧
      (warmHeld s = true → s.power.heldReset = none → t.power.heldReset = some 1 ∧ t.power.line = .none ∧ t.mem = s.mem)))

/-- R435 to R438: at release the straps are sampled and the ROM takes the source they select; a container that fails its checks sends
the ROM to the alternate slot, and one that passes starts thread 0. -/
def Statement.Boots : Prop :=
  (∀ (s : State) (straps : Fin 64) (vdd : Nat), s.power.line ≠ .none → s.power.tripped = false →
    Acts s (.bootStart straps vdd) (fun t => t.power.line = .none ∧ getF t GLB.PROFILE_STRAP = bits straps 2 1 ∧
      (straps.val % 4 = 0 → t.boot.stage = .primary) ∧ (straps.val % 4 = 1 → t.boot.stage = .hostIdle) ∧
      (straps.val % 4 = 3 → getF t SEC.BOOTSTAT_STATE = 3 ∧ getF t SEC.BOOTSTAT_CODE = 0xF))) ∧
  (∀ (s : State) (c : Option (List Byte)), stands s pllControl = false →
    (s.boot.stage = .primary → imageCode s none c ≠ 0 → Acts s (.containerChecked c) (fun t => t.boot.stage = .alternate ∧ t.mem = s.mem)) ∧
    (s.boot.stage = .primary ∨ s.boot.stage = .alternate ∨ s.boot.stage = .hostRead → s.power.deferred = [] → imageCode s none c = 0 →
      Acts s (.containerChecked c) (fun t => getF t SEC.BOOTSTAT_STATE = 1 ∧ getF t CWY.TSTAT_STATE 0 = 1 ∧ t.boot.stage = .none))) ∧
  (∀ (s : State) (o : FuseOp), s.boot.fuse = some o → s.power.heldReset = none →
    Acts s (.fuseDone false) (fun t => getF t SEC.FUSECTL_BUSY = 0 ∧ getF t SEC.FUSECTL_STATUS = 3 ∧ t.boot.hashes = s.boot.hashes) ∧
    Acts s (.fuseDone true) (fun t => getF t SEC.FUSECTL_BUSY = 0 ∧ getF t SEC.FUSECTL_STATUS = 1 ∧
      (o.revoke = false → o.slot < 4 → slotHeld t o.slot = true ∧ mfind t.boot.hashes o.slot = some o.hash) ∧
      (o.revoke = true → o.slot < 4 → flag t SEC.KEYSTAT_REVOKED o.slot = true ∧ t.boot.hashes = s.boot.hashes)))

/-- R460, R465: an accepted edge of a GPIO input sets its bit of GPIOEVT while its bank is on and the clock runs; an I2C write sets the
offset of the register that an I2C read returns. -/
def Statement.PinEvents : Prop :=
  (∀ (s : State) (n : Fin 32) (level : Bool), flagBit s PWR.WAKEGPIO n = false →
    bit s.power.gpio n ≠ level → flag s PIN.BANKCFG_EN 3 = true → s.time.stopped = false →
    Acts s (.gpioEdge n level) (fun t => flagBit t PIN.GPIOEVT n = true ∧ bit t.power.gpio n = level ∧ t.mem = s.mem)) ∧
  (∀ (s : State) (o : Reg32), Acts s (.i2cTransaction (.write o none)) (fun t => t.boot.i2cOffset = o.toNat ∧ t.mem = s.mem)) ∧
  (∀ (s : State), s.boot.i2cOffset = GLB.ID.base →
    Acts s (.i2cTransaction .read) (fun t => t.outs = s.outs ++ [.i2c (regRaw s GLB.ID.base)]))

/-! The host interface. -/

/-- R252, R253, R259: doorbells inside the ring set their index and others set DBERR; a queue whose checks pass is enabled with its
indexes at 0, and one whose checks fail shows the code; an idle queue is disabled at once; RESUME lets a stopped queue go on. -/
def Statement.Queues : Prop :=
  (∀ (s : State) (q : Fin 64) (f : Fin 8) (v : Reg32), queueFn s q = f → flag s PCI.FNCTL_FLR_BUSY f = false → v.toNat < 2 ^ 16 →
    (HostWrites s f (PCI.SQDB_INDEX.off q) → Acts s (.sqDoorbell q v) (fun t =>
      (v.toNat < ringSize s q → getF t PCI.SQDB_INDEX q = v.toNat ∧ OnlyRegs s t [PCI.SQDB.off q]) ∧
      (ringSize s q ≤ v.toNat → getF t PCI.QSTAT_DBERR q = 1 ∧ OnlyRegs s t [PCI.QSTAT.off q]))) ∧
    (HostWrites s f (PCI.CQDB_INDEX.off q) → Acts s (.cqDoorbell q v) (fun t => t.mem = s.mem ∧
      (v.toNat < ringSize s q → getF t PCI.CQDB_INDEX q = v.toNat) ∧
      (ringSize s q ≤ v.toNat → getF t PCI.QSTAT_DBERR q = 1 ∧ OnlyRegs s t [PCI.QSTAT.off q])))) ∧
  (∀ (s : State) (q : Fin 64) (f : Fin 8) (v : Reg32), HostWrites s f (PCI.QCFG_EN.off q) →
    (flag s PCI.QCFG_EN q = false → v = regRaw s (PCI.QCFG.off q) ||| 1 → Acts s (.queueEnable f q v) (fun t =>
      getF t PCI.QSTAT_CODE q = queueCheck s q ∧
      (queueCheck s q = 0 → getF t PCI.QCFG_EN q = 1 ∧ getF t PCI.QSTAT_STATE q = 1 ∧ getF t PCI.SQDB_INDEX q = 0 ∧
        getF t PCI.QSTAT_HEAD q = 0 ∧ queueOf t q = Queue.fresh) ∧
      (queueCheck s q ≠ 0 → getF t PCI.QCFG_EN q = 0 ∧ OnlyRegs s t [PCI.QSTAT.off q]))) ∧
    (flag s PCI.QCFG_EN q = true → v.getLsbD 0 = false → Acts s (.queueDisable f q v) (fun t =>
      ((queueOf s q).entry = none → getF t PCI.QCFG_EN q = 0 ∧ getF t PCI.QSTAT_STATE q = 0) ∧
      ((queueOf s q).entry ≠ none → getF t PCI.QCFG_EN q = 1 ∧ (queueOf t q).disablePending = true)))) ∧
  (∀ (s : State) (q : Fin 64) (f : Fin 8), HostWrites s f (PCI.QCTL_RESUME.off q) →
    (flag s CWY.TSTAT_BOUND (getF s PCI.QCFG_THREAD q) = false ∨ getF s CWY.TSTAT_QUEUE (getF s PCI.QCFG_THREAD q) ≠ q) →
    Acts s (.queueResume f q) (fun t => (getF s PCI.QSTAT_STATE q = 3 → getF t PCI.QSTAT_STATE q = 1) ∧
      (getF s PCI.QSTAT_STATE q ≠ 3 → OnlyRegs s t [])))

/-- R254 to R257: a queue whose turn it is reads its next entry, and its HEAD and QSEQ advance; the block of a placed entry, without
PCRC, starts its thread with the entry's arguments in g1 to g4. -/
def Statement.Entries : Prop :=
  (∀ (s : State) (q : Fin 64) (reply : HostReply), stands s pllPcie = false → fetchable s q = true → queueTurn s q = true →
    Acts s (.entryFetch q reply) (fun t => getF t PCI.QSEQ q = (getF s PCI.QSEQ q + 1) % 2 ^ 32 ∧
      getF t PCI.QSTAT_HEAD q = (getF s PCI.QSTAT_HEAD q + 1) % ringSize s q % 2 ^ 16 ∧
      ∃ more, t.outs = s.outs ++ .hostRead (queueFn s q) (getP s PCI.SQBASE q + 64 * getF s PCI.QSTAT_HEAD q) 64 :: more)) ∧
  (∀ (s : State) (q : Fin 64) (e : Entry) (bs : List Byte) (k : Nat), stands s pllPcie = false →
    .program q ∉ s.host.stale → (queueOf s q).entry = some e → e.started = false → e.placed = true → fnDisabled s (queueFn s q) = false →
    e.flags.testBit 1 = false → k = getF s PCI.QCFG_THREAD q →
    Acts s (.programFetchDone q (.data bs)) (fun t => getF t CWY.TSTAT_STATE k = 1 ∧ getF t CWY.TSTAT_QUEUE k = q ∧
      getF t CWY.TSTAT_BOUND k = 1 ∧ (coreOf t k).pc = BitVec.ofNat 64 (e.base + e.entry) ∧
      readG t k 1 = e.args.getD 0 0 ∧ readG t k 2 = e.args.getD 1 0 ∧ readG t k 3 = e.args.getD 2 0 ∧ readG t k 4 = e.args.getD 3 0))

/-- R260 to R262: enabling an event ring empties it; a write of EVTAIL is its tail; unmasking a vector sends its pending message, unless
its function is masked. -/
def Statement.EventRings : Prop :=
  (∀ (s : State) (f : Fin 8) (v : Reg32), HostWrites s f (PCI.EVCFG_EN.off f) → v.getLsbD 0 = true → (fnOf s f).lost = 0 →
    (fnOf s f).releases = [] → s.boot.failDue = false →
    Acts s (.eventRingEnable f v) (fun t => getF t PCI.EVCFG_EN f = 1 ∧ getF t PCI.EVHEAD f = 0 ∧ getF t PCI.EVTAIL f = 0 ∧
      t.mem = s.mem ∧ t.outs = s.outs)) ∧
  (∀ (s : State) (f : Fin 8) (v : Reg32), HostWrites s f (PCI.EVTAIL.off f) →
    Acts s (.evtailWrite f v) (fun t => getF t PCI.EVTAIL f = v.toNat ∧
      ((fnOf s f).lost = 0 → (fnOf s f).releases = [] → OnlyRegs s t [PCI.EVTAIL.off f]))) ∧
  (∀ (s : State) (f : Fin 8) (vec : Fin 256), stands s pllPcie = false → (fnOf s f).d3 = false →
    hostBlind s f (msixBase f + 16 * vec + 12) = false →
    ((vectorOf s f vec).pending = false → Acts s (.msixUnmask f vec) (fun t => (vectorOf t f vec).masked = false ∧ t.outs = s.outs)) ∧
    ((vectorOf s f vec).pending = true → (fnOf s f).config.masked = true → Acts s (.msixUnmask f vec) (fun t =>
      (vectorOf t f vec).masked = false ∧ (vectorOf t f vec).pending = true ∧ t.outs = s.outs)) ∧
    ((vectorOf s f vec).pending = true → (fnOf s f).config.masked = false → Acts s (.msixUnmask f vec) (fun t =>
      (vectorOf t f vec).masked = false ∧ (vectorOf t f vec).pending = false ∧
      t.outs = s.outs ++ [.msi f (vectorOf s f vec).addr (vectorOf s f vec).data])))

/-- R246, R249, R262 to R267: Bus Master Enable and FNCTL.EN follow their writes, but PF0's EN, and a configuration write that sets Bus
Master Enable leaves what it gives in the configuration space; a function enters D3hot and leaves it; FLR
clears BME and shows FLR_BUSY until it is complete. -/
def Statement.Functions : Prop :=
  ∀ (s : State) (f : Fin 8), stands s pllPcie = false →
    Acts s (.functionDisable f .busMaster) (fun t => getF t PCI.FNCTL_BME f = 0 ∧ OnlyRegs s t [PCI.FNCTL.off f]) ∧
    (f ≠ 0 → Acts s (.functionDisable f .fnctl) (fun t => getF t PCI.FNCTL_EN f = 0 ∧ OnlyRegs s t [PCI.FNCTL.off f])) ∧
    Acts s (.functionDisable 0 .fnctl) (fun t => OnlyRegs s t []) ∧
    (∀ config, Acts s (.functionEnable f (.busMaster config)) (fun t => getF t PCI.FNCTL_BME f = 1 ∧ (fnOf t f).config = config)) ∧
    Acts s (.functionEnable f .fnctl) (fun t => getF t PCI.FNCTL_EN f = 1 ∧ (fnOf t f).config = (fnOf s f).config) ∧
    (∀ d3, Acts s (.powerStateChange f d3) (fun t => (fnOf t f).d3 = d3)) ∧
    (flag s PCI.FNCTL_FLR_BUSY f = false → Acts s (.flr f) (fun t => getF t PCI.FNCTL_FLR_BUSY f = 1 ∧ getF t PCI.FNCTL_BME f = 0)) ∧
    (flag s PCI.FNCTL_FLR_BUSY f = true → Acts s (.flrComplete f) (fun t => getF t PCI.FNCTL_FLR_BUSY f = 0 ∧ t.mem = s.mem))

/-- R246, R48, R201: PCI.LINK shows the link's speed, width and power state; a read that runs into its completion timeout sets ERR.CTO
and fails: a core's load faults with HOST. -/
def Statement.PcieLink : Prop :=
  ∀ (s : State), stands s pllPcie = false →
    (∀ (speed : Fin 6) (width : Fin 17) (pm : Fin 4), speed ≠ 0 → width = 1 ∨ width = 4 ∨ width = 8 ∨ width = 16 →
      Acts s (.pcieLinkChange speed width pm) (fun t => getF t PCI.LINK_SPEED = speed ∧ getF t PCI.LINK_WIDTH = width ∧
        getF t PCI.LINK_PM = pm ∧ OnlyRegs s t [PCI.LINK.base])) ∧
    (∀ (width : Fin 17) (pm : Fin 4), Acts s (.pcieLinkChange 0 width pm) (fun t => getF t PCI.LINK_SPEED = 0 ∧ OnlyRegs s t [PCI.LINK.base])) ∧
    (∀ o, Acts s (.pcieCompletionTimeout o) (fun t => getF t PCI.ERR_CTO = 1)) ∧
    (∀ (c : CoreId) (rd : GReg) (a n : Nat) (x : Bool), running s (coreNum c) = true → fnDisabled s (hostFn s (coreNum c)) = false →
      a < 2 ^ 64 → .load c ∉ s.host.stale → (coreOf s (coreNum c)).stall = .hostLoad rd a n x →
      Acts s (.pcieCompletionTimeout (.load c)) (fun t => Faults s t c 7 a))

/-! The page ledger. -/

/-- R272, R281, R282, R276: a flushing read that returns the FSN makes its record visible: an ACCEPTED record completes its FACCEPT, a
FIRING record makes its frame FIRING after those before it, and a disposition RELEASES it, unless the group halts; any other answer is a
mirror fault. In a pair the active also waits for its standby to hold the record. -/
def Statement.MirrorReads : Prop :=
  ∀ (s : State) (g : Fin 4) (fsn : Nat) (f : Frame), stands s pllControl = false → LedgersIdle s →
    HasFrame s g fsn f → f.flushDone = false → f.flushBad = false → mirrorOpen s g = true →
    (∀ p ∈ groupFrames s g, p.flushDone = false) →
    (∀ bs, field bs 0 8 = fsn % 2 ^ 64 → isActive s = true → f.partnerHas = false →
      (f.flush = .accepted → Acts s (.facceptDurable g fsn (.data bs)) (fun t => FrameThen t g fsn (fun e => e = { f with flushDone := true }))) ∧
      (f.flush = .firing → Acts s (.frameRelease g fsn (.data bs)) (fun t => FrameThen t g fsn (fun e => e = { f with flushDone := true }))) ∧
      (f.flush = .disposition → Acts s (.frameReleased g fsn (.data bs)) (fun t => FrameThen t g fsn (fun e => e = { f with flushDone := true })))) ∧
    (∀ bs, field bs 0 8 = fsn % 2 ^ 64 → f.partnerHas = true ∨ isActive s = false →
      (f.flush = .accepted → Acts s (.facceptDurable g fsn (.data bs)) (fun t =>
        FrameThen t g fsn (fun e => e.flush = .none ∧ e.op = none) ∧ ∀ k, f.op = some k → opOf t k = none)) ∧
      (f.flush = .firing → f.state = 3 → getF s LDG.STAT_STATE g ≠ 2 → (∀ p ∈ groupFrames s g, p.fsn < fsn → p.state ≠ 3) →
        Acts s (.frameRelease g fsn (.data bs)) (fun t => FrameThen t g fsn (fun e => e = { f with state := 4, flush := .none, flushDone := false, firingHeld := f.partnerHas }))) ∧
      (f.flush = .disposition → haltedBelow s g (fsn + 1) = false →
        Acts s (.frameReleased g fsn (.data bs)) (fun t => FrameThen t g fsn (fun e => e.released = true)))) ∧
    (f.flush = .accepted → Acts s (.facceptDurable g fsn .failed) (fun t => getF t LDG.ERR_MIRROR = 1 ∧
      FrameThen t g fsn (fun e => e = { f with flushBad := true }))) ∧
    (f.flush = .firing → Acts s (.frameRelease g fsn .failed) (fun t => getF t LDG.ERR_MIRROR = 1 ∧
      FrameThen t g fsn (fun e => e = { f with flushBad := true }))) ∧
    (f.flush = .disposition → Acts s (.frameReleased g fsn .failed) (fun t => getF t LDG.ERR_MIRROR = 1 ∧
      FrameThen t g fsn (fun e => e = { f with flushBad := true })))

/-- R274 to R276, R281: an unmarked frame that meets its condition is COMMITTED and a marked one SPOILED for its reason, once every
frame before it is recorded; a disposition is recorded in its turn; a failed flushing read is repeated after its record, as
the rings show it. A unit without authority records none. -/
def Statement.Dispositions : Prop :=
  ∀ (s : State) (g : Fin 4) (fsn : Nat) (f : Frame), stands s pllControl = false → LedgersIdle s →
    HasFrame s g fsn f →
    (authority s = false → Acts s (.dispositionRecord g) (fun t => OnlyRegs s t [])) ∧
    (authority s = true → (∀ p ∈ groupFrames s g, p = f ∨ p.recorded = true) → f.recorded = false → ¬ (getF s LDG.STAT_STATE g = 2 ∧ getP s LDG.HALTFSN g = fsn) →
      (commitReady s f = true → Acts s (.frameCommit g fsn) (fun t => FrameThen t g fsn (fun e =>
        e.state = 5 ∧ e.reason = 0 ∧ e.recorded = true ∧ e.tDisp = workNs s ∧ e.flush = .disposition))) ∧
      (∀ m, f.mark = some m → spoilReady s f = true → Acts s (.frameSpoil g fsn) (fun t => FrameThen t g fsn (fun e =>
        e.state = 6 ∧ e.reason = m.reason ∧ e.recorded = true ∧ e.tDisp = workNs s))) ∧
      (f.disposed = true → Acts s (.dispositionRecord g) (fun t => FrameThen t g fsn (fun e =>
        e.state = f.state ∧ e.reason = f.reason ∧ e.recorded = true)))) ∧
    (commitReady s f = false → Acts s (.frameCommit g fsn) (fun t => OnlyRegs s t [])) ∧
    (f.flushBad = true → mirrorOpen s g = true → Acts s (.mirrorRetry g fsn) (fun t =>
      FrameThen t g fsn (fun e => e = { f with flushBad := false }) ∧
      t.outs = s.outs ++ [.hostWrite 0 (mirrorAddr s g fsn) f.record, .hostRead 0 (mirrorAddr s g fsn) 8]))

/-- R281, R284, R291: the mirror of a group is enabled, and disabled only once every frame is RELEASED; NEXTFSN is seeded in
UNSEEDED only; RESOLVE ends HALTED. -/
def Obligations.LedgerCommands : Prop :=
  ∀ (s : State) (f : Fin 8) (g : Fin 4) (v : Reg32), LedgersIdle s →
    (HostWrites s f (LDG.MIRCFG_EN.off g) →
      (flag s LDG.MIRCFG_EN g = false → v = regRaw s (LDG.MIRCFG.off g) ||| 1 → Acts s (.mirrorEnable f v g) (fun t =>
        getF t LDG.MIRCFG_EN g = 1 ∧ getF t LDG.STAT_STATE g = (if getF s LDG.STAT_STATE g = 1 then 0 else getF s LDG.STAT_STATE g))) ∧
      (flag s LDG.MIRCFG_EN g = true → v.getLsbD 0 = false → Acts s (.mirrorDisable f v g) (fun t =>
        ((∃ p ∈ groupFrames s g, p.released = false) → getF t LDG.ERR_MIR_OFF_REF = 1 ∧ getF t LDG.MIRCFG_EN g = 1) ∧
        ((∀ p ∈ groupFrames s g, p.released = true) → getF t LDG.MIRCFG_EN g = 0 ∧
          getF t LDG.STAT_STATE g = (if getF s LDG.STAT_STATE g = 0 then 1 else getF s LDG.STAT_STATE g))))) ∧
    (HostWrites s f (LDG.NEXTFSN.base + 8 * g + 4) → ∀ w, w = stagedLow s f (LDG.NEXTFSN.base + 8 * g) + 2 ^ 32 * v.toNat →
      Acts s (.ledgerSeed f v g) (fun t =>
        (getF s LDG.STAT_STATE g = 3 → w ≠ 0 → getP t LDG.NEXTFSN g = w ∧ getP t LDG.OLDEST g = w ∧
          getF t LDG.STAT_STATE g = (if flag s LDG.MIRCFG_EN g then 0 else 1)) ∧
        (getF s LDG.STAT_STATE g ≠ 3 ∨ w = 0 → getF t LDG.ERR_SEED_IGN = 1 ∧ getP t LDG.NEXTFSN g = getP s LDG.NEXTFSN g))) ∧
    (HostWrites s f (LDG.RESOLVE_GO.off g) → v.getLsbD 2 = true → v.toNat % 4 ≠ 0 → Acts s (.ledgerResolve f v g) (fun t =>
      (getF s LDG.STAT_STATE g = 2 → getF t LDG.STAT_STATE g = (if flag s LDG.MIRCFG_EN g then 0 else 1)) ∧
      (getF s LDG.STAT_STATE g ≠ 2 → getF t LDG.STAT_STATE g = getF s LDG.STAT_STATE g)))

/-! The Dusiane Link. -/

/-- R131, R132, R135, R144 to R149, R154: what comes from a hub is counted and taken. An ACK clears SILENT, shows the hub's claim and
raises the HELD and DONE points of its streams, and its reports are acted on; a NAK of frames not yet held queues them again, and of
others is stale; a malformed frame is discarded; a telemetry report is written to memory. What comes on a lane of no enabled hub
of that number, or an ACK or a NAK of a hub that is DOWN, changes nothing. -/
def Obligations.LinkReceipts : Prop :=
  ∀ (s : State) (l : Fin 48) (h : Fin 40), stands s pllLanes = false →
    (∀ claim payload, LedgersIdle s → claim < 2 ^ 32 → Acts s (.ackReceived l h claim payload) (fun t =>
      (fromHub s l h = false ∨ hubState s h = 0 → OnlyRegs s t []) ∧
      (fromHub s l h = true → hubState s h ≠ 0 → replayFull s = false →
        (ackReports payload = [] → getF t DLK.HUBCLAIM h = claim ∧ getF t DLK.HUBSTAT_SILENT h = 0 ∧ (hubOf t h).ackFrc = some s.frc ∧
          (hubOf t h).upFrc = some s.frc ∧ (hubOf t h).fired = Nat.max (hubOf s h).fired (field payload 0 8)) ∧
        (∀ e, ackReports payload = [] → ackPoints payload = [e] →
          (e.ctrl = true → (hubOf t h).ctrlHeld = Nat.max (hubOf s h).ctrlHeld e.held ∧
            ∀ x ∈ t.dlk.replay, x.inStream true h 0 = true → e.held < x.seq) ∧
          (e.ctrl = false →
            (streamOf t (streamKey h e.slot)).held = Nat.max (streamOf s (streamKey h e.slot)).held e.held ∧
            (streamOf t (streamKey h e.slot)).done = Nat.max (streamOf s (streamKey h e.slot)).done e.done ∧
            ∀ x ∈ t.dlk.replay, x.inStream false h e.slot = true → e.held < x.seq)) ∧
        (∀ r, ackPoints payload = [] → ackReports payload = [r] → inPair s = false → claim ≤ ownClaim s →
          (r.code = 1 → (ownersOf s (fun q => q.stream == streamKey h r.slot && decide (r.seq ≤ q.seq) && decide (q.seq < r.seq + r.count)) = []) →
            getF t DLK.HUBCNT (8 * h + 2) = satAdd (getF s DLK.HUBCNT (8 * h + 2)) r.count ∧ getF t DLK.ERR_FRAME_LATE = 1) ∧
          (r.code = 4 → r.detail / 4 % 2 = unitId s → (linkLane t (hubLane s h (r.detail % 4))).lost = true ∧
            (linkLane t (hubLane s h (r.detail % 4))).hubClean = false) ∧
          (r.code = 5 → r.detail / 4 % 2 = unitId s → (linkLane t (hubLane s h (r.detail % 4))).hubClean = true) ∧
          (r.code = 0 ∨ 10 ≤ r.code → getF t DLK.HUBCNT (8 * h + 5) = satAdd (getF s DLK.HUBCNT (8 * h + 5)) 1 ∧
            getF t DLK.ERR_FORMAT = 1))))) ∧
    (∀ payload, Acts s (.nakReceived l h payload) (fun t =>
      (fromHub s l h = false ∨ hubState s h = 0 → OnlyRegs s t []) ∧
      (fromHub s l h = true → hubState s h ≠ 0 →
        getF t DLK.HUBCNT (8 * h) = satAdd (getF s DLK.HUBCNT (8 * h)) (field payload 0 1) ∧ (hubOf t h).upFrc = some s.frc ∧
        t.dlk.streams = s.dlk.streams ∧ t.mem = s.mem ∧ t.outs = s.outs ∧
        (∀ a held, field payload 0 1 = 1 → a = field payload 8 8 →
          held = (if bit a 12 = true then (hubOf s h).ctrlHeld else (streamOf s (streamKey h (a % 128))).held) →
          (a / 65536 ≤ held → getF t DLK.ERR_NAK_STALE = 1 ∧ t.dlk.replay = s.dlk.replay) ∧
          (held < a / 65536 → ∀ x ∈ s.dlk.replay, x.inStream (bit a 12) h (a % 128) = true →
            a / 65536 ≤ x.seq → x.seq < a / 65536 + field payload 16 2 → x.sent = true → x.queued = false →
            bit a 12 = true ∨ work32 s / 65536 + getF s DLK.CFG_RETXLEAD * 100 * 65536 ≤ x.fireAt → { x with queued := true } ∈ t.dlk.replay))))) ∧
    (∀ before blocks n, n = receiveBlocks none (descramble before.toNat blocks) → Acts s (.upstreamFrameDiscard ⟨l, before, blocks⟩) (fun t =>
      getF t LAN.BLKERR l = satAdd (getF s LAN.BLKERR l) n.2 ∧ t.dlk = s.dlk ∧ t.mem = s.mem ∧ t.outs = s.outs ∧
      (n.1 = 0 → OnlyRegs s t [LAN.BLKERR.off l]) ∧
      (n.1 ≠ 0 → laneHubs s l ≠ [] → getF t DLK.ERR_FORMAT = 1) ∧
      (∀ k : Fin 40, ((laneHubs s l).map Prod.fst).count k.val = 1 →
        getF t DLK.HUBCNT (8 * k + 5) = satAdd (getF s DLK.HUBCNT (8 * k + 5)) n.1))) ∧
    (∀ payload a, a = telemetryAt s h payload.length → Acts s (.telemetryReport l h payload) (fun t =>
      (fromHub s l h = false → OnlyRegs s t []) ∧
      (fromHub s l h = true → (hubOf t h).upFrc = some s.frc ∧ t.host = s.host ∧ t.outs = s.outs ∧
        (∀ x, x < a ∨ a + payload.length ≤ x → memByte t x = memByte s x) ∧
        (mireLocked s = true → payload.length ≤ regionSize s 8 → poisoned s a payload.length = false →
          ∀ i < payload.length, memByte t (a + i) = payload.getD i 0))))

/-- R152, R157, R236: an answered control operation advances its hub's bring-up, and a failure takes the hub DOWN; one that answers none
waiting is only counted as heard; one that is not answered in time fails; a hub silent for DOWNTO leaves CONFIG or UP. -/
def Statement.HubControl : Prop :=
  ∀ (s : State) (h : Fin 40), stands s pllLanes = false → LedgersIdle s →
    (∀ (l : Fin 48) (q : Nat) (payload : List Byte), Acts s (.ctrlResponse l h q payload) (fun t =>
      (fromHub s l h = false → OnlyRegs s t []) ∧
      (fromHub s l h = true →
        ((hubOf s h).waiting.find? (fun c => c.seq == q && c.op == field payload 0 1 && q != 0) = none →
          (hubOf t h).upFrc = some s.frc ∧ OnlyRegs { s with dlk := t.dlk } t []) ∧
        (∀ c, (hubOf s h).waiting.find? (fun c => c.seq == q && c.op == field payload 0 1 && q != 0) = some c →
          (c.key = none → hubState s h = 2 → field payload 1 1 = 0 → (hubOf t h).step = (hubOf s h).step + 1 ∧ hubState t h ≠ 0) ∧
          (c.key = none → hubState s h = 2 → field payload 1 1 ≠ 0 → hubState t h = 0 ∧ (hubOf t h).failed = true) ∧
          (c.key = none → hubState s h ≠ 2 → (hubOf t h).waiting = (hubOf s h).waiting.filter (fun x => x.seq != q) ∧
            OnlyRegs { s with dlk := t.dlk } t []) ∧
          (∀ k, c.key = some k → opOf t k = none))))) ∧
    (∀ (q : Nat), Acts s (.ctrlTimeout h q) (fun t =>
      ((hubOf s h).waiting.find? (fun c => c.seq == q) = none → OnlyRegs s t []) ∧
      (∀ c, (hubOf s h).waiting.find? (fun c => c.seq == q) = some c →
        (s.frc - c.sentFrc < 1250000 * (if c.op = 6 then 10 else 1) → OnlyRegs s t []) ∧
        (1250000 * (if c.op = 6 then 10 else 1) ≤ s.frc - c.sentFrc →
          (c.key = none → hubState s h = 2 → hubState t h = 0 ∧ (hubOf t h).failed = true) ∧
          (c.key = none → hubState s h ≠ 2 → OnlyRegs { s with dlk := t.dlk } t []) ∧
          (∀ k, c.key = some k → opOf t k = none))))) ∧
    Acts s (.hubSilenceDown h) (fun t =>
      (2 ≤ hubState s h → silentFor s (hubOf s h).upFrc (100 * Nat.max 1 (getF s DLK.CFG_DOWNTO)) = true → hubState t h =
        (if flag s DLK.HUBCTL_EN h = true ∧ (hubPositions s h).any (fun p => laneLocked s (hubLane s h p)) = true then 1 else 0)) ∧
      (hubState s h < 2 ∨ silentFor s (hubOf s h).upFrc (100 * Nat.max 1 (getF s DLK.CFG_DOWNTO)) = false → OnlyRegs s t []))

/-- R157, Table DLK.HUBCTL: what a host write of HUBCTL does to the hub's state, by what EN was and the bits EN and RESTART written. -/
def Statement.HubWrite (op : Fin 8 → Reg32 → Fin 40 → Instr) : Prop :=
  ∀ (s : State) (f : Fin 8) (v : Reg32) (h : Fin 40), HostWrites s f (DLK.HUBCTL_EN.off h) → Acts s (op f v h) (fun t =>
    getF t DLK.HUBCTL_EN h = v.toNat % 2 ∧
    (flag s DLK.HUBCTL_EN h = false → getF t DLK.HUBCTL_NLANES h = bits v.toNat 1 2 ∧ getF t DLK.HUBCTL_TPER h = bits v.toNat 4 10 ∧
      (v.getLsbD 0 = false → hubState t h = hubState s h ∧ t.dlk = s.dlk) ∧
      (v.getLsbD 0 = true → hubState s h = 0 →
        hubState t h = (if (hubPositions t h).any (fun p => laneLocked s (hubLane s h p)) then 1 else 0))) ∧
    (flag s DLK.HUBCTL_EN h = true →
      (v.getLsbD 0 = false → hubState t h = 0 ∧ getF t DLK.HUBSTAT_LANEUP h = 0 ∧ ∀ x ∈ t.dlk.replay, x.hub ≠ h) ∧
      (v.getLsbD 0 = true → v.getLsbD 3 = false → hubState t h = hubState s h ∧ t.dlk = s.dlk) ∧
      (v.getLsbD 0 = true → v.getLsbD 3 = true → getF t DLK.HUBSTAT_LANEUP h = 0 ∧
        hubState t h = (if (hubPositions s h).any (fun p => laneLocked s (hubLane s h p)) then 1 else 0))))

/-- R157: EN of a hub that is disabled takes it out of DOWN where a lane of its set is locked; EN 0 takes it DOWN, and RESTART takes it
through DOWN; a clean lane takes it from ALIGN to CONFIG, and in any other state nothing changes. -/
def Statement.HubStates : Prop :=
  Statement.HubWrite .hubEnable ∧ Statement.HubWrite .hubDisable ∧ Statement.HubWrite .hubRestart ∧
  (∀ (s : State) (h : Fin 40), stands s pllLanes = false → Acts s (.hubConfigStart h) (fun t =>
    (hubState s h ≠ 1 ∨ (∀ p ∈ hubPositions s h, laneClean s (hubLane s h p) = false) → OnlyRegs s t []) ∧
    (hubState s h = 1 → (∃ p ∈ hubPositions s h, laneClean s (hubLane s h p) = true) → hubState t h = 2 ∧
      (∀ p ∈ hubPositions s h, laneClean s (hubLane s h p) = true → flagBit t DLK.HUBSTAT_LANEUP p h = true) ∧
      (sendsCtrl s = true → (hubOf t h).ctrlSeq = 1 ∧ (hubOf t h).step = 0))))

/-- R137, R146, R149, R151, R155: the oldest frame that may go is sent on the lane chosen and kept in replay; CLAIM, TIME and SYNC-IDLE
are sent on the lanes of the enabled hubs; with nothing acknowledged in ACKTO the hub is SILENT and its frames are sent again. Where there is
nothing to send, nothing changes. -/
def Statement.LinkSends : Prop :=
  ∀ (s : State), stands s pllLanes = false →
    (∀ (h : Fin 40), Acts s (.linkFrameSend h) (fun t =>
      (s.dlk.replay.find? (fun f => f.hub == h.val && mayGo s f) = none → OnlyRegs s t []) ∧
      (∀ x, s.dlk.replay.find? (fun f => f.hub == h.val && mayGo s f) = some x →
        (chooseLane s h x.lane = none → OnlyRegs s t []) ∧
        (∀ p, chooseLane s h x.lane = some p →
          t.outs = (sendLink s (hubLane s h p) p (x.image s).1 (x.image s).2).outs ∧
          { x with queued := false, sent := true, lane := some p } ∈ t.dlk.replay ∧ OnlyRegs { s with dlk := t.dlk, outs := t.outs } t [])))) ∧
    Acts s .claimSend (fun t => OnlyRegs { s with dlk := t.dlk, outs := t.outs } t [] ∧
      ∀ h p, h < hubLimit s → flag s DLK.HUBCTL_EN h = true → p ∈ hubPositions s h → flag s LAN.LCFG_EN (hubLane s h p) = true →
        laneSends s (hubLane s h p) = true → ∃ crc pad, .link (hubLane s h p) (p % 4 + 4 * unitId s)
          (Header.bytes ⟨5, h, 0, 0, ownClaim s, 0, 0, 0, 0, 0, false, false, 0, 0⟩ ++ toBytes 8 (unitId s + 2 * preference s)) crc pad ∈ t.outs) ∧
    Acts s .timeSend (fun t => t.frc = s.frc ∧ t.mem = s.mem ∧ t.host = s.host ∧ t.ledger = s.ledger ∧
      ∀ h p, h < hubLimit s → flag s DLK.HUBCTL_EN h = true → p ∈ hubPositions s h → laneSends s (hubLane s h p) = true →
        (linkLane t (hubLane s h p)).t1 = some (work32 s / 65536) ∧ (linkLane s (hubLane s h p)).timeSeq < (linkLane t (hubLane s h p)).timeSeq ∧
        (∀ d, (linkLane s (hubLane s h p)).delay = some d ∧ d < 2 ^ 32 ∨ (linkLane s (hubLane s h p)).delay = none ∧ d = 0 →
          ∃ k crc pad, .link (hubLane s h p) (p % 4 + 4 * unitId s)
            (Header.bytes ⟨6, h, 0, k, ownClaim s, work32 s / 65536, 0, 0, 0, 0, false, false, 0, 0⟩ ++ toBytes 8 d) crc pad ∈ t.outs) ∧
        (hubState s h = 2 → (hubOf s h).timed = true → (linkLane s (hubLane s h p)).delay.isSome = true → (hubOf s h).step = 5 →
          hubState t h = 3)) ∧
    (∀ (l : Fin 48), Acts s (.syncIdleSend l) (fun t =>
      (laneHubs s l = [] ∨ laneSends s l = false → OnlyRegs s t []) ∧
      (∀ h p r, laneHubs s l = (h, p) :: r → laneSends s l = true →
        t.outs = (sendLink s l p ⟨0, h, 0, (linkLane s l).syncSeq + 1, ownClaim s, 0, 0, 0, 0, 0, false, false, 0, 0⟩
          (prbsPayload (linkLane s l).prbsOut).1).outs ∧ (linkLane t l).syncSeq = (linkLane s l).syncSeq + 1 ∧
        (linkLane t l).prbsOut = (prbsPayload (linkLane s l).prbsOut).2 ∧ OnlyRegs { s with dlk := t.dlk, outs := t.outs } t []))) ∧
    (∀ (h : Fin 40) us due, us = Nat.max 20 (getF s DLK.CFG_ACKTO) →
      due = (decide (2 ≤ hubState s h) && s.dlk.replay.any (fun x => x.hub == h.val && x.sent) && silentFor s (hubOf s h).ackFrc us &&
        silentFor s (hubOf s h).configFrc us && silentFor s (hubOf s h).resendFrc us) → Acts s (.ackTimeout h) (fun t =>
      (due = false → OnlyRegs s t []) ∧
      (due = true → getF t DLK.HUBSTAT_SILENT h = 1 ∧ (hubOf t h).resendFrc = some s.frc ∧ t.mem = s.mem ∧ t.outs = s.outs ∧
        ∀ x ∈ s.dlk.replay, x.hub = h → x.sent = true → work32 s / 65536 + getF s DLK.CFG_RETXLEAD * 100 * 65536 ≤ x.fireAt →
          { x with queued := true } ∈ t.dlk.replay)))

/-- R151, R155, R156: an upstream TIME frame of the open exchange gives its lane's delay; a SYNC-IDLE begins, keeps or ends a lane's clean
time; a lane that lost lock is removed from its hub and one clean on both sides rejoins. What does not meet these changes nothing
but the time its hub was last heard. -/
def Statement.LinkLanes : Prop :=
  (∀ (s : State) (l : Fin 48) (h : Fin 40), stands s pllLanes = false →
    (∀ k t3ns t3frac payload, Acts s (.timeResponse l h k t3ns t3frac payload) (fun t =>
      (fromHub s l h = false → OnlyRegs s t []) ∧
      (fromHub s l h = true → (hubOf t h).upFrc = some s.frc ∧ t.mem = s.mem ∧ t.outs = s.outs ∧
        ((linkLane s l).t1 = none ∨ (linkLane s l).timeSeq ≠ k → t.dlk.lanes = s.dlk.lanes ∧ OnlyRegs { s with dlk := t.dlk } t []) ∧
        (∀ t1, (linkLane s l).t1 = some t1 → (linkLane s l).timeSeq = k → (linkLane t l).t1 = none ∧
          (linkLane t l).delay = some ((((work32 s / 65536 : Nat) - t1 : Int) -
            ((65536 * t3ns + t3frac : Nat) - (65536 * field payload 0 8 + field payload 8 2 : Nat) : Int)) / 2).toNat ∧
          (hubState s h = 2 → (hubOf t h).timed = true) ∧ OnlyRegs { s with dlk := t.dlk } t [DLK.LANEDLY.off l])))) ∧
    (∀ ok payload, Acts s (.syncIdleReceived l h ok payload) (fun t =>
      (fromHub s l h = false → OnlyRegs s t []) ∧
      (fromHub s l h = true → ok = false → (linkLane t l).cleanFrom = none ∧ getF t DLK.ERR_FORMAT = 1 ∧
        (((laneHubs s l).map Prod.fst).count h.val = 1 → getF t DLK.HUBCNT (8 * h + 5) = satAdd (getF s DLK.HUBCNT (8 * h + 5)) 1)) ∧
      (fromHub s l h = true → ok = true → (hubOf t h).upFrc = some s.frc ∧ OnlyRegs { s with dlk := t.dlk } t [] ∧
        ((linkLane s l).prbsIn = none → (linkLane t l).prbsIn = some (prbsAfter payload)) ∧
        (∀ st, (linkLane s l).prbsIn = some st → (linkLane t l).prbsIn =
          some (if (prbsPayload st).1 = slice payload 0 64 then (prbsPayload st).2 else prbsAfter payload)) ∧
        (laneLocked s l = true → (∀ st, (linkLane s l).prbsIn = some st → (prbsPayload st).1 = slice payload 0 64) →
          (linkLane t l).cleanFrom = some ((linkLane s l).cleanFrom.getD s.frc)) ∧
        (laneLocked s l = false ∨ (∃ st, (linkLane s l).prbsIn = some st ∧ (prbsPayload st).1 ≠ slice payload 0 64) →
          (linkLane t l).cleanFrom = none))))) ∧
  (∀ (s : State) (h : Fin 40) (p : Fin 4), stands s pllLanes = false →
    (LedgersIdle s → Acts s (.laneRemoval h p) (fun t =>
      (p.val ∉ lanesUp s h ∨ (linkLane s (hubLane s h p)).lost = false → OnlyRegs s t []) ∧
      (p.val ∈ lanesUp s h → (linkLane s (hubLane s h p)).lost = true → flagBit t DLK.HUBSTAT_LANEUP p h = false ∧
        getF t DLK.ERR_LANE_DOWN = 1 ∧ getF t DLK.HUBCNT (8 * h + 6) = satAdd (getF s DLK.HUBCNT (8 * h + 6)) 1))) ∧
    (∀ due, due = (decide (2 ≤ hubState s h) && (hubPositions s h).contains p.val && !(lanesUp s h).contains p.val &&
        laneClean s (hubLane s h p) && (linkLane s (hubLane s h p)).hubClean) → Acts s (.laneRejoin h p) (fun t =>
      (due = false → OnlyRegs s t []) ∧
      (due = true → flagBit t DLK.HUBSTAT_LANEUP p h = true ∧ (linkLane t (hubLane s h p)).lost = false ∧ t.mem = s.mem ∧ t.outs = s.outs))))

/-! Twin operation. -/

/-- The messages that are taken in TSEQ order, with every operand: each is a command but for its TSEQ and TACK. -/
inductive Statement.Ordered : (Nat → Nat → Instr) → Prop
  | heartbeat (claim state) : Statement.Ordered (fun a b => .heartbeat a b claim state)
  | trig (g n tm) : Statement.Ordered (fun a b => .twinTrigReceived a b g n tm)
  | record (bs) : Statement.Ordered (fun a b => .record a b bs)
  | ringAck (g fsn) : Statement.Ordered (fun a b => .ringAck a b g fsn)
  | change (key desc ge) : Statement.Ordered (fun a b => .change a b key desc ge)
  | result (key code value gh ts) : Statement.Ordered (fun a b => .result a b key code value gh ts)
  | entry (q n c d) : Statement.Ordered (fun a b => .twinEntry a b q n c d)
  | hubpoint (h ps rs) : Statement.Ordered (fun a b => .hubpoint a b h ps rs)
  | resync (answer trigger ks) : Statement.Ordered (fun a b => .resync a b answer trigger ks)
  | diverge (cause detail) : Statement.Ordered (fun a b => .diverge a b cause detail)
  | copy (p) : Statement.Ordered (fun a b => .stateCopy a b p)
  | request (key desc) : Statement.Ordered (fun a b => .request a b key desc)
  | reset (claim) : Statement.Ordered (fun a b => .resetReq a b claim)
  | image (off bs) : Statement.Ordered (fun a b => .image a b off bs)

/-- R296: a message out of its turn is discarded, but its TACK acknowledges what was sent; a unit that is not one of a pair of units
takes none. -/
def Statement.TwinOrder : Prop :=
  ∀ (s : State) (m : Nat → Nat → Instr) (tseq tack : Nat), Statement.Ordered m → stands s pllControl = false → LedgersIdle s →
    (twinEnabled s = false → Acts s (m tseq tack) (fun t => t.twin = s.twin ∧ t.ledger = s.ledger ∧ t.mem = s.mem)) ∧
    (twinEnabled s = true → tseq ≠ s.twin.applied + 1 → Acts s (m tseq tack) (fun t => t.ledger = s.ledger ∧ t.mem = s.mem ∧
      t.twin = { s.twin with unacked := s.twin.unacked.filter (fun e => decide (tack < e.1)) }))

/-- R296, R299, R301, R302, R309, R311: messages taken in turn: HELLO pairs or shows the check that fails; HEARTBEAT shows the partner's
claim and state, and a unit that decides steps down from a higher one; TRIG of the active is a standby's trigger; ENTRY waits for
the unit's own, or is compared with it; a divergence received is recorded. -/
def Statement.TwinMessages : Prop :=
  (∀ (s : State) (tseq tack unit preferred profile id claim : Nat) (settings : List Nat) (other : Bool),
    stands s pllControl = false → twinEnabled s = true → LedgersIdle s →
    Acts s (.hello tseq tack unit preferred profile id claim settings other) (fun t => Applied s t tseq ∧
      (twinState s = 6 ∨ (twinState s = 4 ∧ s.twin.lost = false) → twinState t = twinState s ∧
        getF t TWN.STAT_CODE = getF s TWN.STAT_CODE ∧ getF t TWN.PCLAIM = getF s TWN.PCLAIM) ∧
      (twinState s ≠ 6 → (twinState s = 4 → s.twin.lost = true) →
        getF t TWN.STAT_CODE = pairingCode s unit preferred profile id settings other ∧
        (pairingCode s unit preferred profile id settings other ≠ 0 →
          twinState t = if twinState s = 1 ∨ twinState s = 2 then 5 else twinState s) ∧
        (pairingCode s unit preferred profile id settings other = 0 → claim < 2 ^ 32 → getF t TWN.PCLAIM = claim ∧ t.twin.lost = false ∧
          (printing s = true → twinState t = 3) ∧
          (printing s = false → other = true → twinState t = 2 ∧ t.twin.joinStep = 1) ∧
          (printing s = false → other = false → twinState t = (if preference s = 1 then 3 else 4)))))) ∧
  (∀ (s : State) (tseq tack : Nat), InTurn s tseq →
    (∀ claim state, claim < 2 ^ 32 → Acts s (.heartbeat tseq tack claim state) (fun t => Applied s t tseq ∧ getF t TWN.PCLAIM = claim ∧
      t.twin.partnerState = state ∧
      (ownClaim s < claim → decides s = true → twinState t = 4 ∧ getF t TWN.ERR_STEPDOWN = 1) ∧
      (claim ≤ ownClaim s → ownClaim t = ownClaim s ∧ twinState t = twinState s))) ∧
    (∀ g n tm, g < 4 → n < 2 ^ 64 → Acts s (.twinTrigReceived tseq tack g n tm) (fun t => Applied s t tseq ∧
      (isStandby s = true → (∀ k, lastTrigger s g = some k → k < n) → getP t LDE.TRIG g = n) ∧
      (isStandby s = false ∨ (∃ k, lastTrigger s g = some k ∧ n ≤ k) → getP t LDE.TRIG g = getP s LDE.TRIG g ∧ t.mem = s.mem))) ∧
    (∀ q n b a, Acts s (.twinEntry tseq tack q n b a) (fun t => Applied s t tseq ∧
      (s.twin.entries.find? (fun e => e.1 == q && e.2.1 == n) = none →
        t.twin.partnerEntries = s.twin.partnerEntries ++ [(q, n, b, a)] ∧ t.twin.entries = s.twin.entries) ∧
      (∀ e, s.twin.entries.find? (fun e => e.1 == q && e.2.1 == n) = some e →
        t.twin.entries = s.twin.entries.filter (fun x => !(x.1 == q && x.2.1 == n)) ∧
        (e.2.2 = (b, a) → getF t TWN.ERR_DIVERGE = getF s TWN.ERR_DIVERGE) ∧
        (e.2.2 ≠ (b, a) → twinState s = 3 → s.twin.lost = false → getF t TWN.ERR_DIVERGE = 1 ∧ TwinSays t (.diverge 1 q))))) ∧
    (∀ cause detail, Acts s (.diverge tseq tack cause detail) (fun t => Applied s t tseq ∧
      ((twinState s = 3 ∧ s.twin.lost = false) ∨ twinState s = 4 → getF t TWN.ERR_DIVERGE = 1 ∧
        (flag s TWN.ERR_DIVERGE = false → getF t TWN.DIV_CAUSE = cause % 16 ∧ getF t TWN.DIV_DETAIL = detail % 2 ^ 24)) ∧
      (twinState s ≠ 4 → twinState s ≠ 3 ∨ s.twin.lost = true → getF t TWN.ERR_DIVERGE = getF s TWN.ERR_DIVERGE ∧ t.mem = s.mem))))

/-- R301, R303, R304, R306: a standby keeps the active's records and acknowledges them, takes its changes and keeps its results for the
operations they decide; the active takes a RING_ACK, and answers a REQUEST. What a unit is not in the role to take changes nothing. -/
def Statement.TwinLedger : Prop :=
  ∀ (s : State) (tseq tack : Nat), InTurn s tseq →
    (∀ bs r, r = frameOfRecord s bs → FramesKeyed s → Acts s (.record tseq tack bs) (fun t => Applied s t tseq ∧
      TwinSays t (.ringAck r.group r.fsn) ∧
      (frameOf s r.group r.fsn = none →
        FrameThen t r.group r.fsn (fun e => e.state = r.state ∧ e.released = r.released ∧ e.reason = r.reason)) ∧
      (∀ f, frameOf s r.group r.fsn = some f → f.flush = .none → r.released = false → 5 ≤ r.state →
        FrameThen t r.group r.fsn (fun e => e.state = r.state ∧ e.reason = r.reason ∧ e.recorded = true)) ∧
      (∀ f, frameOf s r.group r.fsn = some f → f.flush = .none → f.state = 3 → r.released = false → r.state = 4 →
        FrameThen t r.group r.fsn (fun e => e.state = 4 ∧ e.firingHeld = true)))) ∧
    (∀ (g : Fin 4) fsn, FramesKeyed s → Acts s (.ringAck tseq tack g fsn) (fun t => Applied s t tseq ∧
      (frameOf s g fsn = none → t.ledger = s.ledger ∧ t.mem = s.mem) ∧
      (∀ f, HasFrame s g fsn f → f.flushDone = false → FrameThen t g fsn (fun e => e = { f with partnerHas := true })))) ∧
    (∀ key desc ge, Acts s (.change tseq tack key desc ge) (fun t => Applied s t tseq ∧
      (isStandby s = false → t.print = s.print ∧ t.mem = s.mem) ∧
      (∀ c, isStandby s = true → key.sub = 9 → c = rowChannel s ((updateOfDesc desc 2 none).a / rowWidth) →
        updatesOf t c = updatesOf (acceptUpdate s { updateOfDesc desc 2 none with ge := ge } false).2 c ∧
        (ge ≠ 0 → twinState s = 4 → ge ≤ getP s HMK.LASTLINE c → getF t TWN.ERR_DIVERGE = 1)) ∧
      (isStandby s = true → key.sub ≠ 9 → selectOfDesc s desc = none → t.print = s.print ∧ t.mem = s.mem) ∧
      (∀ q, isStandby s = true → key.sub ≠ 9 → selectOfDesc s desc = some q → ∀ c < 8, bit q.chmask c = true → activeBank s c ≠ q.bank →
        getF t SDG.CHSTAT_PENDING c = 1 ∧ getF t SDG.CHSTAT_PBANK c = q.bank % 2 ∧ getP t SDG.PENDLINE c = q.ge % 2 ^ 64))) ∧
    (∀ key code value gh ts, Acts s (.result tseq tack key code value gh ts) (fun t => Applied s t tseq ∧
      (isStandby s = false → t.twin.early = s.twin.early ∧ t.twin.awaiting = s.twin.awaiting ∧ t.mem = s.mem) ∧
      (isStandby s = true → key.sub ≠ 4 → s.twin.awaiting = [] → t.twin.early = s.twin.early ++ [(key, code, value)]) ∧
      (∀ m, isStandby s = true → key.sub = 9 ∨ key.sub = 10 ∨ key.sub = 14 → s.twin.awaiting.find? (fun m => m.key == key) = some m →
        opOf t m.op = none))) ∧
    (∀ key desc, Acts s (.request tseq tack key desc) (fun t => Applied s t tseq ∧
      (isActive s = false → t.print = s.print ∧ t.twin.sent = s.twin.sent) ∧
      (isActive s = true → ∃ code value gh ts, TwinSays t (.result key code value gh ts) ∧
        (mapsetInvalid desc 1 = true → ∃ aux, code = BitVec.ofNat 64 (codeWord 9 9 0 aux)))))

/-- R139, R305, R311, R313, R314: HUBPOINT raises the points of its streams and shows the hub served; RESYNC is answered and gives streams
their next SEQ; a copied group, bank change, record or JOINQ is kept; a reset that the partner asks for is refused from a claim that is
not higher; image parts are kept and the boot image is served. -/
def Statement.TwinCopies : Prop :=
  ∀ (s : State) (tseq tack : Nat), InTurn s tseq →
    (∀ (h : Fin 40) ps rs, Acts s (.hubpoint tseq tack h ps rs) (fun t => Applied s t tseq ∧ (rs = [] → replayFull s = false →
      (hubOf t h).partnerFrc = some s.frc ∧
      (∀ e, ps = [e] → e.ctrl = false →
        (streamOf t (streamKey h e.slot)).held = Nat.max (streamOf s (streamKey h e.slot)).held e.held ∧
        (streamOf t (streamKey h e.slot)).done = Nat.max (streamOf s (streamKey h e.slot)).done e.done)))) ∧
    (∀ k n trigger, Acts s (.resync tseq tack true trigger [(k, n)]) (fun t => Applied s t tseq ∧
      (∀ b, mfind s.twin.rejoins k = some (trigger, b) → (streamOf t k).next = n + b ∧ mfind t.twin.rejoins k = none) ∧
      (¬ (∃ b, mfind s.twin.rejoins k = some (trigger, b)) → t.dlk.streams = s.dlk.streams ∧ t.twin.rejoins = s.twin.rejoins))) ∧
    (∀ ks trigger, Acts s (.resync tseq tack false trigger ks) (fun t => Applied s t tseq ∧
      TwinSays t (.resync true trigger (ks.map (fun e => (e.1, seqFrom s e.1 trigger)))))) ∧
    (∀ (q : Fin 64) n, n < 2 ^ 32 → Acts s (.stateCopy tseq tack (.joinq q n)) (fun t => Applied s t tseq ∧ getF t TWN.JOINQ q = n)) ∧
    (∀ (c : Fin 8) b line, b < 2 → line < 2 ^ 64 → Acts s (.stateCopy tseq tack (.bank c b line)) (fun t => Applied s t tseq ∧
      getF t SDG.CHSTAT_PENDING c = 1 ∧ getF t SDG.CHSTAT_PBANK c = b ∧ getP t SDG.PENDLINE c = line ∧ t.mem = s.mem)) ∧
    (∀ (g : Fin 4) next oldest, next < 2 ^ 64 → oldest < 2 ^ 64 → Acts s (.stateCopy tseq tack (.group g next oldest)) (fun t => Applied s t tseq ∧
      getP t LDG.NEXTFSN g = Nat.max (getP s LDG.NEXTFSN g) next ∧ getP t LDG.OLDEST g = Nat.max (getP s LDG.OLDEST g) oldest ∧ t.mem = s.mem)) ∧
    (∀ bs r, r = frameOfRecord s bs → FramesKeyed s → Acts s (.stateCopy tseq tack (.slot bs)) (fun t => Applied s t tseq ∧
      FrameThen t r.group r.fsn (fun e => e = r))) ∧
    (∀ claim, Acts s (.resetReq tseq tack claim) (fun t =>
      (claim ≤ ownClaim s ∨ (twinState s = 3 ∧ s.twin.partnerState = 4) → Applied s t tseq ∧ getF t TWN.ERR_PRESET_REF = 1 ∧
        t.power = s.power) ∧
      (ownClaim s < claim → ¬ (twinState s = 3 ∧ s.twin.partnerState = 4) → warmHeld s = false →
        t.power.line = .warm ∧ getF t GLB.RSTCAUSE_CAUSE = 3) ∧
      (ownClaim s < claim → ¬ (twinState s = 3 ∧ s.twin.partnerState = 4) → warmHeld s = true → s.power.heldReset = none →
        t.power.heldReset = some 3 ∧ t.power.line = .none))) ∧
    (∀ off bs, Acts s (.image tseq tack off bs) (fun t => Applied s t tseq ∧
      (bs ≠ [] → s.boot.stage = .partner → mfind t.boot.parts off = some bs) ∧
      (bs = [] ∨ s.boot.stage ≠ .partner → t.boot = s.boot))) ∧
    Acts s (.bootImageRequest tseq tack) (fun t => Applied s t tseq ∧
      (flag s TWN.CFG_SERVEBOOT = true → s.boot.image ≠ [] → ∀ e ∈ imageParts s.boot.image, TwinSays t (.image e.1 e.2)) ∧
      (flag s TWN.CFG_SERVEBOOT = false ∨ s.boot.image = [] → t.twin.sent = s.twin.sent))

/-- R296 to R300, R302, R303, R450: messages not acknowledged are sent again; heartbeats go out on both paths and the backup's word is taken
where its CRC-8 fits; a partner silent on both paths is lost, and one silent path is reported; a refused raise is tried again; and
what waits too long for the active goes on or diverges. Before its time each changes nothing. -/
def Statement.TwinTimers : Prop :=
  ∀ (s : State), stands s pllControl = false → LedgersIdle s →
    (∀ tseq, Acts s (.twinMessageResend tseq) (fun t =>
      ((s.twin.unacked.take 4096).find? (fun e => e.1 == tseq) = none → OnlyRegs s t []) ∧
      (∀ e, (s.twin.unacked.take 4096).find? (fun e => e.1 == tseq) = some e →
        t.outs = s.outs ++ [.twin e.1 s.twin.applied e.2] ∧ getF t TWN.CNT 2 = satInc (getF s TWN.CNT 2) ∧
        OnlyRegs { s with outs := t.outs } t [TWN.CNT.off 2]))) ∧
    Acts s .heartbeatSend (fun t => (twinEnabled s = false → OnlyRegs s t []) ∧ (twinEnabled s = true → t.twin.sent = s.twin.sent + 1 ∧
      TwinSays t (.heartbeat (ownClaim s) (twinState s) ((upto 4).map (fun g => getP s LDE.TRIG g))))) ∧
    Acts s .hbWordSend (fun t => (hasPaired s = false → OnlyRegs s t []) ∧
      (hasPaired s = true → t.outs = s.outs ++ [.hbWord (BitVec.ofNat 64 (hbWord s))] ∧ OnlyRegs { s with outs := t.outs } t [])) ∧
    (∀ w : Word, s.power.deep = none → Acts s (.hbWordReceived w) (fun t =>
      (twinEnabled s = true → bits w.toNat 56 8 = hbCrc w.toNat → t.twin.backupAt = some s.frc ∧
        getF t TWN.PCLAIM = bits w.toNat 0 32 ∧ t.twin.partnerState = bits w.toNat 33 3) ∧
      (twinEnabled s = false ∨ bits w.toNat 56 8 ≠ hbCrc w.toNat → t.twin = s.twin ∧ getF t TWN.PCLAIM = getF s TWN.PCLAIM))) ∧
    (∀ due, due = (twinEnabled s && !s.twin.lost && (twinState s == 3 || twinState s == 4 || twinState s == 2) &&
        silentFor s s.twin.linkAt 400 && silentFor s s.twin.backupAt 400) → Acts s .partnerLost (fun t =>
      (due = false → t.twin = s.twin ∧ t.ledger = s.ledger ∧ t.mem = s.mem) ∧
      (due = true → t.twin.lost = true ∧ getF t TWN.ERR_LOST = 1 ∧ (twinState s = 3 → twinState t = 5) ∧ (twinState s = 2 → twinState t = 1) ∧
        (twinState s = 4 → quorum s = true → twinState t = 5) ∧ (twinState s = 4 → quorum s = false → twinState t = 4)))) ∧
    (∀ (link : Bool) due, due = (twinEnabled s && silentFor s (if link then s.twin.linkAt else s.twin.backupAt) 400 &&
        !silentFor s (if link then s.twin.backupAt else s.twin.linkAt) 400) → Acts s (.pathSilent link) (fun t =>
      t.twin = s.twin ∧ (due = false → OnlyRegs s t []) ∧ (due = true → getF t TWN.ERR_PATH = 1))) ∧
    Acts s .quorumRetry (fun t =>
      (s.twin.raisePending = false → t.twin = s.twin ∧ t.mem = s.mem ∧ getF t TWN.CLAIM = getF s TWN.CLAIM) ∧
      (s.twin.raisePending = true → quorum s = true → t.twin.raisePending = false ∧
        getF t TWN.CLAIM = (16 * (topEpoch s + 1) + preference s) % 2 ^ 32) ∧
      (s.twin.raisePending = true → quorum s = false → t.twin.raisePending = true ∧ getF t TWN.ERR_QUORUM = 1 ∧
        getF t TWN.CNT 5 = satInc (getF s TWN.CNT 5) ∧ getF t TWN.CLAIM = getF s TWN.CLAIM)) ∧
    (∀ (g : Fin 4), Acts s (.trigFallback g) (fun t =>
      (oldestOwn s g = none → t.twin = s.twin ∧ t.mem = s.mem) ∧
      (∀ k tm hit at_, oldestOwn s g = some (k, tm, hit, at_) →
        (isStandby s = true → 1250 * Nat.max 1 (getF s TWN.CFG_TMWAIT) ≤ s.frc - at_ →
          silentFor s s.twin.linkAt (Nat.max 1 (getF s TWN.CFG_TMWAIT)) = true →
          getP t LDE.TRIG g = k % 2 ^ 64 ∧ mfind t.twin.own k = none) ∧
        (isStandby s = false ∨ s.frc - at_ < 1250 * Nat.max 1 (getF s TWN.CFG_TMWAIT) ∨
          silentFor s s.twin.linkAt (Nat.max 1 (getF s TWN.CFG_TMWAIT)) = false → t.twin = s.twin ∧ t.mem = s.mem)))) ∧
    (∀ key, Acts s (.matchTimeout key) (fun t =>
      (s.twin.awaiting.find? (fun m => m.op == key) = none → OnlyRegs s t []) ∧
      (∀ m, s.twin.awaiting.find? (fun m => m.op == key) = some m →
        (s.frc < m.since + 1250000 * Nat.max 1 (getF s TWN.CFG_MATCHTO) → OnlyRegs s t []) ∧
        (m.since + 1250000 * Nat.max 1 (getF s TWN.CFG_MATCHTO) ≤ s.frc → twinState s = 3 ∨ twinState s = 4 → s.twin.lost = false →
          getF t TWN.ERR_DIVERGE = 1 ∧ TwinSays t (.diverge 2 m.key.queue))))) ∧
    Acts s .pairingTimeout (fun t =>
      (twinState s = 1 ∨ (twinState s = 2 ∧ s.twin.joinStep = 0) → twinState t = 5 ∧ getF t TWN.STAT_CODE = 1) ∧
      (twinState s ≠ 1 → (twinState s ≠ 2 ∨ s.twin.joinStep ≠ 0) → twinState t = twinState s ∧ t.mem = s.mem ∧
        getF t TWN.STAT_CODE = getF s TWN.STAT_CODE))

/-- R310, R311, R314, Table TWN.CTL: what a host write of TWN.CTL does: PAIR sends HELLO, and a unit without a partner seeks one; REJOIN ends
DIVERGED; PRESET with its key asks the partner for a reset; nothing else acts. -/
def Statement.TwinCtl (op : Fin 8 → Reg32 → Instr) : Prop :=
  ∀ (s : State) (f : Fin 8) (v : Reg32), HostWrites s f TWN.CTL.base → twinEnabled s = true → Acts s (op f v) (fun t =>
    (v.toNat % 8 = 1 → t.twin.sent = s.twin.sent + 1 ∧ TwinSays t (helloBody s) ∧
      twinState t = (if twinState s = 0 ∨ twinState s = 5 then 1 else twinState s)) ∧
    (v.toNat % 8 = 2 → (twinState s = 6 → twinState t = 2 ∧ t.twin.joinStep = 0 ∧ t.twin.sent = s.twin.sent + 1) ∧
      (twinState s ≠ 6 → twinState t = twinState s ∧ t.twin = s.twin)) ∧
    (v.getLsbD 2 = true → bits v.toNat 8 8 = 0x5A → TwinSays t (.resetReq (ownClaim s))) ∧
    (v.toNat % 8 = 4 → twinState t = twinState s ∧ (bits v.toNat 8 8 ≠ 0x5A → t.twin = s.twin)) ∧
    (v.toNat % 8 = 0 → twinState t = twinState s ∧ t.twin = s.twin) ∧ t.mem = s.mem ∧ t.ledger = s.ledger)

/-- R310, R311, R314, Table TWN.CTL: PAIR, REJOIN and PRESET. -/
def Statement.TwinCommands : Prop := Statement.TwinCtl .twinPair ∧ Statement.TwinCtl .twinRejoin ∧ Statement.TwinCtl .partnerReset

/-! Geometry, Mire and bands. -/

/-- R25: WR stores the entry HTDATA holds, reserved bits as 0, where the Lodes of its old and its new row's channel are stopped; a store
refused leaves the entry and is reported; one that changes no defined field has no effect; RD loads the entry, after a store. -/
def Obligations.HeadTable : Prop :=
  ∀ (f : Fin 8) (v : Reg32) (s : State) (i : Nat), HostWrites s f LDE.HTIDX.base → i = bits v.toNat 0 12 →
    (v.getLsbD 16 = true → Acts s (.htidxWrite f v) (fun t =>
      (htData s ≠ headAt s i → lodeRuns s (rowChannel s (headAt s i).row) = false → lodeRuns s (rowChannel s (htData s).row) = false →
        headAt t i = htData s ∧ (∀ j, j ≠ i → headAt t j = headAt s j)) ∧
      (htData s ≠ headAt s i → (lodeRuns s (rowChannel s (headAt s i).row) = true ∨ lodeRuns s (rowChannel s (htData s).row) = true) →
        t.intake = s.intake ∧ getF t GLB.ACCERR_RWL_IGN = 1 ∧
        (flag s GLB.ACCERR_RWL_IGN = false → getF t GLB.ACCERR_ADDR_OFFSET = LDE.HTIDX.base) ∧
        (flag s GLB.ACCERR_RWL_IGN = true → getF t GLB.ACCERR_MULTI = 1)) ∧
      (htData s = headAt s i → t.intake = s.intake ∧ regRaw t GLB.ACCERR.base = regRaw s GLB.ACCERR.base) ∧
      (v.getLsbD 17 = true → htData t = (headAt t i).mask) ∧
      (v.getLsbD 17 = false → ∀ k : Fin 4, regRaw t (LDE.HTDATA.off k) = regRaw s (LDE.HTDATA.off k)))) ∧
    (v.getLsbD 16 = false → v.getLsbD 17 = true → Acts s (.htidxRead f v) (fun t => t.intake = s.intake ∧
      regRaw t (LDE.HTDATA.off 0) = (headAt s i).w0 ∧ regRaw t (LDE.HTDATA.off 1) = (headAt s i).w1 ∧
      regRaw t (LDE.HTDATA.off 2) = (headAt s i).w2 ∧ regRaw t (LDE.HTDATA.off 3) = (headAt s i).w3))

/-- R40, R42: a change of the head table leaves the geometry UNCHECKED; CHECK starts a validation, which ends VALID with the hash or
INVALID with the first failure. -/
def Statement.Geometry : Prop :=
  (∀ (f : Fin 8) (v : Reg32) (s : State), HostWrites s f LDE.HTIDX.base → v.getLsbD 16 = true →
    htData s ≠ headAt s (bits v.toNat 0 12) → (∀ c, lodeRuns s c = false) →
    Acts s (.htidxWrite f v) (fun t => getF t LDE.GEOSTAT_STATE = 0)) ∧
  (∀ (f : Fin 8) (v : Reg32) (s : State), HostWrites s f LDE.GEOCTL.base → v.getLsbD 0 = true →
    Acts s (.geoValidateStart f v) (fun t => getF t LDE.GEOSTAT_STATE = 1 ∧ t.intake = s.intake)) ∧
  (∀ (s : State), getF s LDE.GEOSTAT_STATE = 1 → LedgersIdle s → stands s pllPipeline = false →
    Acts s .geoValidationEnd (fun t =>
      ((geoCheck s).1 = 0 → getF t LDE.GEOSTAT_STATE = 2 ∧ getF t LDE.GEOSTAT_CODE = 0 ∧ getF t LDE.GEOHASH = geoHash s) ∧
      ((geoCheck s).1 ≠ 0 → getF t LDE.GEOSTAT_STATE = 3 ∧ getF t LDE.GEOSTAT_CODE = (geoCheck s).1 ∧
        getF t LDE.GEOSTAT_INDEX = (geoCheck s).2 % 4096)))

/-- R50: LOCK starts the region check, which ends LOCKED or FAILED with its code and index. -/
def Statement.RegionLock : Prop :=
  (∀ (f : Fin 8) (s : State), HostWrites s f SLC.MIRECTL_LOCK.base → mireLocked s = false → s.intake.locking = false →
    Acts s (.mireLock f 1) (fun t => t.intake = { s.intake with locking := true } ∧
      getF t SLC.MIRECTL_STATE = getF s SLC.MIRECTL_STATE)) ∧
  (∀ (s : State), s.intake.locking = true → LedgersIdle s → stands s pllMemory = false →
    Acts s .mireLockEnd (fun t => t.intake.locking = false ∧ getF t SLC.MIRECTL_CODE = (mireCheck s).1 ∧
      getF t SLC.MIRECTL_INDEX = (mireCheck s).2 ∧ ((mireCheck s).1 = 0 → mireLocked t = true) ∧
      ((mireCheck s).1 ≠ 0 → getF t SLC.MIRECTL_STATE = 2)))

/-- R51: UNLOCK takes effect only where no group is enabled, every frame is RELEASED, the band table is empty and no job runs; elsewhere,
and with LOCK, it is ignored and sets UNLOCK_REF. It says nothing of an UNLOCK while a lock is in progress. -/
def Obligations.MireUnlock : Prop :=
  ∀ (f : Fin 8) (v : Reg32) (s : State), HostWrites s f SLC.MIRECTL_LOCK.base → v.getLsbD 1 = true →
    Acts s (.mireUnlock f v) (fun t => t.intake = s.intake ∧
      (v.getLsbD 0 = false → s.intake.locking = false → (∀ g < 4, flag s LDE.PGCFG_ENABLE g = false) →
        (∀ e ∈ s.ledger.frames, e.2.released = true) → s.intake.bands = [] → s.intake.jobs = [] → mireLocked t = false) ∧
      (v.getLsbD 0 = true ∨ (∃ g < 4, flag s LDE.PGCFG_ENABLE g = true) ∨ (∃ e ∈ s.ledger.frames, e.2.released = false) ∨
        s.intake.bands ≠ [] ∨ s.intake.jobs ≠ [] →
        getF t SLC.MIRECTL_UNLOCK_REF = 1 ∧ getF t SLC.MIRECTL_STATE = getF s SLC.MIRECTL_STATE))

/-- R48, R52 to R54, R67: the BLOAD that waited longest takes the lowest free entry and its blocks, or ends with MIRE_FULL where nothing
can free them; a failed read ends it with its entry free; uncompressed data that fits its CRC makes the band valid, and other data frees it; a reported release frees the entry. -/
def Obligations.BandLoads : Prop :=
  (∀ (s : State) (k : Nat) (rest : List Nat), stands s pllPipeline = false → s.intake.waiting = k :: rest →
    (opOf s k = none → Acts s .bloadWaitServed (fun t => t.intake.waiting = rest)) ∧
    (∀ o h b, opOf s k = some o → s.intake.jobs.find? (fun j => j.op == k) = none → mrising 0 s.intake.bands = true →
      b.op = some k → b.status = .waiting → b.blocks = [] → b.refetch = none → b.dicten = false →
      (mfind s.intake.described k = some b ∧ freeHandle s = some h ∧ (∀ x ∈ s.intake.bands, x.2.op ≠ some k)) ∨
        (mfind s.intake.described k = none ∧ bandOf s h = some b ∧ (∀ x ∈ s.intake.bands, x.2.op = some k → x.1 = h)) →
      (bandNeed b ≤ freeBlockCount s → Acts s .bloadWaitServed (fun t => t.intake.waiting = rest ∧
        ∃ e, bandOf t h = some e ∧ e.status = .reading ∧ e.op = some k ∧ e.blocks = takeBlocks s (bandNeed b))) ∧
      (freeBlockCount s < bandNeed b → noRelease s = true → LedgersIdle s → Acts s .bloadWaitServed (fun t => t.intake.waiting = rest ∧
        opOf t k = none ∧ bandOf t h = none)))) ∧
  (∀ (s : State) (h off n : Nat) (b : Band), bandOf s h = some b → b.outstanding.find? (fun r => r.1 == off) = some (off, n) →
    stands s pllPcie = false → .band h off ∉ s.host.stale →
    (∀ bs, Acts s (.pcieReadCompletion h off (.data bs)) (fun t => ∃ e, bandOf t h = some e ∧
      mfind e.buffer off = some (slice bs 0 n) ∧ e.status = b.status)) ∧
    (LedgersIdle s → Acts s (.pcieReadCompletion h off .failed) (fun t => bandOf t h = none))) ∧
  (∀ (s : State) (h k : Nat) (b : Band) (o : Op), bandOf s h = some b → b.status = .reading → b.op = some k → opOf s k = some o →
    coreState s (coreNum o.issuer) ≠ stFaulted (coreNum o.issuer) → b.todo = [] → b.outstanding = [] → b.buffer ≠ [] →
    b.comp = 0 → b.recomp = false → LedgersIdle s → stands s pllPipeline = false →
    (crc32c (received b) = b.crc → Acts s (.bloadComplete h) (fun t => opOf t k = none ∧
      ∃ e, bandOf t h = some e ∧ e.status = .valid ∧ e.op = none ∧ e.stored = (received b).length)) ∧
    (crc32c (received b) ≠ b.crc → Acts s (.bloadComplete h) (fun t => opOf t k = none ∧ bandOf t h = none))) ∧
  (∀ (s : State) (f : Fin 8) (e : Event) (rest : List Event), fnDisabled s f = false → (fnOf s f).releases = e :: rest →
    getF s PCI.EVLOST f = 0 → evRoom s f = true → stands s pllPcie = false →
    Acts s (.bandReleasedReport f) (fun t => bandOf t e.aux = none))

/-- R56, R60, R61, R64 to R66: an inflate engine decodes its next line; a suspended job resumes; a refetch that reads the band whole is
ready, fails after SLC.CFG.REFETCH_MAX failures, and replaces the blocks while no inflation runs; a job ends with its operation. -/
def Obligations.Sluice : Prop :=
  (∀ (s : State) (e : Fin 16) (n : NextLine) (b : Band), stands s pllPipeline = false → nextLine s e = some n →
    bandOf s n.staging.band = some b → b.status = .valid → (decodeBand s b).code = 0 → (leadOf s e).length < 8 →
    (inflationOf s n.frame.key n.staging.band).next + 1 ≠ b.lines →
    Acts s (.inflateLine e) (fun t => (inflationOf t n.frame.key n.staging.band).next =
      (inflationOf s n.frame.key n.staging.band).next + 1 ∧ t.mem = s.mem)) ∧
  (∀ (s : State) (e : Fin 16) (j : Job), stands s pllPipeline = false → LedgersIdle s → engineFree s e = true →
    (∀ x ∈ s.intake.bands, x.2.status ≠ .verifying) →
    s.intake.jobs.find? (fun j => j.kind == 0 && j.suspended && (j.engine == none || j.engine == some e.val)) = some j →
    Acts s (.inflateJobResume e) (fun t => { j with engine := some e.val, suspended := false } ∈ t.intake.jobs)) ∧
  (∀ (s : State) (e : Fin 16), stands s pllPipeline = false → LedgersIdle s → engineFree s e = false →
    Acts s (.inflateJobResume e) (fun t => OnlyRegs s t [])) ∧
  (∀ (s : State) (h : Nat) (b : Band) (r : Refetch), stands s pllPcie = false → LedgersIdle s → bandOf s h = some b →
    b.refetch = some r → r.done = false → r.blocks ≠ [] →
    (refetchReady s b r.blocks = false → ∀ reply, Acts s (.bandRefetchDone h reply) (fun t => OnlyRegs s t [])) ∧
    (refetchReady s b r.blocks = true →
    (r.failures < getF s SLC.CFG_REFETCH_MAX → Acts s (.bandRefetchDone h .failed) (fun t => ∃ e x, bandOf t h = some e ∧
      e.refetch = some x ∧ x.failures = r.failures + 1 ∧ e.status = b.status)) ∧
    (getF s SLC.CFG_REFETCH_MAX ≤ r.failures → Acts s (.bandRefetchDone h .failed) (fun t => getF t SLC.ERR_REFETCH_FAIL = 1 ∧
      ∃ e, bandOf t h = some e ∧ e.refetch = none ∧ e.status = .bad)) ∧
    (∀ bs, b.comp = 0 → b.recomp = false → crc32c (slice bs 0 b.clen) = b.crc → Acts s (.bandRefetchDone h (.data bs)) (fun t =>
      ∃ e x, bandOf t h = some e ∧ e.refetch = some x ∧ x.done = true)))) ∧
  (∀ (s : State) (h : Nat) (b : Band) (r : Refetch), stands s pllPipeline = false → bandOf s h = some b → b.refetch = some r →
    r.done = true →
    ((∀ i ∈ s.intake.inflations, i.band ≠ h) → Acts s (.bandBlockSwap h) (fun t => ∃ e, bandOf t h = some e ∧
      e.blocks = r.blocks ∧ e.stored = r.stored ∧ e.storedComp = r.comp ∧ (b.reported = false → e.refetch = none))) ∧
    ((∃ i ∈ s.intake.inflations, i.band = h) → Acts s (.bandBlockSwap h) (fun t => OnlyRegs s t []))) ∧
  (∀ (s u : State) (key : Nat) (reply : HostReply) (j : Job) (o : Op), stands s pllPipeline = false →
    s.intake.jobs.find? (fun x => x.op == key) = some j → opOf s key = some o → o.key = key → j.waiting = false →
    jobRuns s j = true → (2 ^ 47 ≤ j.src → bulkRoom s o.hostfn ≠ 0) →
    (j.kind = 1 → j.dicten = false → engineRead s o.hostfn o.hwin j.src j.slen reply = (.failed, u) →
      Acts s (.sluiceJobComplete key reply) (fun t => opOf t key = none ∧ ∀ x ∈ t.intake.jobs, x.op ≠ key)) ∧
    (∀ data, j.kind = 2 → j.dict < 16 → engineRead s o.hostfn o.hwin j.src j.slen reply = (.bytes data, u) →
      Acts s (.sluiceJobComplete key reply) (fun t => opOf t key = none ∧ getF t SLC.DICTSTAT_VALID j.dict = 1 ∧
        getF t SLC.DICTSTAT_LOADING j.dict = 0)))

/-! The print path. -/

/-- R69, R70, R86 to R88, R113, R121: the Lode admits the next line of a FIRING frame once the trigger is near and the replay buffers
have room; an admitted line whose bands are decoded enters Sedge last and is shown in SDG.LASTLINE; the oldest line leaves when
screened; a segment with no basis is held, and one with a basis is closed. -/
def Obligations.PrintLines : Prop :=
  ∀ (c : Fin 8) (s : State), stands s pllPipeline = false →
    (∀ g f line, groupOf s c = some g → nextToAdmit s c g = some (f, line) →
      (triggerReached s g ((line : Int) - openLines s g) = true → replayFull s = false → Acts s (.lodeAdmit c) (fun t =>
        mget t.print.admitted c [] = mget s.print.admitted c [] ++ [(f.key, line - f.g0.getD 0)] ∧
        mget t.print.nextLine c 0 = line + 1 ∧ OnlyRegs { s with print := t.print } t [])) ∧
      (triggerReached s g ((line : Int) - openLines s g) = false ∨ replayFull s = true →
        Acts s (.lodeAdmit c) (fun t => OnlyRegs s t []))) ∧
    (∀ key i rest f g0, mget s.print.admitted c [] = (key, i) :: rest → frameAt s key = some f → f.g0 = some g0 →
      g0 + i < 2 ^ 64 →
      (lineDecoded s f c i = true → Acts s (.sedgeLineEntry c) (fun t => getP t SDG.LASTLINE c = g0 + i ∧
        mget t.print.admitted c [] = rest ∧
        ∃ l, sedgeLines t c = sedgeLines s c ++ [l] ∧ l.frame = key ∧ l.line = g0 + i ∧ l.levels = none)) ∧
      (lineDecoded s f c i = false → Acts s (.sedgeLineEntry c) (fun t => OnlyRegs s t []))) ∧
    (∀ l rest, sedgeLines s c = l :: rest → l.levels.isSome = true → Acts s (.sedgeLineExit c) (fun t => sedgeLines t c = rest ∧
      mget t.print.left c [] = mget s.print.left c [] ++ [l] ∧ OnlyRegs { s with print := t.print } t [])) ∧
    (∀ l rest f, mget s.print.left c [] = l :: rest → flag s HMK.STAT_REBUILD = false → frameAt s l.frame = some f → FramesKeyed s →
      l.line < 2 ^ 64 → Acts s (.hummockLineEntry c) (fun t => getP t HMK.LASTLINE c = l.line ∧ mget t.print.left c [] = rest ∧
        ∃ e, frameAt t l.frame = some e ∧ e.enteredOn c = f.enteredOn c + 1)) ∧
    (∀ h rest, mget s.print.segments c [] = h :: rest → LedgersIdle s → FramesKeyed s →
      (∀ f, frameAt s h.frame = some f → basisOf s h.group (targetOf s h) = none → underspeed s h.group (targetOf s h) = false →
        Acts s (.holdSegmentArrive c) (fun t => t.lode.hold = s.lode.hold ++ [h] ∧ mget t.print.segments c [] = rest)) ∧
      (∀ f, frameAt s h.frame = some f → (basisOf s h.group (targetOf s h)).isSome = true → inPair s = false → h.withheld = false →
        Acts s (.holdSegmentArrive c) (fun t => h ∉ t.lode.hold ∧ ∃ e, frameAt t h.frame = some e ∧ e.openRows = f.openRows - 1)) ∧
      (frameAt s h.frame = none → Acts s (.holdSegmentArrive c) (fun t => t.lode.hold = s.lode.hold ∧
        mget t.print.segments c [] = rest)))

/-- R14, R76, R80: the channels of a group meet the limiter together: each line's levels are settled, a DIRECT line's as its band gives
them and a line with no screen as level 0; a pending limiter bank takes over at its line. -/
def Statement.LimiterLines : Prop :=
  ∀ (g : Fin 4) (s : State) (n : Nat), stands s pllPipeline = false → groupChannels s g ≠ [] →
    (∀ c ∈ groupChannels s g, ∃ l, limiterNext s c = some l ∧ l.line = n) →
    Acts s (.limiterLine g) (fun t =>
      (∀ c ∈ groupChannels s g, ∀ l, limiterNext s c = some l → ∃ v, { l with levels := some v } ∈ sedgeLines t c ∧
        (l.direct = true → v = (upto (spanCount s c)).map (nth l.cover)) ∧
        (l.direct = false → l.blankScreen = true → v = (upto (spanCount s c)).map (fun _ => 0))) ∧
      (flag s SDG.INKSTAT_PENDING g = true → mget s.print.limiterGe g 0 ≤ n →
        flag t SDG.INKSTAT_PENDING g = false ∧ getF t SDG.INKSTAT_ACTIVE g = 1 - getF s SDG.INKSTAT_ACTIVE g))

/-- R76, R77: where the protected part is within the limit, the weighted sum of what the limiter gives is too; and protected coverage is
never changed. -/
def Obligations.InkLimit : Prop :=
  ∀ (limit : Nat) (ps : List InkPart),
    (limitPixel limit ps).1.map (fun q => q.1) = ps.map (fun p => p.c) ∧
    (∀ e ∈ ps.zip ((limitPixel limit ps).1.map (fun q => q.2)), e.1.prot = true → e.2 = e.1.v) ∧
    (((ps.filter (fun p => p.prot)).map (fun p => p.w * p.v)).sum ≤ limit →
      ((ps.zip ((limitPixel limit ps).1.map (fun q => q.2))).map (fun e => e.1.w * e.2)).sum ≤ limit)

/-- R107, R108: a reload of rows that no running Lode uses is BUSY until it ends, and an invalid one is refused; when it ends, and when a
rebuild ends, the map holds what the records give. -/
def Statement.MapReloads : Prop :=
  (∀ (f : Fin 8) (v : Reg32) (s : State), HostWrites s f HMK.RELOAD.base → v.getLsbD 16 = true →
    (bits v.toNat 8 7 < bits v.toNat 0 7 → Acts s (.mapReload f v) (fun t => flag t HMK.RELOAD_REFUSED = true ∧ t.mem = s.mem)) ∧
    (bits v.toNat 0 7 ≤ bits v.toNat 8 7 → flag s HMK.RELOAD_BUSY = false → mireLocked s = true →
      (∀ r, bits v.toNat 0 7 ≤ r → r ≤ bits v.toNat 8 7 → lodeRuns s (rowChannel s r) = false) →
      Acts s (.mapReload f v) (fun t => flag t HMK.RELOAD_BUSY = true ∧ getF t HMK.RELOAD_FIRSTROW = bits v.toNat 0 7 ∧
        getF t HMK.RELOAD_LASTROW = bits v.toNat 8 7 ∧ t.print.reloadRows = (bits v.toNat 0 7, bits v.toNat 8 7) ∧ t.mem = s.mem))) ∧
  (∀ (s : State), stands s pllPipeline = false → LedgersIdle s →
    (flag s HMK.RELOAD_BUSY = true → s.print.afterReload = [] → Acts s .mapReloadEnd (fun t => flag t HMK.RELOAD_BUSY = false ∧
      ∀ r p, s.print.reloadRows.1 ≤ r → r ≤ s.print.reloadRows.2 → r < 128 → p < rowWidth →
        poisoned s (recordAddr s (nozzleAddr r p)) 2 = false →
        nozzleCode t (nozzleAddr r p) = loadNat s (recordAddr s (nozzleAddr r p)) 2 % 16)) ∧
    (flag s HMK.STAT_REBUILD = true → s.print.afterReload = [] → Acts s .mapRebuildEnd (fun t => flag t HMK.STAT_REBUILD = false ∧
      ∀ r p, r < 128 → p < rowWidth → poisoned s (recordAddr s (nozzleAddr r p)) 2 = false →
        nozzleCode t (nozzleAddr r p) = loadNat s (recordAddr s (nozzleAddr r p)) 2 % 16)))

/-! Mere. -/

/-- R163, R164: enabling a camera makes its checks and starts it, or leaves it in FAULT with the check that failed; disabling it turns it
OFF; its discovery ends STREAMING or in FAULT; the mailbox sends one command at a time, which ends with an acknowledgement or after
200 ms; a camera without heartbeats is in FAULT. -/
def Obligations.Cameras : Prop :=
  (∀ (f : Fin 8) (v : Reg32) (k : Fin 2) (s : State), HostWrites s f (MER.CAMCFG.off k) →
    (v.getLsbD 0 = true → Acts s (.cameraEnable f v k) (fun t =>
      getF t MER.CAMCFG_EN k = 1 ∧ getF t MER.CAMSTAT_CODE k = cameraCheck t k ∧ getF t MER.CAMREG_XADJ k = 0 ∧
      (cameraCheck t k = 0 → cameraState t k = 1 ∧ getF t MER.CAMSTAT_RSTATE k = startRstate t k) ∧
      (cameraCheck t k ≠ 0 → cameraState t k = 3 ∧ getF t MER.ERR_CAM_FAULT = 1))) ∧
    (v.getLsbD 0 = false → Acts s (.cameraDisable f v k) (fun t => getF t MER.CAMCFG_EN k = 0 ∧ cameraState t k = 0 ∧
      (cameraOf t k).lines = [] ∧ (cameraOf t k).sent = []))) ∧
  (∀ (f : Fin 8) (v : Reg32) (k : Fin 2) (s : State), HostWrites s f (MER.CCCTL.off k) → v.getLsbD 0 = true →
    flag s MER.CCCTL_BUSY k = false → Acts s (.cameraCmdGo f v k) (fun t =>
      (cameraState s k = 1 ∨ cameraState s k = 2 → flag t MER.CCCTL_BUSY k = true ∧ (cameraOf t k).cmdFrc = s.frc ∧
        (cameraOf t k).cmdWrite = flag t MER.CCCTL_WRITE k ∧ t.outs = if bankOn s 2 then s.outs ++
          [.cameraCommand k (flag t MER.CCCTL_WRITE k) (regRaw s (MER.CCADDR.off k)) (regRaw s (MER.CCDATA.off k))] else s.outs) ∧
      (cameraState s k ≠ 1 → cameraState s k ≠ 2 → getF t MER.CCCTL_STATUS k = 3 ∧ t.outs = s.outs))) ∧
  (∀ (k : Fin 2) (s : State), stands s pllPipeline = false →
    (cameraState s k = 1 → Acts s (.cameraStartEnd k .ok) (fun t => cameraState t k = 2) ∧
      Acts s (.cameraStartEnd k .discovery) (fun t => cameraState t k = 3 ∧ getF t MER.CAMSTAT_CODE k = 6) ∧
      Acts s (.cameraStartEnd k .refused) (fun t => cameraState t k = 3 ∧ getF t MER.CAMSTAT_CODE k = 7)) ∧
    (flag s MER.CCCTL_BUSY k = true →
      (∀ error v, Acts s (.cameraCmdAck k error v) (fun t => flag t MER.CCCTL_BUSY k = false ∧
        getF t MER.CCCTL_STATUS k = (if error then 2 else 0) ∧
        regRaw t (MER.CCDATA.off k) = if error || !(cameraOf s k).cmdWrite then v else regRaw s (MER.CCDATA.off k))) ∧
      ((cameraOf s k).cmdFrc + 250000000 ≤ s.frc → Acts s (.cameraCmdTimeout k) (fun t => flag t MER.CCCTL_BUSY k = false ∧
        getF t MER.CCCTL_STATUS k = 1)) ∧
      (s.frc < (cameraOf s k).cmdFrc + 250000000 → Acts s (.cameraCmdTimeout k) (fun t => OnlyRegs s t []))) ∧
    (cameraState s k = 1 ∨ cameraState s k = 2 →
      (∀ v, Acts s (.cameraEvent k v) (fun t => t = showPlls (raiseEvent s 5 0x10 k v))) ∧
      Acts s (.cameraDown k) (fun t => cameraState t k = 3 ∧ getF t MER.ERR_CAM_FAULT = 1)))

/-- R162, R170, R171: an image of a streaming camera is counted by its lines, or as an error where it is not as configured; the oldest
line received is taken to be compared, and counted where it is not compared. -/
def Statement.CameraLines : Prop :=
  ∀ (k : Fin 2) (s : State), stands s pllPipeline = false →
    (∀ m, cameraState s k = 2 → Acts s (.cameraImage k m) (fun t => (cameraOf t k).images = (cameraOf s k).images + 1 ∧
      (m.width ≠ camPix s k ∨ m.crcOk = false → (cameraOf t k).lines = (cameraOf s k).lines ∧
        getF t MER.CAMCNT (8 * k + 2) = satInc (getF s MER.CAMCNT (8 * k + 2))) ∧
      (m.width = camPix s k → m.format = getF s MER.CAMCFG_FORMAT k → m.height = imageLines s k → m.crcOk = true →
        imageLines s k ≤ m.lines.length → getF t MER.CAMCNT (8 * k) = satAdd (getF s MER.CAMCNT (8 * k)) (imageLines s k)))) ∧
    (∀ l rest, (cameraOf s k).lines = l :: rest →
      (∀ able, Acts s (.cameraLineCompare k able) (fun t => (cameraOf t k).lines = rest)) ∧
      (∀ b, blockOfTrigger s k l.trigger = some b → Acts s (.cameraLineCompare k false) (fun t =>
        getF t MER.CAMCNT (8 * k + 3) = satInc (getF s MER.CAMCNT (8 * k + 3)))))

/-- R173, R178: DEFECT is raised while the ring holds records, at most once in 100 µs; the firmware takes its oldest section notice; and
an update refused with QUEUE_FULL is issued again after 100 µs. -/
def Statement.Inspection : Prop :=
  ∀ (s : State), stands s pllPipeline = false →
    (getF s MER.DRHEAD ≠ getF s MER.DRTAIL → (s.mere.lastEvent = none ∨ ∃ a, s.mere.lastEvent = some a ∧ a + 125000 ≤ s.frc) →
      Acts s .defectEvent (fun t => t.mere.lastEvent = some s.frc ∧ t.mem = s.mem)) ∧
    (getF s MER.DRHEAD = getF s MER.DRTAIL → Acts s .defectEvent (fun t => OnlyRegs s t [])) ∧
    (∀ (r : Fin 4) n, s.mere.notices.find? (fun n => n.reed == 8 + r.val) = some n →
      Acts s (.nozzleDecision r) (fun t => t.mere.notices = s.mere.notices.erase n)) ∧
    (∀ i rest, s.mere.retries = i :: rest →
      (i.frc + 125000 ≤ s.frc → Acts s .mapsetRetry (fun t => t.mere.issued = s.mere.issued + 1 ∧
        (t.mere.retries = rest ∨ ∃ j, t.mere.retries = rest ++ [j] ∧ j.frc = s.frc))) ∧
      (s.frc < i.frc + 125000 → Acts s .mapsetRetry (fun t => OnlyRegs s t [])))

/-! Time, network. -/

/-- R355 to R358, R360: a time domain is stepped once armed and not while printing follows it, its rate is bounded and its time goes on
without a jump, the working time goes on from its present value when its domain changes and follows it once the gap is closed, and
SNAP latches all three. -/
def Obligations.TimeDomains : Prop :=
  (∀ (f : Fin 8) (v : Reg32) (d : Fin 2) (s : State), HostWrites s f (TIM.TDCTL_ACQ.off d) → bit v.toNat TIM.TDCTL_ACQ.lo = true →
    Acts s (.timeAcq f v d) (fun t => (stepRefused s d = false → getF t TIM.TDSTAT_STATE d = 1) ∧
      (stepRefused s d = true → getF t TIM.ERR_ACQ_REF = 1 ∧ getF t TIM.TDSTAT_STATE d = getF s TIM.TDSTAT_STATE d))) ∧
  (∀ (f : Fin 8) (v : Reg32) (d : Fin 2) (s : State), HostWrites s f (TIM.STEP.base + 8 * d + 4) →
    Acts s (.domainStep f v d) (fun t =>
      (getF s TIM.TDSTAT_STATE d = 1 → stepRefused s d = false → getF t TIM.TDSTAT_STATE d = 2 ∧
        offset32 t d = unsign ((offset32 s d : Int) +
          signed (stagedLow s f (TIM.STEP.base + 8 * d) + 2 ^ 32 * v.toNat) 64 * 2 ^ 32 + (getF s TIM.STEPFR_FRAC d * 65536 : Nat)) 96) ∧
      (getF s TIM.TDSTAT_STATE d = 1 → stepRefused s d = true → getF t TIM.ERR_ACQ_REF = 1 ∧ offset32 t d = offset32 s d) ∧
      (getF s TIM.TDSTAT_STATE d ≠ 1 → getF t TIM.ERR_STEP_IGN = 1 ∧ offset32 t d = offset32 s d))) ∧
  (∀ (f : Fin 8) (v : Reg32) (d : Fin 2) (s : State), HostWrites s f (TIM.RATE.base + 8 * d + 4) →
    Acts s (.domainRate f v d) (fun t =>
      getP t TIM.RATE d = min rateHigh (max rateLow (stagedLow s f (TIM.RATE.base + 8 * d) + 2 ^ 32 * v.toNat)) ∧
      domainTimeAt t d (s.frc + 1) = domainTimeAt s d (s.frc + 1))) ∧
  (∀ (f : Fin 8) (v : Reg32) (s : State), HostWrites s f TIM.WORK_SEL.base → bits v.toNat 0 1 ≠ getF s TIM.WORK_SEL →
    Acts s (.workSelect f v) (fun t => work32 t = work32 s ∧
      (getF s TIM.TDSTAT_STATE (bits v.toNat 0 1) = 2 → getF t TIM.WORK_SEL = bits v.toNat 0 1 ∧ flag t TIM.WORK_SWITCHING = true) ∧
      (getF s TIM.TDSTAT_STATE (bits v.toNat 0 1) ≠ 2 → getF t TIM.ERR_WORK_REF = 1 ∧ getF t TIM.WORK_SEL = getF s TIM.WORK_SEL))) ∧
  (∀ (s : State), stands s pllTime = false → flag s TIM.WORK_SWITCHING = true →
    (correctionAt s s.frc = 0 → Acts s .timeSwitched (fun t => flag t TIM.WORK_SWITCHING = false ∧ work32 t = work32 s)) ∧
    (2 ^ 32 ≤ correctionAt s s.frc → Acts s .timeSwitched (fun t => OnlyRegs s t []))) ∧
  (∀ (f : Fin 8) (v : Reg32) (s : State), HostWrites s f TIM.SNAP_GO.base → v.getLsbD 0 = true →
    Acts s (.timeSnap f v) (fun t =>
      (∀ d : Fin 2, getP t TIM.SNSEC d = domainTimeAt s d s.frc / 2 ^ 32 / 1000000000 ∧
        getF t TIM.SNNS d = domainTimeAt s d s.frc / 2 ^ 32 % 1000000000) ∧
      getP t TIM.SNSEC 2 = work32 s / 2 ^ 32 / 1000000000 ∧ getF t TIM.SNNS 2 = work32 s / 2 ^ 32 % 1000000000))

/-- R242, R359 to R361: a TRIG acts on its output when working time reaches its TIME and completes, a PULSE at its end; a PERIOD output
rises at whole multiples of its period; MODE 1 cancels what is pending; an edge is stamped while fewer than 16 are held and POP
discards the oldest; a marker rises at its mark and falls after its width. -/
def Obligations.TimedPins : Prop :=
  (∀ (o : Fin 16) (s : State), stands s pllTime = false →
    (∀ t r, pendTrigs s o = t :: r →
      (t.time ≤ workNs s → Acts s (.trigAction o) (fun u => pendTrigs u o = r ∧
        (t.action < 2 → flag u TIM.TOCFG_LEVEL o = (t.action == 0) ∧ opOf u t.op = none) ∧
        (t.action = 2 → flag u TIM.TOCFG_LEVEL o = true ∧ pulsesOf u o = pulsesOf s o ++ [⟨workNs s + 10 * t.width, t.op, false⟩]) ∧
        (t.action = 3 → flag u TIM.TOCFG_LEVEL o = !flag s TIM.TOCFG_LEVEL o ∧ opOf u t.op = none))) ∧
      (workNs s < t.time → Acts s (.trigAction o) (fun u => OnlyRegs s u []))) ∧
    (∀ p, (pulsesOf s o).find? (fun p => decide (p.ends ≤ workNs s)) = some p →
      Acts s (.trigPulseEnd o) (fun u => flag u TIM.TOCFG_LEVEL o = false ∧ opOf u p.op = none)) ∧
    (flag s TIM.TOCFG_MODE o = true →
      ∀ last m, last = mget s.time.rose o (none, 0) →
        m = workNs s / (1000 * max 1 (getF s TIM.TOPER_PERIOD o)) * (1000 * max 1 (getF s TIM.TOPER_PERIOD o)) →
        Acts s (.toutPeriodEdge o) (fun u =>
          (min last.2 (workNs s - 1) < m → flag u TIM.TOCFG_LEVEL o = true ∧ mfind u.time.rose o = some (some m, workNs s)) ∧
          (m ≤ min last.2 (workNs s - 1) → ∀ r, last.1 = some r → r + 10 * max 1 (getF s TIM.TOCFG_WIDTH o) ≤ workNs s →
            flag u TIM.TOCFG_LEVEL o = false) ∧
          (m ≤ min last.2 (workNs s - 1) → (∀ r, last.1 = some r → workNs s < r + 10 * max 1 (getF s TIM.TOCFG_WIDTH o)) →
            OnlyRegs s u []))) ∧
    (flag s TIM.TOCFG_MODE o = false → Acts s (.toutPeriodEdge o) (fun u => OnlyRegs s u []))) ∧
  (∀ (f : Fin 8) (v : Reg32) (o : Fin 16) (s : State), HostWrites s f (TIM.TOCFG_MODE.off o) →
    Acts s (.toutModeWrite f v o) (fun u => flag u TIM.TOCFG_MODE o = v.getLsbD 0 ∧
      pendTrigs u o = if v.getLsbD 0 then [] else pendTrigs s o)) ∧
  (∀ (n : Fin 8) (rising : Bool) (s : State), stands s pllTime = false →
    Acts s (.tinEdge n rising) (fun u => stampsOf u n =
      if bankOn s 1 = true ∧ flagBit s TIM.TINCFG_EDGE (if rising then 0 else 1) n = true ∧ (stampsOf s n).length < 16
      then stampsOf s n ++ [(s.frc, rising)] else stampsOf s n)) ∧
  (∀ (f : Fin 8) (v : Reg32) (n : Fin 8) (s : State), HostWrites s f (TIM.TINCFG_POP.off n) → v.getLsbD 2 = true →
    Acts s (.tinPop f v n) (fun u => stampsOf u n = (stampsOf s n).drop 1)) ∧
  (∀ (k : Fin 4) (s : State), stands s pllTime = false →
    (∀ m a rest, pendingMarks s k = m :: rest → m.rise = some a → a ≤ workNs s → Acts s (.markPulse k) (fun u =>
      pendingMarks u k = rest ∧ (mfind u.time.markHigh k).isSome = true ∧ ∀ o ∈ m.ops, opOf u o = none)) ∧
    (∀ m b, mfind s.time.markHigh k = some m → m.fall = some b →
      (b ≤ workNs s → Acts s (.markPulseEnd k) (fun u => mfind u.time.markHigh k = none ∧
        u.outs = if bankOn s 1 then s.outs ++ [.mark k false] else s.outs)) ∧
      (workNs s < b → Acts s (.markPulseEnd k) (fun u => OnlyRegs s u []))))

/-- R362 to R367: a frame received on a port with its link is counted, dropped where its check fails or no descriptor is ready, and stored
otherwise; a frame ready leaves in strict priority; a valid PRESS_STATE is copied; STATUS is sent; SPDLIM shows the limit. -/
def Obligations.Network : Prop :=
  (∀ (p : Fin 4) (bs : List Byte) (s : State), stands s pllControl = false →
    (portUp s p = false → Acts s (.ethRxFrame p bs) (fun t => OnlyRegs s t []) ∧ Acts s (.ethTxFrame p) (fun t => OnlyRegs s t [])) ∧
    (portUp s p = true → (bs.length < 64 ∨ 9216 < bs.length) → Acts s (.ethRxFrame p bs) (fun t =>
      getF t ETH.CNT (8 * p + 1) = satInc (getF s ETH.CNT (8 * p + 1)) ∧ OnlyRegs s t [ETH.CNT.off (8 * p + 1)])) ∧
    (portUp s p = true → 64 ≤ bs.length → bs.length ≤ 9216 → crc32 (slice bs 0 (bs.length - 4)) = field bs (bs.length - 4) 4 →
      be16 bs (typeAt bs) ≠ 0x8808 →
      (ethDesc s (16 * p + rxQueue s bs) = none → Acts s (.ethRxFrame p bs) (fun t =>
        getF t ETH.CNT (8 * p) = satInc (getF s ETH.CNT (8 * p)) ∧ getF t ETH.CNT (8 * p + 2) = satInc (getF s ETH.CNT (8 * p + 2)))) ∧
      ((ethDesc s (16 * p + rxQueue s bs)).isSome = true → Acts s (.ethRxFrame p bs) (fun t =>
        getF t ETH.CNT (8 * p) = satInc (getF s ETH.CNT (8 * p)) ∧
        getF t ETH.QPTR_HEAD (16 * p + rxQueue s bs) = (getF s ETH.QPTR_HEAD (16 * p + rxQueue s bs) + 1) % 2 ^ 16))) ∧
    (∀ j w u bs x, portUp s p = true → txQueue s p = some j → ethDesc s (16 * p + j) = some (w, u) →
      engineRead u 0 0 (bits w 0 48) (bits w 48 14) .failed = (.bytes bs, x) → Acts s (.ethTxFrame p) (fun t =>
        getF t ETH.CNT (8 * p + 4) = satInc (getF s ETH.CNT (8 * p + 4)) ∧
        getF t ETH.QPTR_HEAD (16 * p + j) = (getF s ETH.QPTR_HEAD (16 * p + j) + 1) % 2 ^ 16 ∧ ∃ m, .ethernet p m ∈ t.outs))) ∧
  (∀ (bs : List Byte) (s : State), stands s pllControl = false → field bs 0 2 = 0x4D51 → field bs 2 1 = 1 →
    (field bs 3 1 = 3 → 8 ≤ field bs 10 2 → 24 ≤ bs.length → Acts s (.pressStateReceived bs) (fun t => getF t ETH.PRESS = field bs 16 4)) ∧
    (4 ≤ field bs 3 1 → Acts s (.pressStateReceived bs) (fun t => OnlyRegs s t [ETH.CNT.off (8 * getF s ETH.PMS_NETPORT + 3)]))) ∧
  (∀ (s : State), stands s pllControl = false → portUp s (getF s ETH.PMS_NETPORT) = true → (∀ g < 4, limitOf s g = speedLimit s g) →
    Acts s .pmsStatusSend (fun t => t.time.pmsSeq = s.time.pmsSeq + 1 ∧
      ∃ m, t.outs = s.outs ++ [.press (getF s ETH.PMS_NETPORT) (regRaw s (ETH.PMSDEST.off 0)) m])) ∧
  (∀ (s : State), stands s pllTime = false → Acts s .spdlimPeriod (fun t => getF t TIM.SPDSTAT_DUTY = spdDuty s ∧
    t.time.spdlimOn = true ∧
    (bankOn s 1 = true → t.outs.getLast? = some (.spdlim (spdDuty s)))))

/-! Feedback and motion. -/

/-- R369 to R376, R381, R382, R450: with the bank of its inputs on, a transition counts by its mode, and an illegal one is counted as such; a serial reading is taken or counted
as failed; the index is captured once; a window, a standstill and a freeze act on the speed and state; a channel is enabled by a
configuration it can run, cleared once its cause has gone for 1 ms, and read with its high half kept. -/
def Statement.FeedbackChannels : Prop :=
  (∀ (c : Fin 12) (pins : Fin 8) (s : State) (levels : Nat), stands s pllMotion = false → LedgersIdle s →
    levels = (if bankOn s 4 then pins.val else 0) →
    Acts s (.encTransition c pins) (fun t => (channelOf t c).levels = levels ∧
      (flag s ENC.CFG_EN c = true → ∀ d, decodeLevels (getF s ENC.CFG_MODE c) (channelOf s c).levels levels = .step d →
        (channelOf t c).x = (channelOf s c).x + (if flag s ENC.CFG_DIR c then -d else d)) ∧
      (flag s ENC.CFG_EN c = true → decodeLevels (getF s ENC.CFG_MODE c) (channelOf s c).levels levels = .bad →
        getF t ENC.ILLCNT c = satInc (getF s ENC.ILLCNT c) ∧ (channelOf t c).x = (channelOf s c).x) ∧
      (flag s ENC.CFG_EN c = false ∨ decodeLevels (getF s ENC.CFG_MODE c) (channelOf s c).levels levels = .still →
        channelOf t c = { channelOf s c with levels := levels }))) ∧
  (∀ (c : Fin 12) (data crc ago : Nat) (nerr nwarn trailing timeout : Bool) (s : State), stands s pllMotion = false → LedgersIdle s →
    flag s ENC.CFG_EN c = true → (channelOf s c).reading = none → bankOn s 4 = true →
    (getF s ENC.CFG_MODE c = 3 → timeout = true → Acts s (.serialReading c data nerr nwarn crc trailing timeout ago) (fun t =>
      getF t ENC.STAT_TMOUT c = 1 ∧ getF t ENC.CRCCNT c = satInc (getF s ENC.CRCCNT c))) ∧
    (getF s ENC.CFG_MODE c = 3 → timeout = false → nerr = true →
      crc % 64 = 63 - crcMsb 6 0x03 0 (msbBits (serialBits s c) (data % 2 ^ serialBits s c) ++ [nerr, nwarn]) →
      Acts s (.serialReading c data nerr nwarn crc trailing timeout ago) (fun t =>
        (channelOf t c).x = (if flag s ENC.CFG_DIR c then -1 else 1) * (data % 2 ^ serialBits s c : Nat) ∧
        (channelOf t c).reading = some (data % 2 ^ serialBits s c, s.frc - ago))) ∧
    (getF s ENC.CFG_MODE c = 4 → trailing = true → Acts s (.serialReading c data nerr nwarn crc trailing timeout ago) (fun t =>
      getF t ENC.CRCCNT c = satInc (getF s ENC.CRCCNT c)))) ∧
  (∀ (c : Fin 12) (s : State), stands s pllMotion = false → flag s ENC.CFG_EN c = true → isSerial s c = false → bankOn s 4 = true →
    (∀ rising, getF s ENC.CFG_IDXMODE c ≠ 0 → rising ≠ flag s ENC.CFG_ZINV c → (channelOf s c).indexed = false →
      Acts s (.indexEdge c rising) (fun t => getF t ENC.IDXCAP c = wrapped s c ∧ (channelOf t c).indexed = true ∧
        (channelOf t c).x = (channelOf s c).x)) ∧
    (∀ rising, (channelOf s c).indexed = true → Acts s (.indexEdge c rising) (fun t => OnlyRegs s t [])) ∧
    Acts s (.speedWindow c) (fun t => (channelOf t c).windowX = (channelOf s c).x ∧ (channelOf t c).windowEdges = 0 ∧
      (getF s ENC.STAT_STATE c = 1 → 64 ≤ (channelOf s c).windowEdges → flag t ENC.STAT_SPDMODE c = true ∧
        getP t ENC.SPEED c = unsign (((channelOf s c).x - (channelOf s c).windowX) * 100000 * 65536) 64))) ∧
  (∀ (c : Fin 12) (s : State) (e : Edge), stands s pllMotion = false → getF s ENC.STAT_STATE c = 1 → isSerial s c = false →
    (channelOf s c).edge = some e →
    (max (channelOf s c).since e.frc + 1250000 * max 1 (getF s ENC.SPDCFG_TMO c) ≤ s.frc → Acts s (.standstill c) (fun t => getP t ENC.SPEED c = 0 ∧
      flag t ENC.STAT_SPDVALID c = true ∧ speedOf t c = 0)) ∧
    (s.frc < max (channelOf s c).since e.frc + 1250000 * max 1 (getF s ENC.SPDCFG_TMO c) → Acts s (.standstill c) (fun t => OnlyRegs s t []))) ∧
  (∀ (c : Fin 12) (s : State), stands s pllMotion = false → getF s ENC.STAT_STATE c = 1 → getF s ENC.LOSS_FRZTIME c ≠ 0 →
    effortHigh s c = true →
    max (channelOf s c).movedFrc (channelOf s c).quietFrc + 1250000 * getF s ENC.LOSS_FRZTIME c ≤ s.frc →
    Acts s (.fbFrozen c) (fun t => getF t ENC.STAT_STATE c = 3 ∧ getF t ENC.ERR_FROZEN = 1 ∧ getP t ENC.SPEED c = 0)) ∧
  (∀ (f : Fin 8) (v : Reg32) (c : Fin 12) (s : State),
    (HostWrites s f (ENC.CFG_EN.off c) →
      (v.getLsbD 0 = true → flag s ENC.CFG_EN c = false → Acts s (.encEnable f v c) (fun t =>
        (channelBad t c = false → flag t ENC.CFG_EN c = true ∧ getF t ENC.STAT_STATE c = 1 ∧ (channelOf t c).x = 0 ∧
          getP t ENC.CORR c = 0) ∧
        (channelBad t c = true → flag t ENC.CFG_EN c = false ∧ getF t ENC.ERR_CFG = 1))) ∧
      (v.getLsbD 0 = false → flag s ENC.CFG_EN c = true → Acts s (.encEnable f v c) (fun t => flag t ENC.CFG_EN c = false ∧
        getF t ENC.STAT_STATE c = 0))) ∧
    (HostWrites s f (ENC.CTL_CLR.off c) → v.getLsbD 0 = true → Acts s (.encClear f v c) (fun t =>
      (2 ≤ getF s ENC.STAT_STATE c → (channelOf s c).badFrc + 1250000 ≤ s.frc → readingsOverdue s c = false → getF t ENC.STAT_STATE c = 1) ∧
      (getF s ENC.STAT_STATE c < 2 ∨ s.frc < (channelOf s c).badFrc + 1250000 ∨ readingsOverdue s c = true → getF t ENC.ERR_CLR_REF = 1 ∧
        getF t ENC.STAT_STATE c = getF s ENC.STAT_STATE c))) ∧
    (HostReads s f (ENC.POS.base + 8 * c) → Acts s (.encPosRead f c) (fun t =>
      t.outs = s.outs ++ [.readDone f (some (BitVec.ofNat 32 (unsign (channelOf s c).x 64)))] ∧
      mfind t.snaps (pairKey f (ENC.POS.base + 8 * c + 4)) = some (BitVec.ofNat 32 (unsign (channelOf s c).x 64 / 2 ^ 32)) ∧
      mfind t.snaps (pairKey f (ENC.CNT.off c)) = some (BitVec.ofNat 32 (wrapped s c)) ∧ t.regs = (showPlls s).regs)))

/-- R377, R379: a line-trigger generator is enabled with a source and a spacing, and cannot be disabled while a group that it times is
printing. -/
def Statement.LineGenerators : Prop :=
  ∀ (f : Fin 8) (v : Reg32) (j : Fin 8) (s : State), HostWrites s f (ENC.LTGCFG_EN.off j) →
    (v.getLsbD 0 = true → generatorOn s j = false → Acts s (.ltgEnable f v j) (fun t =>
      (getF t ENC.LTGCFG_SRC j < 12 → lineSpacing s j ≠ 0 → generatorOn t j = true ∧ (generatorOf t j).since = s.frc) ∧
      ((12 ≤ getF t ENC.LTGCFG_SRC j ∨ lineSpacing s j = 0) → generatorOn t j = false ∧ getF t ENC.ERR_CFG = 1))) ∧
    (v.getLsbD 0 = false → generatorOn s j = true → Acts s (.ltgDisable f v j) (fun t =>
      ((∀ g < 4, getF s LDE.PGTIM_LTG g = j → groupPrinting s g = false) → generatorOn t j = false) ∧
      ((∃ g < 4, getF s LDE.PGTIM_LTG g = j ∧ groupPrinting s g = true) → generatorOn t j = true ∧ getF t ENC.ERR_LTG_BUSY = 1)))

/-- R387, R390, R391: an axis at a sample follows its profile, and its move ends at its target; HALT and WEB_STOP_IN stop it at once,
UNCERTAIN; CLR leaves FAULT. -/
def Obligations.AxisCommands : Prop :=
  (∀ (n : Fin 16) (s : State), stands s pllMotion = false →
    (axisOn s n = false → Acts s (.axisSample n) (fun t => OnlyRegs s t [])) ∧
    (axisState s n = 3 → flag s AXS.CFG_FBEN n = false → Acts s (.axisSample n) (fun t => axisState t n = 3 ∧
      (axisOf t n).x = (axisOf s n).x)) ∧
    (axisOn s n = true → axisState s n = 2 → flag s AXS.CFG_FBEN n = false → Acts s (.axisSample n) (fun t =>
      ((profileSample (axisOf s n)).2 = true → axisState t n = 1 ∧ (axisOf t n).x = (axisOf s n).target ∧ (axisOf t n).v = 0 ∧
        ∀ o, (axisOf s n).op = some o → opOf t o = none) ∧
      ((profileSample (axisOf s n)).2 = false → axisState t n = 2 ∧ (axisOf t n).x = (profileSample (axisOf s n)).1.x ∧
        (axisOf t n).v = (profileSample (axisOf s n)).1.v ∧ (axisOf t n).a = (profileSample (axisOf s n)).1.a))) ∧
    Acts s .webStopIn (fun t =>
      (axisOn s n = true → flag s AXS.CFG_WEBSTOP n = true → axisState s n = 1 ∨ axisState s n = 2 →
        axisState t n = 3 ∧ getF t AXS.STAT_STOPCAUSE n = 2 ∧ (axisOf t n).v = 0) ∧
      (flag s AXS.CFG_WEBSTOP n = false → axisState t n = axisState s n ∧ axisOf t n = axisOf s n))) ∧
  (∀ (f : Fin 8) (n : Fin 16) (s : State), HostWrites s f (AXS.CTL_HALT.off n) →
    (axisState s n = 1 ∨ axisState s n = 2 → Acts s (.axisHalt f 1 n) (fun t => axisState t n = 3 ∧
      flag t AXS.STAT_UNCERTAIN n = true ∧ getF t AXS.STAT_STOPCAUSE n = 1 ∧ (axisOf t n).v = 0 ∧ (axisOf t n).x = (axisOf s n).x)) ∧
    Acts s (.axisClear f 4 n) (fun t => axisState t n = (if axisState s n = 3 then 1 else axisState s n) ∧ t.motion = s.motion))

/-- R392: SETPOS of an IDLE axis sets x to HOME, clears UNCERTAIN and, with FBEN 1, records the channel's position as the origin; at any
other time it is ignored and sets SETPOS_REF. -/
def Obligations.HomePosition : Prop :=
  ∀ (f : Fin 8) (v : Reg32) (n : Fin 16) (s : State), HostWrites s f (AXS.CTL_HALT.off n) → v.toNat % 8 = 2 →
    Acts s (.axisSetpos f v n) (fun t =>
      (axisState s n = 1 → (axisOf t n).x = signed (getP s AXS.HOME n) 64 * 65536 ∧ flag t AXS.STAT_UNCERTAIN n = false ∧
        (axisOf t n).origin = (if flag s AXS.CFG_FBEN n then (channelOf s (getF s AXS.CFG_FBSRC n)).x else (axisOf s n).origin) ∧
        axisState t n = 1) ∧
      (axisState s n ≠ 1 → getF t AXS.STAT_SETPOS_REF n = 1 ∧ t.motion = s.motion ∧
        getF t AXS.STAT_UNCERTAIN n = getF s AXS.STAT_UNCERTAIN n))

/-- R395 to R398: a chopper cycle of a driven coil adapts that coil's offset; the run current moves by at most 15 toward what the load
asks, and is the maximum below VADAPT; a user table is written and read through its window, but not while it is in use. -/
def Statement.Steppers : Prop :=
  (∀ (st : Fin 8) (s : State), stands s pllMotion = false →
    (∀ b on decay early, coilsDriven s st = true → bankOn s 5 = true → coilTarget s st b ≠ 0 → Acts s (.chopCycle st b on decay early) (fun t =>
      (if b then (stepperOf t st).ofsB else (stepperOf t st).ofsA) = adaptOfs s st (if b then (stepperOf s st).ofsB else (stepperOf s st).ofsA)
        (max on (20 * getF s AXS.STCHOP_BLANK st)) early ∧
      (if b then (stepperOf t st).ofsA else (stepperOf t st).ofsB) = (if b then (stepperOf s st).ofsA else (stepperOf s st).ofsB))) ∧
    (∀ b on decay early, coilsDriven s st = false ∨ bankOn s 5 = false →
      Acts s (.chopCycle st b on decay early) (fun t => OnlyRegs s t [])) ∧
    (∀ b on decay early, coilsDriven s st = true → bankOn s 5 = true → coilTarget s st b = 0 →
      Acts s (.chopCycle st b on decay early) (fun t => t.outs = s.outs ++ [.coilOff st (bnat b)] ∧
        OnlyRegs { s with outs := t.outs } t [])) ∧
    (axisOn s st = true → isStepper s st = true → Acts s (.irunUpdate st) (fun t => OnlyRegs s t [AXS.STSTAT.off st] ∧
      (aboveVadapt s st = false → getF t AXS.STSTAT_IRUN st = getF s AXS.STCUR_IRUN_MAX st) ∧
      (aboveVadapt s st = true → getF t AXS.STSTAT_IRUN st ≤ getF s AXS.STSTAT_IRUN st + 15 ∧
        getF s AXS.STSTAT_IRUN st ≤ getF t AXS.STSTAT_IRUN st + 15)))) ∧
  (∀ (f : Fin 8) (v : Reg32) (s : State) (st b k : Nat), HostWrites s f AXS.TBLIDX_ENTRY.base →
    k = bits v.toNat 0 8 → b = bits v.toNat 8 1 → st = bits v.toNat 9 3 →
    (v.getLsbD 16 = true → v.getLsbD 17 = false → Acts s (.tableWrite f v) (fun t =>
      (tableRefused s st b = false → tableEntry t st b k = getF s AXS.TBLDATA_T ∧
        ∀ st' b' k', tableKey st' b' k' ≠ tableKey st b k → tableEntry t st' b' k' = tableEntry s st' b' k') ∧
      (tableRefused s st b = true → t.motion = s.motion ∧ getF t GLB.ACCERR_RWL_IGN = 1))) ∧
    (v.getLsbD 16 = false → v.getLsbD 17 = true → Acts s (.tableRead f v) (fun t =>
      getF t AXS.TBLDATA_T = tableEntry s st b k % 2 ^ 10 ∧ t.motion = s.motion)))

/-- R401, R402, R406 to R411: a loop in MANUAL puts out its setpoint within its bounds and its slew; a loop with SYNC waits for its slot;
an injection and a capture start and end; a PWM takes its duty; a sensor word that is accepted gives its value; a port is cleared. -/
def Statement.LoopCommands : Prop :=
  (∀ (l : Fin 24) (s : State), stands s pllMotion = false →
    (flag s LOP.PERIOD_SYNC l = true → Acts s (.loopSample l) (fun t => OnlyRegs s t [])) ∧
    (flag s LOP.PERIOD_SYNC l = false → engineMissing s l = false → (loopOf s l).pending = [] → loopMode s l = 1 →
      Acts s (.loopSample l) (fun t => loopMode t l = 1 ∧ (loopOf t l).sampled = some s.frc ∧
        getS t LOP.OUT l = clampInt (getS s LOP.OUT l - getF s LOP.SLEW (2 * l)) (getS s LOP.OUT l + getF s LOP.SLEW (2 * l))
          (clampInt (getS s LOP.OUTMIN (2 * l)) (getS s LOP.OUTMAX (2 * l)) (getS s LOP.SP l)))) ∧
    (engineMissing s l = false → driverOf s 1 l = none → motionUp s = true → bankOn s 6 = true → Acts s (.pwmPeriod l) (fun t =>
      t.outs = s.outs ++ [.pwm l (min (max 1 (getF s LOP.PWMPER_PER l)) (getF s LOP.PWMDUTY_HIGH l)) (max 1 (getF s LOP.PWMPER_PER l))] ∧
      OnlyRegs { s with motion := t.motion, outs := t.outs } t []))) ∧
  (∀ (f : Fin 8) (v : Reg32) (l : Fin 24) (s : State), HostWrites s f (LOP.INJ_GO.off l) → v.getLsbD 3 = true →
    flag s LOP.INJ_BUSY l = false → Acts s (.injectionStart f v l) (fun t =>
      (loopMode s l ≠ 0 → flag t LOP.INJ_BUSY l = true ∧ (loopOf t l).injected = 0 ∧ (loopOf t l).phase = 0) ∧
      (loopMode s l = 0 → flag t LOP.INJ_BUSY l = false ∧ t.motion = s.motion))) ∧
  (∀ (f : Fin 8) (k : Fin 2) (s : State) (c : Capture), HostWrites s f (LOP.CAPCTL_ABORT.off k) → captureOf s k = some c →
    Acts s (.captureAbort f 1 k) (fun t => captureOf t k = none ∧ flag t LOP.CAPCTL_BUSY k = false ∧ opOf t c.op = none)) ∧
  (∀ (p : Fin 8) (words : List Nat) (s : State), stands s pllMotion = false →
    (flag s SNS.PCFG_EN p = false → Acts s (.sensorPeriod p words) (fun t => OnlyRegs s t [])) ∧
    (flag s SNS.PCFG_EN p = true → getF s SNS.PCFG_NSLOT p = 0 → bankOn s 7 = true → flag s SNS.SCFG_CRCEN (4 * p) = false → getF s SNS.SCHK_MASK (4 * p) = 0 →
      flag s SNS.SCFG_SIGNED (4 * p) = false → Acts s (.sensorPeriod p words) (fun t =>
        getS t SNS.SVAL (4 * p) = (satQ ((bits (words.getD 0 0 % 2 ^ (getF s SNS.SCFG_LEN (4 * p) + 1)) (getF s SNS.SCFG_RXSHIFT (4 * p))
          (getF s SNS.SCFG_RXBITS (4 * p) + 1) : Nat) * getS s SNS.SGAIN (4 * p) + getS s SNS.SOFF (4 * p))).1))) ∧
  (∀ (f : Fin 8) (v : Reg32) (p : Fin 8) (s : State), HostWrites s f (SNS.CTL_CLR.off p) → v.getLsbD 0 = true →
    Acts s (.sensorClear f v p) (fun t => p.val ∈ t.motion.clearing ∧ ∀ k < 4, (slotOf t (4 * p + k)).accepted = false))

/-! The whole machine. -/

/-- R83, R157, R186, R254, R272, R335, R355, R413, R431: right after power-on reset every register reads its reset value, nothing is
stored in memory, the counter is 0, no thread or core runs, and no queue, frame, band or hub is in use. -/
def Obligations.ResetState : Prop :=
  (∀ o, regRaw State.reset o = regDefault o) ∧ (∀ a, memByte State.reset a = 0) ∧ State.reset.frc = 0 ∧ State.reset.pending = [] ∧
  State.reset.outs = [] ∧ (∀ k, coreOf State.reset k = Core.fresh) ∧
  (∀ k : Fin 16, getF State.reset CWY.TSTAT_STATE k = 0) ∧ (∀ n : Fin 32, getF State.reset RDC.STAT_STATE n = 0) ∧
  (∀ q : Fin 64, getF State.reset PCI.QSTAT_STATE q = 0 ∧ queueOf State.reset q = Queue.fresh) ∧
  (∀ g fsn, frameOf State.reset g fsn = none) ∧ (∀ h, bandOf State.reset h = none) ∧ (∀ i, headAt State.reset i = ⟨0, 0, 0, 0⟩) ∧
  (∀ c : Fin 8, getF State.reset SDG.CHSTAT_ACTIVE c = 2) ∧ getF State.reset SLC.MIRECTL_STATE = 0 ∧
  getF State.reset LDE.GEOSTAT_STATE = 0 ∧ getF State.reset MEM.STAT_STATE = 0 ∧
  (∀ h : Fin 40, getF State.reset DLK.HUBSTAT_STATE h = 0) ∧ State.reset.power.rstoutLow = true

/-- The invariants hold right after power-on reset. -/
def Obligations.InvariantsAtReset : Prop :=
  State.reset.locksShown ∧ FramesKeyed State.reset ∧ State.reset.canonical = true

/-- R418: CRS.PLLSTAT.LOCK shows, after every command and every tick, the PLLs that run. -/
def Obligations.LocksKept : Prop :=
  ∀ (s t : State), s.locksShown → step s = .next t → t.locksShown

/-- R271, R272: no command ever leaves two frames under one key of the ledger, or a frame under another frame's key. -/
def Obligations.FramesKept : Prop :=
  ∀ (s t : State), FramesKeyed s → step s = .next t → FramesKeyed t

/-- A step answers a next state, whatever command stands in front. -/
def Statement.StepsAdvance : Prop := ∀ (s : State), s.advances

/-- R8, R188: every command of the table is executed: from every state it answers a next state, and never a fault or a refusal. -/
def Obligations.EveryCommandCompletes : Prop := ∀ (i : Instr) (s : State), ∃ t, exec i s = .next t

/-- R418: while the PLL that clocks a block stands, its commands change nothing. Shown for one command of each PLL's blocks. -/
def Statement.StandingBlocks : Prop :=
  ∀ (s : State),
    (stands s pllControl = true → (∀ c, exec (.yield c) s = .next s) ∧ exec .heartbeatSend s = .next s) ∧
    (stands s pllPipeline = true → (∀ c, exec (.sedgeLineEntry c) s = .next s) ∧ ∀ e, exec (.inflateLine e) s = .next s) ∧
    (stands s pllTime = true → exec .spdlimPeriod s = .next s ∧ ∀ k, exec (.markPulse k) s = .next s) ∧
    (stands s pllMemory = true → exec .mireLockEnd s = .next s) ∧
    (stands s pllLanes = true → exec .claimSend s = .next s ∧ ∀ h, exec (.linkFrameSend h) s = .next s) ∧
    (stands s pllMotion = true → exec .webStopIn s = .next s ∧ ∀ l, exec (.loopSample l) s = .next s) ∧
    (stands s pllPcie = true → ∀ f o v, exec (.regWrite f o v) s = .next s)

/-! The statements that join several of the above. -/

/-- Every step answers a next state; on an empty queue it is one tick (the model's choice, log entry 3). -/
def Obligations.StepsAndTicks : Prop :=
  Statement.IdleTicks ∧ Statement.StepsAdvance

/-- Register and immediate operations that leave STATUS alone: results and frame. -/
def Obligations.Arithmetic : Prop :=
  Statement.AluResults ∧ Statement.BitCounts ∧ Statement.ImmediateResults

/-- Branches, J, JAL and JALR: where the pc goes and what is linked. -/
def Obligations.ControlFlow : Prop :=
  Statement.Branches ∧ Statement.Jumps

/-- MFS and MTS: each special register's value and what a write does. -/
def Obligations.SpecialRegisters : Prop :=
  Statement.SpecialReads ∧ Statement.SpecialWrites

/-- YIELD, FENCE and WFE: what falls through, what stalls, and what ends a WFE. -/
def Obligations.FencesAndEvents : Prop :=
  Statement.FencesAndWaits ∧ Statement.WfeWakes

/-- What faults instead of executing, with code, address and frame. -/
def Obligations.FaultingInstructions : Prop :=
  Statement.FaultingInstructions ∧ Statement.FetchFault ∧ Statement.AccessFaults

/-- Loads from data memories, SDRAM and the host window: results and frame. -/
def Obligations.Loads : Prop :=
  Statement.Loads ∧ Statement.HostLoads

/-- Stores and AMO: the bytes written, rd, and every other byte unchanged. -/
def Obligations.StoresAndAtomics : Prop :=
  Statement.Stores ∧ Statement.Atomics

/-- EXIT, CLEAR and the debug controls of threads and Reed cores. -/
def Obligations.Threads : Prop :=
  Statement.Exits ∧ Statement.ThreadClears ∧ Statement.Debug

/-- Doorbell, timer, RUN and image loading of Reed cores. -/
def Obligations.ReedCores : Prop :=
  Statement.ReedEvents ∧ Statement.ImageLoads

/-- WAITTIME, WAITPOS and WAITTAG: what returns at once, what waits, what ends a wait. -/
def Obligations.Waits : Prop :=
  Statement.Waits ∧ Statement.WaitsEnd ∧ Statement.TagWaits

/-- EVT, what a tagged operation faults or stalls on, and the end of a COPY. -/
def Obligations.PressResults : Prop :=
  Statement.ProgramEvents ∧ Statement.IssueLimits ∧ Statement.CopyEnds

/-- Host writes and reads of registers and pairs by access type, and Unsupported Requests. -/
def Obligations.RegisterAccesses : Prop :=
  Statement.RegisterWrites ∧ Statement.RegisterReads ∧ Statement.UnsupportedRequests

/-- Profile confirmation, block resets, downloads, fuses and the debug lock. -/
def Obligations.ProfileAndSecurity : Prop :=
  Statement.ProfileConfirms ∧ Statement.BlockResets ∧ Statement.Downloads ∧ Statement.Fuses ∧ Statement.DebugLock

/-- The memory controller starts, trains and changes frequency. -/
def Obligations.MemoryTraining : Prop :=
  Statement.MemoryStarts ∧ Statement.MemoryTrains

/-- Refresh, scrub, self-refresh and migration. -/
def Obligations.MemoryUpkeep : Prop :=
  Statement.MemoryUpkeep ∧ Statement.Migration

/-- Enables of lanes and quads, and quad rates. -/
def Obligations.LaneControl : Prop :=
  Statement.LaneEnables ∧ Statement.QuadRates

/-- Training, lock, loss of lock and reacquisition of a receiver. -/
def Obligations.LaneReceivers : Prop :=
  Statement.LaneTraining ∧ Statement.LaneLock

/-- Density windows, eye scans, PRBS, and the power states of a lane. -/
def Obligations.LaneMeasures : Prop :=
  Statement.LaneChecks ∧ Statement.LaneSleep

/-- Deep sleep, clock loss, PLL loss, and what stands with a PLL. -/
def Obligations.Clocks : Prop :=
  Statement.DeepSleep ∧ Statement.Clocks ∧ Statement.StandingBlocks

/-- Thresholds, sensors, zone levels, grace and TRIP. -/
def Obligations.Thermal : Prop :=
  Statement.ThermalWrites ∧ Statement.Thermal

/-- Warm reset, power-on reset, brown-out and RSTOUT. -/
def Obligations.Resets : Prop :=
  Statement.ResetWrites ∧ Statement.Resets

/-- Boot sources and containers, fuse completion, GPIO and I2C. -/
def Obligations.BootAndPins : Prop :=
  Statement.Boots ∧ Statement.PinEvents

/-- Doorbells, queue enable, disable and resume, entry fetch and the start of a thread. -/
def Obligations.Queues : Prop :=
  Statement.Queues ∧ Statement.Entries

/-- Event rings, MSI-X, functions, FLR, power states and the PCIe link. -/
def Obligations.FunctionsAndRings : Prop :=
  Statement.EventRings ∧ Statement.Functions ∧ Statement.PcieLink

/-- Flushing reads and dispositions: which record becomes visible, in which order. -/
def Obligations.LedgerRecords : Prop :=
  Statement.MirrorReads ∧ Statement.Dispositions

/-- Bring-up, control operations, enable and restart of a hub. -/
def Obligations.HubStates : Prop :=
  Statement.HubControl ∧ Statement.HubStates

/-- Frames sent to hubs, time exchange, silence, and lanes that leave and rejoin. -/
def Obligations.LinkSends : Prop :=
  Statement.LinkSends ∧ Statement.LinkLanes

/-- The order of twin messages, and HELLO, HEARTBEAT, TRIG, ENTRY and DIVERGE of a pair. -/
def Obligations.TwinMessages : Prop :=
  Statement.TwinOrder ∧ Statement.TwinMessages

/-- Records, changes, results, copies, resets and boot images between the units of a pair. -/
def Obligations.TwinLedger : Prop :=
  Statement.TwinLedger ∧ Statement.TwinCopies

/-- Resends, heartbeats, loss of the partner, and the commands of TWN.CTL. -/
def Obligations.TwinTimers : Prop :=
  Statement.TwinTimers ∧ Statement.TwinCommands

/-- Geometry validation and the Mire region check. -/
def Obligations.GeometryAndLock : Prop :=
  Statement.Geometry ∧ Statement.RegionLock

/-- The limiter at a line, and reload and rebuild of the Hummock map. -/
def Obligations.LimiterAndMap : Prop :=
  Statement.LimiterLines ∧ Statement.MapReloads

/-- Camera images, comparison, defect events and nozzle decisions. -/
def Obligations.Inspection : Prop :=
  Statement.CameraLines ∧ Statement.Inspection

/-- Position channels and line-trigger generators. -/
def Obligations.Feedback : Prop :=
  Statement.FeedbackChannels ∧ Statement.LineGenerators

/-- Stepper channels, sine tables, loop engines, PWM and sensor ports. -/
def Obligations.SteppersAndLoops : Prop :=
  Statement.Steppers ∧ Statement.LoopCommands
end

