-- ==== Sys2Proof/Laws/Maps.lean ====
section
/-!
SUPPORT. Laws of sparse storage: what is read after a write, and that writing keeps the one form.
-/

namespace Sys2Proof.Machine

variable {α : Type}

@[simp] theorem mfind_mdel_same (m : SMap α) (k : Nat) : mfind (mdel m k) k = none := by
  induction m with
  | nil => rfl
  | cons e r ih =>
    obtain ⟨j, v⟩ := e
    by_cases h : j = k <;> simp [mdel, mfind, h, ih]

theorem mfind_mdel_ne (m : SMap α) {j k : Nat} (h : j ≠ k) : mfind (mdel m j) k = mfind m k := by
  induction m with
  | nil => rfl
  | cons e r ih =>
    obtain ⟨i, v⟩ := e
    by_cases hi : i = j
    · have : i ≠ k := hi ▸ h
      simp [mdel, mfind, hi, ih, h]
    · simp only [mdel, hi, if_false, mfind, ih]

theorem mfind_mins_same (m : SMap α) (k : Nat) (v : α) (h : mfind m k = none) : mfind (mins m k v) k = some v := by
  induction m with
  | nil => simp [mins, mfind]
  | cons e r ih =>
    obtain ⟨j, w⟩ := e
    have hj : j ≠ k := by rintro rfl; simp [mfind] at h
    have hr : mfind r k = none := by simpa [mfind, hj] using h
    by_cases hlt : k < j <;> simp [mins, hlt, mfind, hj, ih hr]

theorem mfind_mins_ne (m : SMap α) {j k : Nat} (v : α) (h : j ≠ k) : mfind (mins m j v) k = mfind m k := by
  induction m with
  | nil => simp [mins, mfind, h]
  | cons e r ih =>
    obtain ⟨i, w⟩ := e
    by_cases hlt : j < i <;> simp [mins, hlt, mfind, h, ih]

@[simp] theorem mfind_mput_same (m : SMap α) (k : Nat) (v : α) : mfind (mput m k v) k = some v :=
  mfind_mins_same _ _ _ (mfind_mdel_same m k)

theorem mfind_mput_ne (m : SMap α) {j k : Nat} (v : α) (h : j ≠ k) : mfind (mput m j v) k = mfind m k := by
  rw [mput, mfind_mins_ne _ _ h, mfind_mdel_ne _ h]

@[simp] theorem mget_mput_same (m : SMap α) (k : Nat) (v d : α) : mget (mput m k v) k d = v := by simp [mget]

theorem mget_mput_ne (m : SMap α) {j k : Nat} (v d : α) (h : j ≠ k) : mget (mput m j v) k d = mget m k d := by
  simp [mget, mfind_mput_ne m v h]

theorem mrising_le {m : SMap α} {a b : Nat} (h : mrising b m = true) (hab : a ≤ b) : mrising a m = true := by
  cases m with
  | nil => rfl
  | cons e r =>
    obtain ⟨k, v⟩ := e
    simp only [mrising, Bool.and_eq_true, decide_eq_true_eq] at h ⊢
    exact ⟨by omega, h.2⟩

theorem mrising_mdel {m : SMap α} {b k : Nat} (h : mrising b m = true) : mrising b (mdel m k) = true := by
  induction m generalizing b with
  | nil => rfl
  | cons e r ih =>
    obtain ⟨j, v⟩ := e
    simp only [mrising, Bool.and_eq_true, decide_eq_true_eq] at h
    by_cases hj : j = k
    · simpa [mdel, hj] using mrising_le (ih h.2) (by omega)
    · simp [mdel, hj, mrising, h.1, ih h.2]

theorem mrising_mins {m : SMap α} {b k : Nat} {v : α} (h : mrising b m = true) (hb : b ≤ k) (hn : mfind m k = none) :
    mrising b (mins m k v) = true := by
  induction m generalizing b with
  | nil => simp [mins, mrising, hb]
  | cons e r ih =>
    obtain ⟨j, w⟩ := e
    have hj : j ≠ k := by rintro rfl; simp [mfind] at hn
    have hr : mfind r k = none := by simpa [mfind, hj] using hn
    simp only [mrising, Bool.and_eq_true, decide_eq_true_eq] at h
    by_cases hlt : k < j
    · simp [mins, hlt, mrising, hb, h.2]
    · simpa [mins, hlt, mrising, h.1] using ih h.2 (by omega) hr

theorem mrising_mput {m : SMap α} {k : Nat} {v : α} (h : mrising 0 m = true) : mrising 0 (mput m k v) = true :=
  mrising_mins (mrising_mdel h) (Nat.zero_le k) (mfind_mdel_same m k)

theorem all_mdel {m : SMap α} {k : Nat} {p : Nat × α → Bool} (h : m.all p = true) : (mdel m k).all p = true := by
  induction m with
  | nil => rfl
  | cons e r ih =>
    obtain ⟨j, v⟩ := e
    simp only [List.all_cons, Bool.and_eq_true] at h
    by_cases hj : j = k
    · simpa [mdel, hj] using ih h.2
    · simp only [mdel, hj, if_false, List.all_cons, h.1, Bool.true_and]; exact ih h.2

theorem all_mins {m : SMap α} {k : Nat} {v : α} {p : Nat × α → Bool} (h : m.all p = true) (hv : p (k, v) = true) :
    (mins m k v).all p = true := by
  induction m with
  | nil => simp [mins, hv]
  | cons e r ih =>
    obtain ⟨j, w⟩ := e
    have h' := h
    simp only [List.all_cons, Bool.and_eq_true] at h
    by_cases hlt : k < j
    · simp only [mins, hlt, if_true, List.all_cons, hv, Bool.true_and, h.1]; exact h.2
    · simp only [mins, hlt, if_false, List.all_cons, h.1, Bool.true_and]; exact ih h.2

theorem all_mput {m : SMap α} {k : Nat} {v : α} {p : Nat × α → Bool} (h : m.all p = true) (hv : p (k, v) = true) :
    (mput m k v).all p = true := all_mins (all_mdel h) hv

/-! Bit fields. -/

theorem setBits_lt (n lo w v b : Nat) (hn : n < 2 ^ b) (hb : lo + w ≤ b) : setBits n lo w v < 2 ^ b := by
  have hw : 0 < 2 ^ w := Nat.two_pow_pos w
  have hl : 0 < 2 ^ lo := Nat.two_pow_pos lo
  obtain ⟨k, rfl⟩ := Nat.exists_eq_add_of_le hb
  have h1 : n / 2 ^ (lo + w) < 2 ^ k := by
    rw [Nat.div_lt_iff_lt_mul (Nat.two_pow_pos _), ← pow_add]; simpa [Nat.add_comm] using hn
  have h2 : n % 2 ^ lo < 2 ^ lo := Nat.mod_lt _ hl
  have h3 : v % 2 ^ w < 2 ^ w := Nat.mod_lt _ hw
  have e : 2 ^ (lo + w + k) = 2 ^ lo * 2 ^ w * 2 ^ k := by rw [pow_add, pow_add]
  have e2 : 2 ^ (lo + w) = 2 ^ lo * 2 ^ w := pow_add 2 lo w
  unfold setBits
  rw [e, e2]; rw [e2] at h1
  generalize n / (2 ^ lo * 2 ^ w) = q at *
  generalize n % 2 ^ lo = r at *
  generalize v % 2 ^ w = u at *
  generalize 2 ^ lo = a at *
  generalize 2 ^ w = c at *
  generalize 2 ^ k = d at *
  have h4 : a * (u + 1) ≤ a * c := Nat.mul_le_mul_left a h3
  have h5 : (a * c) * (q + 1) ≤ (a * c) * d := Nat.mul_le_mul_left _ h1
  nlinarith

@[simp] theorem bits_setBits_same (n lo w v : Nat) : bits (setBits n lo w v) lo w = v % 2 ^ w := by
  have hl : 0 < 2 ^ lo := Nat.two_pow_pos lo
  unfold bits setBits
  rw [pow_add, Nat.mul_assoc, Nat.add_assoc, ← Nat.mul_add, Nat.add_mul_div_left _ _ hl,
    Nat.div_eq_of_lt (Nat.mod_lt n hl), Nat.zero_add, Nat.add_mul_mod_self_left, Nat.mod_mod]

theorem bits_setBits_above (n lo w v lo' w' : Nat) (h : lo + w ≤ lo') : bits (setBits n lo w v) lo' w' = bits n lo' w' := by
  obtain ⟨k, rfl⟩ := Nat.exists_eq_add_of_le h
  have hlw : 0 < 2 ^ (lo + w) := Nat.two_pow_pos _
  have hs : n % 2 ^ lo + 2 ^ lo * (v % 2 ^ w) < 2 ^ (lo + w) := by
    have h2 : n % 2 ^ lo < 2 ^ lo := Nat.mod_lt _ (Nat.two_pow_pos lo)
    have h3 : v % 2 ^ w + 1 ≤ 2 ^ w := Nat.mod_lt _ (Nat.two_pow_pos w)
    have h4 := Nat.mul_le_mul_left (2 ^ lo) h3
    rw [pow_add]; rw [Nat.mul_add] at h4; omega
  unfold bits setBits
  rw [pow_add 2 (lo + w) k, ← Nat.div_div_eq_div_mul, ← Nat.div_div_eq_div_mul, Nat.add_mul_div_left _ _ hlw,
    Nat.div_eq_of_lt hs, Nat.zero_add]

theorem bits_setBits_below (n lo w v lo' w' : Nat) (h : lo' + w' ≤ lo) : bits (setBits n lo w v) lo' w' = bits n lo' w' := by
  obtain ⟨k, rfl⟩ := Nat.exists_eq_add_of_le h
  unfold bits setBits
  have e1 : (2 : Nat) ^ (lo' + w' + k) = 2 ^ lo' * (2 ^ w' * 2 ^ k) := by rw [pow_add, pow_add, Nat.mul_assoc]
  have hl : 0 < 2 ^ lo' := Nat.two_pow_pos _
  have e2 : 2 ^ (lo' + w' + k) * (v % 2 ^ w) + 2 ^ (lo' + w' + k + w) * (n / 2 ^ (lo' + w' + k + w)) =
      2 ^ lo' * (2 ^ w' * (2 ^ k * (v % 2 ^ w) + 2 ^ k * 2 ^ w * (n / 2 ^ (lo' + w' + k + w)))) := by
    rw [pow_add 2 (lo' + w' + k) w, e1]; ring
  rw [Nat.add_assoc, e2, Nat.add_mul_div_left _ _ hl, Nat.add_mul_mod_self_left, e1, Nat.mod_mul_right_div_self,
    Nat.mod_mul_right_mod]

end Sys2Proof.Machine
end

