-- ==== Sys2Proof/Laws/State.lean ====
section
/-!
SUPPORT. What each update of a part of the state leaves alone: one lemma per update and field.
-/

namespace Sys2Proof.Machine

@[simp] theorem regPut_pending (s : State) (o : Nat) (v : Reg32) : (regPut s o v).pending = s.pending := rfl
@[simp] theorem regPut_stage (s : State) (o : Nat) (v : Reg32) : (regPut s o v).stage = s.stage := rfl
@[simp] theorem regPut_snaps (s : State) (o : Nat) (v : Reg32) : (regPut s o v).snaps = s.snaps := rfl
@[simp] theorem regPut_mem (s : State) (o : Nat) (v : Reg32) : (regPut s o v).mem = s.mem := rfl
@[simp] theorem regPut_poison (s : State) (o : Nat) (v : Reg32) : (regPut s o v).poison = s.poison := rfl
@[simp] theorem regPut_frc (s : State) (o : Nat) (v : Reg32) : (regPut s o v).frc = s.frc := rfl
@[simp] theorem regPut_fresh (s : State) (o : Nat) (v : Reg32) : (regPut s o v).fresh = s.fresh := rfl
@[simp] theorem regPut_outs (s : State) (o : Nat) (v : Reg32) : (regPut s o v).outs = s.outs := rfl
@[simp] theorem regPut_host (s : State) (o : Nat) (v : Reg32) : (regPut s o v).host = s.host := rfl
@[simp] theorem regPut_time (s : State) (o : Nat) (v : Reg32) : (regPut s o v).time = s.time := rfl
@[simp] theorem regPut_ledger (s : State) (o : Nat) (v : Reg32) : (regPut s o v).ledger = s.ledger := rfl
@[simp] theorem regPut_intake (s : State) (o : Nat) (v : Reg32) : (regPut s o v).intake = s.intake := rfl
@[simp] theorem regPut_twin (s : State) (o : Nat) (v : Reg32) : (regPut s o v).twin = s.twin := rfl
@[simp] theorem regPut_lode (s : State) (o : Nat) (v : Reg32) : (regPut s o v).lode = s.lode := rfl
@[simp] theorem regPut_print (s : State) (o : Nat) (v : Reg32) : (regPut s o v).print = s.print := rfl
@[simp] theorem regPut_dlk (s : State) (o : Nat) (v : Reg32) : (regPut s o v).dlk = s.dlk := rfl
@[simp] theorem regPut_feedback (s : State) (o : Nat) (v : Reg32) : (regPut s o v).feedback = s.feedback := rfl
@[simp] theorem regPut_mere (s : State) (o : Nat) (v : Reg32) : (regPut s o v).mere = s.mere := rfl
@[simp] theorem regPut_memctl (s : State) (o : Nat) (v : Reg32) : (regPut s o v).memctl = s.memctl := rfl
@[simp] theorem regPut_lane (s : State) (o : Nat) (v : Reg32) : (regPut s o v).lane = s.lane := rfl
@[simp] theorem regPut_motion (s : State) (o : Nat) (v : Reg32) : (regPut s o v).motion = s.motion := rfl
@[simp] theorem regPut_power (s : State) (o : Nat) (v : Reg32) : (regPut s o v).power = s.power := rfl
@[simp] theorem regPut_boot (s : State) (o : Nat) (v : Reg32) : (regPut s o v).boot = s.boot := rfl
@[simp] theorem coreOf_regPut (s : State) (o : Nat) (v : Reg32) (x : Nat) : coreOf (regPut s o v) x = coreOf s x := rfl
@[simp] theorem queueOf_regPut (s : State) (o : Nat) (v : Reg32) (x : Nat) : queueOf (regPut s o v) x = queueOf s x := rfl
@[simp] theorem memByte_regPut (s : State) (o : Nat) (v : Reg32) (x : Nat) : memByte (regPut s o v) x = memByte s x := rfl

@[simp] theorem setF_pending (s : State) (f : Fld) (v i : Nat) : (setF s f v i).pending = s.pending := rfl
@[simp] theorem setF_stage (s : State) (f : Fld) (v i : Nat) : (setF s f v i).stage = s.stage := rfl
@[simp] theorem setF_snaps (s : State) (f : Fld) (v i : Nat) : (setF s f v i).snaps = s.snaps := rfl
@[simp] theorem setF_mem (s : State) (f : Fld) (v i : Nat) : (setF s f v i).mem = s.mem := rfl
@[simp] theorem setF_poison (s : State) (f : Fld) (v i : Nat) : (setF s f v i).poison = s.poison := rfl
@[simp] theorem setF_frc (s : State) (f : Fld) (v i : Nat) : (setF s f v i).frc = s.frc := rfl
@[simp] theorem setF_fresh (s : State) (f : Fld) (v i : Nat) : (setF s f v i).fresh = s.fresh := rfl
@[simp] theorem setF_outs (s : State) (f : Fld) (v i : Nat) : (setF s f v i).outs = s.outs := rfl
@[simp] theorem setF_host (s : State) (f : Fld) (v i : Nat) : (setF s f v i).host = s.host := rfl
@[simp] theorem setF_time (s : State) (f : Fld) (v i : Nat) : (setF s f v i).time = s.time := rfl
@[simp] theorem setF_ledger (s : State) (f : Fld) (v i : Nat) : (setF s f v i).ledger = s.ledger := rfl
@[simp] theorem setF_intake (s : State) (f : Fld) (v i : Nat) : (setF s f v i).intake = s.intake := rfl
@[simp] theorem setF_twin (s : State) (f : Fld) (v i : Nat) : (setF s f v i).twin = s.twin := rfl
@[simp] theorem setF_lode (s : State) (f : Fld) (v i : Nat) : (setF s f v i).lode = s.lode := rfl
@[simp] theorem setF_print (s : State) (f : Fld) (v i : Nat) : (setF s f v i).print = s.print := rfl
@[simp] theorem setF_dlk (s : State) (f : Fld) (v i : Nat) : (setF s f v i).dlk = s.dlk := rfl
@[simp] theorem setF_feedback (s : State) (f : Fld) (v i : Nat) : (setF s f v i).feedback = s.feedback := rfl
@[simp] theorem setF_mere (s : State) (f : Fld) (v i : Nat) : (setF s f v i).mere = s.mere := rfl
@[simp] theorem setF_memctl (s : State) (f : Fld) (v i : Nat) : (setF s f v i).memctl = s.memctl := rfl
@[simp] theorem setF_lane (s : State) (f : Fld) (v i : Nat) : (setF s f v i).lane = s.lane := rfl
@[simp] theorem setF_motion (s : State) (f : Fld) (v i : Nat) : (setF s f v i).motion = s.motion := rfl
@[simp] theorem setF_power (s : State) (f : Fld) (v i : Nat) : (setF s f v i).power = s.power := rfl
@[simp] theorem setF_boot (s : State) (f : Fld) (v i : Nat) : (setF s f v i).boot = s.boot := rfl
@[simp] theorem coreOf_setF (s : State) (f : Fld) (v i : Nat) (x : Nat) : coreOf (setF s f v i) x = coreOf s x := rfl
@[simp] theorem queueOf_setF (s : State) (f : Fld) (v i : Nat) (x : Nat) : queueOf (setF s f v i) x = queueOf s x := rfl
@[simp] theorem memByte_setF (s : State) (f : Fld) (v i : Nat) (x : Nat) : memByte (setF s f v i) x = memByte s x := rfl

@[simp] theorem setP_pending (s : State) (p : Pair) (v i : Nat) : (setP s p v i).pending = s.pending := rfl
@[simp] theorem setP_stage (s : State) (p : Pair) (v i : Nat) : (setP s p v i).stage = s.stage := rfl
@[simp] theorem setP_snaps (s : State) (p : Pair) (v i : Nat) : (setP s p v i).snaps = s.snaps := rfl
@[simp] theorem setP_mem (s : State) (p : Pair) (v i : Nat) : (setP s p v i).mem = s.mem := rfl
@[simp] theorem setP_poison (s : State) (p : Pair) (v i : Nat) : (setP s p v i).poison = s.poison := rfl
@[simp] theorem setP_frc (s : State) (p : Pair) (v i : Nat) : (setP s p v i).frc = s.frc := rfl
@[simp] theorem setP_fresh (s : State) (p : Pair) (v i : Nat) : (setP s p v i).fresh = s.fresh := rfl
@[simp] theorem setP_outs (s : State) (p : Pair) (v i : Nat) : (setP s p v i).outs = s.outs := rfl
@[simp] theorem setP_host (s : State) (p : Pair) (v i : Nat) : (setP s p v i).host = s.host := rfl
@[simp] theorem setP_time (s : State) (p : Pair) (v i : Nat) : (setP s p v i).time = s.time := rfl
@[simp] theorem setP_ledger (s : State) (p : Pair) (v i : Nat) : (setP s p v i).ledger = s.ledger := rfl
@[simp] theorem setP_intake (s : State) (p : Pair) (v i : Nat) : (setP s p v i).intake = s.intake := rfl
@[simp] theorem setP_twin (s : State) (p : Pair) (v i : Nat) : (setP s p v i).twin = s.twin := rfl
@[simp] theorem setP_lode (s : State) (p : Pair) (v i : Nat) : (setP s p v i).lode = s.lode := rfl
@[simp] theorem setP_print (s : State) (p : Pair) (v i : Nat) : (setP s p v i).print = s.print := rfl
@[simp] theorem setP_dlk (s : State) (p : Pair) (v i : Nat) : (setP s p v i).dlk = s.dlk := rfl
@[simp] theorem setP_feedback (s : State) (p : Pair) (v i : Nat) : (setP s p v i).feedback = s.feedback := rfl
@[simp] theorem setP_mere (s : State) (p : Pair) (v i : Nat) : (setP s p v i).mere = s.mere := rfl
@[simp] theorem setP_memctl (s : State) (p : Pair) (v i : Nat) : (setP s p v i).memctl = s.memctl := rfl
@[simp] theorem setP_lane (s : State) (p : Pair) (v i : Nat) : (setP s p v i).lane = s.lane := rfl
@[simp] theorem setP_motion (s : State) (p : Pair) (v i : Nat) : (setP s p v i).motion = s.motion := rfl
@[simp] theorem setP_power (s : State) (p : Pair) (v i : Nat) : (setP s p v i).power = s.power := rfl
@[simp] theorem setP_boot (s : State) (p : Pair) (v i : Nat) : (setP s p v i).boot = s.boot := rfl
@[simp] theorem coreOf_setP (s : State) (p : Pair) (v i : Nat) (x : Nat) : coreOf (setP s p v i) x = coreOf s x := rfl
@[simp] theorem queueOf_setP (s : State) (p : Pair) (v i : Nat) (x : Nat) : queueOf (setP s p v i) x = queueOf s x := rfl
@[simp] theorem memByte_setP (s : State) (p : Pair) (v i : Nat) (x : Nat) : memByte (setP s p v i) x = memByte s x := rfl

@[simp] theorem incF_pending (s : State) (f : Fld) (i : Nat) : (incF s f i).pending = s.pending := rfl
@[simp] theorem incF_stage (s : State) (f : Fld) (i : Nat) : (incF s f i).stage = s.stage := rfl
@[simp] theorem incF_snaps (s : State) (f : Fld) (i : Nat) : (incF s f i).snaps = s.snaps := rfl
@[simp] theorem incF_mem (s : State) (f : Fld) (i : Nat) : (incF s f i).mem = s.mem := rfl
@[simp] theorem incF_poison (s : State) (f : Fld) (i : Nat) : (incF s f i).poison = s.poison := rfl
@[simp] theorem incF_frc (s : State) (f : Fld) (i : Nat) : (incF s f i).frc = s.frc := rfl
@[simp] theorem incF_fresh (s : State) (f : Fld) (i : Nat) : (incF s f i).fresh = s.fresh := rfl
@[simp] theorem incF_outs (s : State) (f : Fld) (i : Nat) : (incF s f i).outs = s.outs := rfl
@[simp] theorem incF_host (s : State) (f : Fld) (i : Nat) : (incF s f i).host = s.host := rfl
@[simp] theorem incF_time (s : State) (f : Fld) (i : Nat) : (incF s f i).time = s.time := rfl
@[simp] theorem incF_ledger (s : State) (f : Fld) (i : Nat) : (incF s f i).ledger = s.ledger := rfl
@[simp] theorem incF_intake (s : State) (f : Fld) (i : Nat) : (incF s f i).intake = s.intake := rfl
@[simp] theorem incF_twin (s : State) (f : Fld) (i : Nat) : (incF s f i).twin = s.twin := rfl
@[simp] theorem incF_lode (s : State) (f : Fld) (i : Nat) : (incF s f i).lode = s.lode := rfl
@[simp] theorem incF_print (s : State) (f : Fld) (i : Nat) : (incF s f i).print = s.print := rfl
@[simp] theorem incF_dlk (s : State) (f : Fld) (i : Nat) : (incF s f i).dlk = s.dlk := rfl
@[simp] theorem incF_feedback (s : State) (f : Fld) (i : Nat) : (incF s f i).feedback = s.feedback := rfl
@[simp] theorem incF_mere (s : State) (f : Fld) (i : Nat) : (incF s f i).mere = s.mere := rfl
@[simp] theorem incF_memctl (s : State) (f : Fld) (i : Nat) : (incF s f i).memctl = s.memctl := rfl
@[simp] theorem incF_lane (s : State) (f : Fld) (i : Nat) : (incF s f i).lane = s.lane := rfl
@[simp] theorem incF_motion (s : State) (f : Fld) (i : Nat) : (incF s f i).motion = s.motion := rfl
@[simp] theorem incF_power (s : State) (f : Fld) (i : Nat) : (incF s f i).power = s.power := rfl
@[simp] theorem incF_boot (s : State) (f : Fld) (i : Nat) : (incF s f i).boot = s.boot := rfl
@[simp] theorem coreOf_incF (s : State) (f : Fld) (i : Nat) (x : Nat) : coreOf (incF s f i) x = coreOf s x := rfl
@[simp] theorem queueOf_incF (s : State) (f : Fld) (i : Nat) (x : Nat) : queueOf (incF s f i) x = queueOf s x := rfl
@[simp] theorem memByte_incF (s : State) (f : Fld) (i : Nat) (x : Nat) : memByte (incF s f i) x = memByte s x := rfl

@[simp] theorem addF_pending (s : State) (f : Fld) (n i : Nat) : (addF s f n i).pending = s.pending := rfl
@[simp] theorem addF_stage (s : State) (f : Fld) (n i : Nat) : (addF s f n i).stage = s.stage := rfl
@[simp] theorem addF_snaps (s : State) (f : Fld) (n i : Nat) : (addF s f n i).snaps = s.snaps := rfl
@[simp] theorem addF_mem (s : State) (f : Fld) (n i : Nat) : (addF s f n i).mem = s.mem := rfl
@[simp] theorem addF_poison (s : State) (f : Fld) (n i : Nat) : (addF s f n i).poison = s.poison := rfl
@[simp] theorem addF_frc (s : State) (f : Fld) (n i : Nat) : (addF s f n i).frc = s.frc := rfl
@[simp] theorem addF_fresh (s : State) (f : Fld) (n i : Nat) : (addF s f n i).fresh = s.fresh := rfl
@[simp] theorem addF_outs (s : State) (f : Fld) (n i : Nat) : (addF s f n i).outs = s.outs := rfl
@[simp] theorem addF_host (s : State) (f : Fld) (n i : Nat) : (addF s f n i).host = s.host := rfl
@[simp] theorem addF_time (s : State) (f : Fld) (n i : Nat) : (addF s f n i).time = s.time := rfl
@[simp] theorem addF_ledger (s : State) (f : Fld) (n i : Nat) : (addF s f n i).ledger = s.ledger := rfl
@[simp] theorem addF_intake (s : State) (f : Fld) (n i : Nat) : (addF s f n i).intake = s.intake := rfl
@[simp] theorem addF_twin (s : State) (f : Fld) (n i : Nat) : (addF s f n i).twin = s.twin := rfl
@[simp] theorem addF_lode (s : State) (f : Fld) (n i : Nat) : (addF s f n i).lode = s.lode := rfl
@[simp] theorem addF_print (s : State) (f : Fld) (n i : Nat) : (addF s f n i).print = s.print := rfl
@[simp] theorem addF_dlk (s : State) (f : Fld) (n i : Nat) : (addF s f n i).dlk = s.dlk := rfl
@[simp] theorem addF_feedback (s : State) (f : Fld) (n i : Nat) : (addF s f n i).feedback = s.feedback := rfl
@[simp] theorem addF_mere (s : State) (f : Fld) (n i : Nat) : (addF s f n i).mere = s.mere := rfl
@[simp] theorem addF_memctl (s : State) (f : Fld) (n i : Nat) : (addF s f n i).memctl = s.memctl := rfl
@[simp] theorem addF_lane (s : State) (f : Fld) (n i : Nat) : (addF s f n i).lane = s.lane := rfl
@[simp] theorem addF_motion (s : State) (f : Fld) (n i : Nat) : (addF s f n i).motion = s.motion := rfl
@[simp] theorem addF_power (s : State) (f : Fld) (n i : Nat) : (addF s f n i).power = s.power := rfl
@[simp] theorem addF_boot (s : State) (f : Fld) (n i : Nat) : (addF s f n i).boot = s.boot := rfl
@[simp] theorem coreOf_addF (s : State) (f : Fld) (n i : Nat) (x : Nat) : coreOf (addF s f n i) x = coreOf s x := rfl
@[simp] theorem queueOf_addF (s : State) (f : Fld) (n i : Nat) (x : Nat) : queueOf (addF s f n i) x = queueOf s x := rfl
@[simp] theorem memByte_addF (s : State) (f : Fld) (n i : Nat) (x : Nat) : memByte (addF s f n i) x = memByte s x := rfl

@[simp] theorem setFlagBit_pending (s : State) (f : Fld) (b : Nat) (v : Bool) (i : Nat) : (setFlagBit s f b v i).pending = s.pending := rfl
@[simp] theorem setFlagBit_stage (s : State) (f : Fld) (b : Nat) (v : Bool) (i : Nat) : (setFlagBit s f b v i).stage = s.stage := rfl
@[simp] theorem setFlagBit_snaps (s : State) (f : Fld) (b : Nat) (v : Bool) (i : Nat) : (setFlagBit s f b v i).snaps = s.snaps := rfl
@[simp] theorem setFlagBit_mem (s : State) (f : Fld) (b : Nat) (v : Bool) (i : Nat) : (setFlagBit s f b v i).mem = s.mem := rfl
@[simp] theorem setFlagBit_poison (s : State) (f : Fld) (b : Nat) (v : Bool) (i : Nat) : (setFlagBit s f b v i).poison = s.poison := rfl
@[simp] theorem setFlagBit_frc (s : State) (f : Fld) (b : Nat) (v : Bool) (i : Nat) : (setFlagBit s f b v i).frc = s.frc := rfl
@[simp] theorem setFlagBit_fresh (s : State) (f : Fld) (b : Nat) (v : Bool) (i : Nat) : (setFlagBit s f b v i).fresh = s.fresh := rfl
@[simp] theorem setFlagBit_outs (s : State) (f : Fld) (b : Nat) (v : Bool) (i : Nat) : (setFlagBit s f b v i).outs = s.outs := rfl
@[simp] theorem setFlagBit_host (s : State) (f : Fld) (b : Nat) (v : Bool) (i : Nat) : (setFlagBit s f b v i).host = s.host := rfl
@[simp] theorem setFlagBit_time (s : State) (f : Fld) (b : Nat) (v : Bool) (i : Nat) : (setFlagBit s f b v i).time = s.time := rfl
@[simp] theorem setFlagBit_ledger (s : State) (f : Fld) (b : Nat) (v : Bool) (i : Nat) : (setFlagBit s f b v i).ledger = s.ledger := rfl
@[simp] theorem setFlagBit_intake (s : State) (f : Fld) (b : Nat) (v : Bool) (i : Nat) : (setFlagBit s f b v i).intake = s.intake := rfl
@[simp] theorem setFlagBit_twin (s : State) (f : Fld) (b : Nat) (v : Bool) (i : Nat) : (setFlagBit s f b v i).twin = s.twin := rfl
@[simp] theorem setFlagBit_lode (s : State) (f : Fld) (b : Nat) (v : Bool) (i : Nat) : (setFlagBit s f b v i).lode = s.lode := rfl
@[simp] theorem setFlagBit_print (s : State) (f : Fld) (b : Nat) (v : Bool) (i : Nat) : (setFlagBit s f b v i).print = s.print := rfl
@[simp] theorem setFlagBit_dlk (s : State) (f : Fld) (b : Nat) (v : Bool) (i : Nat) : (setFlagBit s f b v i).dlk = s.dlk := rfl
@[simp] theorem setFlagBit_feedback (s : State) (f : Fld) (b : Nat) (v : Bool) (i : Nat) : (setFlagBit s f b v i).feedback = s.feedback := rfl
@[simp] theorem setFlagBit_mere (s : State) (f : Fld) (b : Nat) (v : Bool) (i : Nat) : (setFlagBit s f b v i).mere = s.mere := rfl
@[simp] theorem setFlagBit_memctl (s : State) (f : Fld) (b : Nat) (v : Bool) (i : Nat) : (setFlagBit s f b v i).memctl = s.memctl := rfl
@[simp] theorem setFlagBit_lane (s : State) (f : Fld) (b : Nat) (v : Bool) (i : Nat) : (setFlagBit s f b v i).lane = s.lane := rfl
@[simp] theorem setFlagBit_motion (s : State) (f : Fld) (b : Nat) (v : Bool) (i : Nat) : (setFlagBit s f b v i).motion = s.motion := rfl
@[simp] theorem setFlagBit_power (s : State) (f : Fld) (b : Nat) (v : Bool) (i : Nat) : (setFlagBit s f b v i).power = s.power := rfl
@[simp] theorem setFlagBit_boot (s : State) (f : Fld) (b : Nat) (v : Bool) (i : Nat) : (setFlagBit s f b v i).boot = s.boot := rfl
@[simp] theorem coreOf_setFlagBit (s : State) (f : Fld) (b : Nat) (v : Bool) (i : Nat) (x : Nat) : coreOf (setFlagBit s f b v i) x = coreOf s x := rfl
@[simp] theorem queueOf_setFlagBit (s : State) (f : Fld) (b : Nat) (v : Bool) (i : Nat) (x : Nat) : queueOf (setFlagBit s f b v i) x = queueOf s x := rfl
@[simp] theorem memByte_setFlagBit (s : State) (f : Fld) (b : Nat) (v : Bool) (i : Nat) (x : Nat) : memByte (setFlagBit s f b v i) x = memByte s x := rfl

@[simp] theorem setDom_pending (s : State) (d v : Nat) : (setDom s d v).pending = s.pending := rfl
@[simp] theorem setDom_stage (s : State) (d v : Nat) : (setDom s d v).stage = s.stage := rfl
@[simp] theorem setDom_snaps (s : State) (d v : Nat) : (setDom s d v).snaps = s.snaps := rfl
@[simp] theorem setDom_mem (s : State) (d v : Nat) : (setDom s d v).mem = s.mem := rfl
@[simp] theorem setDom_poison (s : State) (d v : Nat) : (setDom s d v).poison = s.poison := rfl
@[simp] theorem setDom_frc (s : State) (d v : Nat) : (setDom s d v).frc = s.frc := rfl
@[simp] theorem setDom_fresh (s : State) (d v : Nat) : (setDom s d v).fresh = s.fresh := rfl
@[simp] theorem setDom_outs (s : State) (d v : Nat) : (setDom s d v).outs = s.outs := rfl
@[simp] theorem setDom_host (s : State) (d v : Nat) : (setDom s d v).host = s.host := rfl
@[simp] theorem setDom_time (s : State) (d v : Nat) : (setDom s d v).time = s.time := rfl
@[simp] theorem setDom_ledger (s : State) (d v : Nat) : (setDom s d v).ledger = s.ledger := rfl
@[simp] theorem setDom_intake (s : State) (d v : Nat) : (setDom s d v).intake = s.intake := rfl
@[simp] theorem setDom_twin (s : State) (d v : Nat) : (setDom s d v).twin = s.twin := rfl
@[simp] theorem setDom_lode (s : State) (d v : Nat) : (setDom s d v).lode = s.lode := rfl
@[simp] theorem setDom_print (s : State) (d v : Nat) : (setDom s d v).print = s.print := rfl
@[simp] theorem setDom_dlk (s : State) (d v : Nat) : (setDom s d v).dlk = s.dlk := rfl
@[simp] theorem setDom_feedback (s : State) (d v : Nat) : (setDom s d v).feedback = s.feedback := rfl
@[simp] theorem setDom_mere (s : State) (d v : Nat) : (setDom s d v).mere = s.mere := rfl
@[simp] theorem setDom_memctl (s : State) (d v : Nat) : (setDom s d v).memctl = s.memctl := rfl
@[simp] theorem setDom_lane (s : State) (d v : Nat) : (setDom s d v).lane = s.lane := rfl
@[simp] theorem setDom_motion (s : State) (d v : Nat) : (setDom s d v).motion = s.motion := rfl
@[simp] theorem setDom_power (s : State) (d v : Nat) : (setDom s d v).power = s.power := rfl
@[simp] theorem setDom_boot (s : State) (d v : Nat) : (setDom s d v).boot = s.boot := rfl
@[simp] theorem coreOf_setDom (s : State) (d v : Nat) (x : Nat) : coreOf (setDom s d v) x = coreOf s x := rfl
@[simp] theorem queueOf_setDom (s : State) (d v : Nat) (x : Nat) : queueOf (setDom s d v) x = queueOf s x := rfl
@[simp] theorem memByte_setDom (s : State) (d v : Nat) (x : Nat) : memByte (setDom s d v) x = memByte s x := rfl

@[simp] theorem showPlls_pending (s : State) : (showPlls s).pending = s.pending := rfl
@[simp] theorem showPlls_stage (s : State) : (showPlls s).stage = s.stage := rfl
@[simp] theorem showPlls_snaps (s : State) : (showPlls s).snaps = s.snaps := rfl
@[simp] theorem showPlls_mem (s : State) : (showPlls s).mem = s.mem := rfl
@[simp] theorem showPlls_poison (s : State) : (showPlls s).poison = s.poison := rfl
@[simp] theorem showPlls_frc (s : State) : (showPlls s).frc = s.frc := rfl
@[simp] theorem showPlls_fresh (s : State) : (showPlls s).fresh = s.fresh := rfl
@[simp] theorem showPlls_outs (s : State) : (showPlls s).outs = s.outs := rfl
@[simp] theorem showPlls_host (s : State) : (showPlls s).host = s.host := rfl
@[simp] theorem showPlls_time (s : State) : (showPlls s).time = s.time := rfl
@[simp] theorem showPlls_ledger (s : State) : (showPlls s).ledger = s.ledger := rfl
@[simp] theorem showPlls_intake (s : State) : (showPlls s).intake = s.intake := rfl
@[simp] theorem showPlls_twin (s : State) : (showPlls s).twin = s.twin := rfl
@[simp] theorem showPlls_lode (s : State) : (showPlls s).lode = s.lode := rfl
@[simp] theorem showPlls_print (s : State) : (showPlls s).print = s.print := rfl
@[simp] theorem showPlls_dlk (s : State) : (showPlls s).dlk = s.dlk := rfl
@[simp] theorem showPlls_feedback (s : State) : (showPlls s).feedback = s.feedback := rfl
@[simp] theorem showPlls_mere (s : State) : (showPlls s).mere = s.mere := rfl
@[simp] theorem showPlls_memctl (s : State) : (showPlls s).memctl = s.memctl := rfl
@[simp] theorem showPlls_lane (s : State) : (showPlls s).lane = s.lane := rfl
@[simp] theorem showPlls_motion (s : State) : (showPlls s).motion = s.motion := rfl
@[simp] theorem showPlls_power (s : State) : (showPlls s).power = s.power := rfl
@[simp] theorem showPlls_boot (s : State) : (showPlls s).boot = s.boot := rfl
@[simp] theorem coreOf_showPlls (s : State) (x : Nat) : coreOf (showPlls s) x = coreOf s x := rfl
@[simp] theorem queueOf_showPlls (s : State) (x : Nat) : queueOf (showPlls s) x = queueOf s x := rfl
@[simp] theorem memByte_showPlls (s : State) (x : Nat) : memByte (showPlls s) x = memByte s x := rfl

@[simp] theorem send_pending (s : State) (o : Out) : (send s o).pending = s.pending := rfl
@[simp] theorem send_regs (s : State) (o : Out) : (send s o).regs = s.regs := rfl
@[simp] theorem send_stage (s : State) (o : Out) : (send s o).stage = s.stage := rfl
@[simp] theorem send_snaps (s : State) (o : Out) : (send s o).snaps = s.snaps := rfl
@[simp] theorem send_mem (s : State) (o : Out) : (send s o).mem = s.mem := rfl
@[simp] theorem send_poison (s : State) (o : Out) : (send s o).poison = s.poison := rfl
@[simp] theorem send_frc (s : State) (o : Out) : (send s o).frc = s.frc := rfl
@[simp] theorem send_fresh (s : State) (o : Out) : (send s o).fresh = s.fresh := rfl
@[simp] theorem send_host (s : State) (o : Out) : (send s o).host = s.host := rfl
@[simp] theorem send_time (s : State) (o : Out) : (send s o).time = s.time := rfl
@[simp] theorem send_ledger (s : State) (o : Out) : (send s o).ledger = s.ledger := rfl
@[simp] theorem send_intake (s : State) (o : Out) : (send s o).intake = s.intake := rfl
@[simp] theorem send_twin (s : State) (o : Out) : (send s o).twin = s.twin := rfl
@[simp] theorem send_lode (s : State) (o : Out) : (send s o).lode = s.lode := rfl
@[simp] theorem send_print (s : State) (o : Out) : (send s o).print = s.print := rfl
@[simp] theorem send_dlk (s : State) (o : Out) : (send s o).dlk = s.dlk := rfl
@[simp] theorem send_feedback (s : State) (o : Out) : (send s o).feedback = s.feedback := rfl
@[simp] theorem send_mere (s : State) (o : Out) : (send s o).mere = s.mere := rfl
@[simp] theorem send_memctl (s : State) (o : Out) : (send s o).memctl = s.memctl := rfl
@[simp] theorem send_lane (s : State) (o : Out) : (send s o).lane = s.lane := rfl
@[simp] theorem send_motion (s : State) (o : Out) : (send s o).motion = s.motion := rfl
@[simp] theorem send_power (s : State) (o : Out) : (send s o).power = s.power := rfl
@[simp] theorem send_boot (s : State) (o : Out) : (send s o).boot = s.boot := rfl
@[simp] theorem regRaw_send (s : State) (o : Out) (x : Nat) : regRaw (send s o) x = regRaw s x := rfl
@[simp] theorem getF_send (s : State) (o : Out) (x : Fld) (y : Nat) : getF (send s o) x y = getF s x y := rfl
@[simp] theorem getP_send (s : State) (o : Out) (x : Pair) (y : Nat) : getP (send s o) x y = getP s x y := rfl
@[simp] theorem coreOf_send (s : State) (o : Out) (x : Nat) : coreOf (send s o) x = coreOf s x := rfl
@[simp] theorem queueOf_send (s : State) (o : Out) (x : Nat) : queueOf (send s o) x = queueOf s x := rfl
@[simp] theorem memByte_send (s : State) (o : Out) (x : Nat) : memByte (send s o) x = memByte s x := rfl

@[simp] theorem sendPin_pending (s : State) (b : Nat) (o : Out) : (sendPin s b o).pending = s.pending := rfl
@[simp] theorem sendPin_regs (s : State) (b : Nat) (o : Out) : (sendPin s b o).regs = s.regs := rfl
@[simp] theorem sendPin_stage (s : State) (b : Nat) (o : Out) : (sendPin s b o).stage = s.stage := rfl
@[simp] theorem sendPin_snaps (s : State) (b : Nat) (o : Out) : (sendPin s b o).snaps = s.snaps := rfl
@[simp] theorem sendPin_mem (s : State) (b : Nat) (o : Out) : (sendPin s b o).mem = s.mem := rfl
@[simp] theorem sendPin_poison (s : State) (b : Nat) (o : Out) : (sendPin s b o).poison = s.poison := rfl
@[simp] theorem sendPin_frc (s : State) (b : Nat) (o : Out) : (sendPin s b o).frc = s.frc := rfl
@[simp] theorem sendPin_fresh (s : State) (b : Nat) (o : Out) : (sendPin s b o).fresh = s.fresh := rfl
@[simp] theorem sendPin_host (s : State) (b : Nat) (o : Out) : (sendPin s b o).host = s.host := rfl
@[simp] theorem sendPin_time (s : State) (b : Nat) (o : Out) : (sendPin s b o).time = s.time := rfl
@[simp] theorem sendPin_ledger (s : State) (b : Nat) (o : Out) : (sendPin s b o).ledger = s.ledger := rfl
@[simp] theorem sendPin_intake (s : State) (b : Nat) (o : Out) : (sendPin s b o).intake = s.intake := rfl
@[simp] theorem sendPin_twin (s : State) (b : Nat) (o : Out) : (sendPin s b o).twin = s.twin := rfl
@[simp] theorem sendPin_lode (s : State) (b : Nat) (o : Out) : (sendPin s b o).lode = s.lode := rfl
@[simp] theorem sendPin_print (s : State) (b : Nat) (o : Out) : (sendPin s b o).print = s.print := rfl
@[simp] theorem sendPin_dlk (s : State) (b : Nat) (o : Out) : (sendPin s b o).dlk = s.dlk := rfl
@[simp] theorem sendPin_feedback (s : State) (b : Nat) (o : Out) : (sendPin s b o).feedback = s.feedback := rfl
@[simp] theorem sendPin_mere (s : State) (b : Nat) (o : Out) : (sendPin s b o).mere = s.mere := rfl
@[simp] theorem sendPin_memctl (s : State) (b : Nat) (o : Out) : (sendPin s b o).memctl = s.memctl := rfl
@[simp] theorem sendPin_lane (s : State) (b : Nat) (o : Out) : (sendPin s b o).lane = s.lane := rfl
@[simp] theorem sendPin_motion (s : State) (b : Nat) (o : Out) : (sendPin s b o).motion = s.motion := rfl
@[simp] theorem sendPin_power (s : State) (b : Nat) (o : Out) : (sendPin s b o).power = s.power := rfl
@[simp] theorem sendPin_boot (s : State) (b : Nat) (o : Out) : (sendPin s b o).boot = s.boot := rfl
@[simp] theorem regRaw_sendPin (s : State) (b : Nat) (o : Out) (x : Nat) : regRaw (sendPin s b o) x = regRaw s x := rfl
@[simp] theorem getF_sendPin (s : State) (b : Nat) (o : Out) (x : Fld) (y : Nat) : getF (sendPin s b o) x y = getF s x y := rfl
@[simp] theorem getP_sendPin (s : State) (b : Nat) (o : Out) (x : Pair) (y : Nat) : getP (sendPin s b o) x y = getP s x y := rfl
@[simp] theorem coreOf_sendPin (s : State) (b : Nat) (o : Out) (x : Nat) : coreOf (sendPin s b o) x = coreOf s x := rfl
@[simp] theorem queueOf_sendPin (s : State) (b : Nat) (o : Out) (x : Nat) : queueOf (sendPin s b o) x = queueOf s x := rfl
@[simp] theorem memByte_sendPin (s : State) (b : Nat) (o : Out) (x : Nat) : memByte (sendPin s b o) x = memByte s x := rfl

@[simp] theorem putBytes_pending (s : State) (a : Nat) (b : List Byte) : (putBytes s a b).pending = s.pending := rfl
@[simp] theorem putBytes_regs (s : State) (a : Nat) (b : List Byte) : (putBytes s a b).regs = s.regs := rfl
@[simp] theorem putBytes_stage (s : State) (a : Nat) (b : List Byte) : (putBytes s a b).stage = s.stage := rfl
@[simp] theorem putBytes_snaps (s : State) (a : Nat) (b : List Byte) : (putBytes s a b).snaps = s.snaps := rfl
@[simp] theorem putBytes_poison (s : State) (a : Nat) (b : List Byte) : (putBytes s a b).poison = s.poison := rfl
@[simp] theorem putBytes_frc (s : State) (a : Nat) (b : List Byte) : (putBytes s a b).frc = s.frc := rfl
@[simp] theorem putBytes_fresh (s : State) (a : Nat) (b : List Byte) : (putBytes s a b).fresh = s.fresh := rfl
@[simp] theorem putBytes_outs (s : State) (a : Nat) (b : List Byte) : (putBytes s a b).outs = s.outs := rfl
@[simp] theorem putBytes_host (s : State) (a : Nat) (b : List Byte) : (putBytes s a b).host = s.host := rfl
@[simp] theorem putBytes_time (s : State) (a : Nat) (b : List Byte) : (putBytes s a b).time = s.time := rfl
@[simp] theorem putBytes_ledger (s : State) (a : Nat) (b : List Byte) : (putBytes s a b).ledger = s.ledger := rfl
@[simp] theorem putBytes_intake (s : State) (a : Nat) (b : List Byte) : (putBytes s a b).intake = s.intake := rfl
@[simp] theorem putBytes_twin (s : State) (a : Nat) (b : List Byte) : (putBytes s a b).twin = s.twin := rfl
@[simp] theorem putBytes_lode (s : State) (a : Nat) (b : List Byte) : (putBytes s a b).lode = s.lode := rfl
@[simp] theorem putBytes_print (s : State) (a : Nat) (b : List Byte) : (putBytes s a b).print = s.print := rfl
@[simp] theorem putBytes_dlk (s : State) (a : Nat) (b : List Byte) : (putBytes s a b).dlk = s.dlk := rfl
@[simp] theorem putBytes_feedback (s : State) (a : Nat) (b : List Byte) : (putBytes s a b).feedback = s.feedback := rfl
@[simp] theorem putBytes_mere (s : State) (a : Nat) (b : List Byte) : (putBytes s a b).mere = s.mere := rfl
@[simp] theorem putBytes_memctl (s : State) (a : Nat) (b : List Byte) : (putBytes s a b).memctl = s.memctl := rfl
@[simp] theorem putBytes_lane (s : State) (a : Nat) (b : List Byte) : (putBytes s a b).lane = s.lane := rfl
@[simp] theorem putBytes_motion (s : State) (a : Nat) (b : List Byte) : (putBytes s a b).motion = s.motion := rfl
@[simp] theorem putBytes_power (s : State) (a : Nat) (b : List Byte) : (putBytes s a b).power = s.power := rfl
@[simp] theorem putBytes_boot (s : State) (a : Nat) (b : List Byte) : (putBytes s a b).boot = s.boot := rfl
@[simp] theorem regRaw_putBytes (s : State) (a : Nat) (b : List Byte) (x : Nat) : regRaw (putBytes s a b) x = regRaw s x := rfl
@[simp] theorem getF_putBytes (s : State) (a : Nat) (b : List Byte) (x : Fld) (y : Nat) : getF (putBytes s a b) x y = getF s x y := rfl
@[simp] theorem getP_putBytes (s : State) (a : Nat) (b : List Byte) (x : Pair) (y : Nat) : getP (putBytes s a b) x y = getP s x y := rfl
@[simp] theorem coreOf_putBytes (s : State) (a : Nat) (b : List Byte) (x : Nat) : coreOf (putBytes s a b) x = coreOf s x := rfl
@[simp] theorem queueOf_putBytes (s : State) (a : Nat) (b : List Byte) (x : Nat) : queueOf (putBytes s a b) x = queueOf s x := rfl

@[simp] theorem clearPoison_pending (s : State) (a n : Nat) : (clearPoison s a n).pending = s.pending := rfl
@[simp] theorem clearPoison_regs (s : State) (a n : Nat) : (clearPoison s a n).regs = s.regs := rfl
@[simp] theorem clearPoison_stage (s : State) (a n : Nat) : (clearPoison s a n).stage = s.stage := rfl
@[simp] theorem clearPoison_snaps (s : State) (a n : Nat) : (clearPoison s a n).snaps = s.snaps := rfl
@[simp] theorem clearPoison_mem (s : State) (a n : Nat) : (clearPoison s a n).mem = s.mem := rfl
@[simp] theorem clearPoison_frc (s : State) (a n : Nat) : (clearPoison s a n).frc = s.frc := rfl
@[simp] theorem clearPoison_fresh (s : State) (a n : Nat) : (clearPoison s a n).fresh = s.fresh := rfl
@[simp] theorem clearPoison_outs (s : State) (a n : Nat) : (clearPoison s a n).outs = s.outs := rfl
@[simp] theorem clearPoison_host (s : State) (a n : Nat) : (clearPoison s a n).host = s.host := rfl
@[simp] theorem clearPoison_time (s : State) (a n : Nat) : (clearPoison s a n).time = s.time := rfl
@[simp] theorem clearPoison_ledger (s : State) (a n : Nat) : (clearPoison s a n).ledger = s.ledger := rfl
@[simp] theorem clearPoison_intake (s : State) (a n : Nat) : (clearPoison s a n).intake = s.intake := rfl
@[simp] theorem clearPoison_twin (s : State) (a n : Nat) : (clearPoison s a n).twin = s.twin := rfl
@[simp] theorem clearPoison_lode (s : State) (a n : Nat) : (clearPoison s a n).lode = s.lode := rfl
@[simp] theorem clearPoison_print (s : State) (a n : Nat) : (clearPoison s a n).print = s.print := rfl
@[simp] theorem clearPoison_dlk (s : State) (a n : Nat) : (clearPoison s a n).dlk = s.dlk := rfl
@[simp] theorem clearPoison_feedback (s : State) (a n : Nat) : (clearPoison s a n).feedback = s.feedback := rfl
@[simp] theorem clearPoison_mere (s : State) (a n : Nat) : (clearPoison s a n).mere = s.mere := rfl
@[simp] theorem clearPoison_memctl (s : State) (a n : Nat) : (clearPoison s a n).memctl = s.memctl := rfl
@[simp] theorem clearPoison_lane (s : State) (a n : Nat) : (clearPoison s a n).lane = s.lane := rfl
@[simp] theorem clearPoison_motion (s : State) (a n : Nat) : (clearPoison s a n).motion = s.motion := rfl
@[simp] theorem clearPoison_power (s : State) (a n : Nat) : (clearPoison s a n).power = s.power := rfl
@[simp] theorem clearPoison_boot (s : State) (a n : Nat) : (clearPoison s a n).boot = s.boot := rfl
@[simp] theorem regRaw_clearPoison (s : State) (a n : Nat) (x : Nat) : regRaw (clearPoison s a n) x = regRaw s x := rfl
@[simp] theorem getF_clearPoison (s : State) (a n : Nat) (x : Fld) (y : Nat) : getF (clearPoison s a n) x y = getF s x y := rfl
@[simp] theorem getP_clearPoison (s : State) (a n : Nat) (x : Pair) (y : Nat) : getP (clearPoison s a n) x y = getP s x y := rfl
@[simp] theorem coreOf_clearPoison (s : State) (a n : Nat) (x : Nat) : coreOf (clearPoison s a n) x = coreOf s x := rfl
@[simp] theorem queueOf_clearPoison (s : State) (a n : Nat) (x : Nat) : queueOf (clearPoison s a n) x = queueOf s x := rfl
@[simp] theorem memByte_clearPoison (s : State) (a n : Nat) (x : Nat) : memByte (clearPoison s a n) x = memByte s x := rfl

@[simp] theorem setFn_pending (s : State) (f : Nat) (v : Fn) : (setFn s f v).pending = s.pending := rfl
@[simp] theorem setFn_regs (s : State) (f : Nat) (v : Fn) : (setFn s f v).regs = s.regs := rfl
@[simp] theorem setFn_stage (s : State) (f : Nat) (v : Fn) : (setFn s f v).stage = s.stage := rfl
@[simp] theorem setFn_snaps (s : State) (f : Nat) (v : Fn) : (setFn s f v).snaps = s.snaps := rfl
@[simp] theorem setFn_mem (s : State) (f : Nat) (v : Fn) : (setFn s f v).mem = s.mem := rfl
@[simp] theorem setFn_poison (s : State) (f : Nat) (v : Fn) : (setFn s f v).poison = s.poison := rfl
@[simp] theorem setFn_frc (s : State) (f : Nat) (v : Fn) : (setFn s f v).frc = s.frc := rfl
@[simp] theorem setFn_fresh (s : State) (f : Nat) (v : Fn) : (setFn s f v).fresh = s.fresh := rfl
@[simp] theorem setFn_outs (s : State) (f : Nat) (v : Fn) : (setFn s f v).outs = s.outs := rfl
@[simp] theorem setFn_time (s : State) (f : Nat) (v : Fn) : (setFn s f v).time = s.time := rfl
@[simp] theorem setFn_ledger (s : State) (f : Nat) (v : Fn) : (setFn s f v).ledger = s.ledger := rfl
@[simp] theorem setFn_intake (s : State) (f : Nat) (v : Fn) : (setFn s f v).intake = s.intake := rfl
@[simp] theorem setFn_twin (s : State) (f : Nat) (v : Fn) : (setFn s f v).twin = s.twin := rfl
@[simp] theorem setFn_lode (s : State) (f : Nat) (v : Fn) : (setFn s f v).lode = s.lode := rfl
@[simp] theorem setFn_print (s : State) (f : Nat) (v : Fn) : (setFn s f v).print = s.print := rfl
@[simp] theorem setFn_dlk (s : State) (f : Nat) (v : Fn) : (setFn s f v).dlk = s.dlk := rfl
@[simp] theorem setFn_feedback (s : State) (f : Nat) (v : Fn) : (setFn s f v).feedback = s.feedback := rfl
@[simp] theorem setFn_mere (s : State) (f : Nat) (v : Fn) : (setFn s f v).mere = s.mere := rfl
@[simp] theorem setFn_memctl (s : State) (f : Nat) (v : Fn) : (setFn s f v).memctl = s.memctl := rfl
@[simp] theorem setFn_lane (s : State) (f : Nat) (v : Fn) : (setFn s f v).lane = s.lane := rfl
@[simp] theorem setFn_motion (s : State) (f : Nat) (v : Fn) : (setFn s f v).motion = s.motion := rfl
@[simp] theorem setFn_power (s : State) (f : Nat) (v : Fn) : (setFn s f v).power = s.power := rfl
@[simp] theorem setFn_boot (s : State) (f : Nat) (v : Fn) : (setFn s f v).boot = s.boot := rfl
@[simp] theorem regRaw_setFn (s : State) (f : Nat) (v : Fn) (x : Nat) : regRaw (setFn s f v) x = regRaw s x := rfl
@[simp] theorem getF_setFn (s : State) (f : Nat) (v : Fn) (x : Fld) (y : Nat) : getF (setFn s f v) x y = getF s x y := rfl
@[simp] theorem getP_setFn (s : State) (f : Nat) (v : Fn) (x : Pair) (y : Nat) : getP (setFn s f v) x y = getP s x y := rfl
@[simp] theorem memByte_setFn (s : State) (f : Nat) (v : Fn) (x : Nat) : memByte (setFn s f v) x = memByte s x := rfl

@[simp] theorem setVector_pending (s : State) (f v : Nat) (e : Vector) : (setVector s f v e).pending = s.pending := rfl
@[simp] theorem setVector_regs (s : State) (f v : Nat) (e : Vector) : (setVector s f v e).regs = s.regs := rfl
@[simp] theorem setVector_stage (s : State) (f v : Nat) (e : Vector) : (setVector s f v e).stage = s.stage := rfl
@[simp] theorem setVector_snaps (s : State) (f v : Nat) (e : Vector) : (setVector s f v e).snaps = s.snaps := rfl
@[simp] theorem setVector_mem (s : State) (f v : Nat) (e : Vector) : (setVector s f v e).mem = s.mem := rfl
@[simp] theorem setVector_poison (s : State) (f v : Nat) (e : Vector) : (setVector s f v e).poison = s.poison := rfl
@[simp] theorem setVector_frc (s : State) (f v : Nat) (e : Vector) : (setVector s f v e).frc = s.frc := rfl
@[simp] theorem setVector_fresh (s : State) (f v : Nat) (e : Vector) : (setVector s f v e).fresh = s.fresh := rfl
@[simp] theorem setVector_outs (s : State) (f v : Nat) (e : Vector) : (setVector s f v e).outs = s.outs := rfl
@[simp] theorem setVector_time (s : State) (f v : Nat) (e : Vector) : (setVector s f v e).time = s.time := rfl
@[simp] theorem setVector_ledger (s : State) (f v : Nat) (e : Vector) : (setVector s f v e).ledger = s.ledger := rfl
@[simp] theorem setVector_intake (s : State) (f v : Nat) (e : Vector) : (setVector s f v e).intake = s.intake := rfl
@[simp] theorem setVector_twin (s : State) (f v : Nat) (e : Vector) : (setVector s f v e).twin = s.twin := rfl
@[simp] theorem setVector_lode (s : State) (f v : Nat) (e : Vector) : (setVector s f v e).lode = s.lode := rfl
@[simp] theorem setVector_print (s : State) (f v : Nat) (e : Vector) : (setVector s f v e).print = s.print := rfl
@[simp] theorem setVector_dlk (s : State) (f v : Nat) (e : Vector) : (setVector s f v e).dlk = s.dlk := rfl
@[simp] theorem setVector_feedback (s : State) (f v : Nat) (e : Vector) : (setVector s f v e).feedback = s.feedback := rfl
@[simp] theorem setVector_mere (s : State) (f v : Nat) (e : Vector) : (setVector s f v e).mere = s.mere := rfl
@[simp] theorem setVector_memctl (s : State) (f v : Nat) (e : Vector) : (setVector s f v e).memctl = s.memctl := rfl
@[simp] theorem setVector_lane (s : State) (f v : Nat) (e : Vector) : (setVector s f v e).lane = s.lane := rfl
@[simp] theorem setVector_motion (s : State) (f v : Nat) (e : Vector) : (setVector s f v e).motion = s.motion := rfl
@[simp] theorem setVector_power (s : State) (f v : Nat) (e : Vector) : (setVector s f v e).power = s.power := rfl
@[simp] theorem setVector_boot (s : State) (f v : Nat) (e : Vector) : (setVector s f v e).boot = s.boot := rfl
@[simp] theorem regRaw_setVector (s : State) (f v : Nat) (e : Vector) (x : Nat) : regRaw (setVector s f v e) x = regRaw s x := rfl
@[simp] theorem getF_setVector (s : State) (f v : Nat) (e : Vector) (x : Fld) (y : Nat) : getF (setVector s f v e) x y = getF s x y := rfl
@[simp] theorem getP_setVector (s : State) (f v : Nat) (e : Vector) (x : Pair) (y : Nat) : getP (setVector s f v e) x y = getP s x y := rfl
@[simp] theorem memByte_setVector (s : State) (f v : Nat) (e : Vector) (x : Nat) : memByte (setVector s f v e) x = memByte s x := rfl

@[simp] theorem setCore_pending (s : State) (k : Nat) (c : Core) : (setCore s k c).pending = s.pending := rfl
@[simp] theorem setCore_regs (s : State) (k : Nat) (c : Core) : (setCore s k c).regs = s.regs := rfl
@[simp] theorem setCore_stage (s : State) (k : Nat) (c : Core) : (setCore s k c).stage = s.stage := rfl
@[simp] theorem setCore_snaps (s : State) (k : Nat) (c : Core) : (setCore s k c).snaps = s.snaps := rfl
@[simp] theorem setCore_mem (s : State) (k : Nat) (c : Core) : (setCore s k c).mem = s.mem := rfl
@[simp] theorem setCore_poison (s : State) (k : Nat) (c : Core) : (setCore s k c).poison = s.poison := rfl
@[simp] theorem setCore_frc (s : State) (k : Nat) (c : Core) : (setCore s k c).frc = s.frc := rfl
@[simp] theorem setCore_fresh (s : State) (k : Nat) (c : Core) : (setCore s k c).fresh = s.fresh := rfl
@[simp] theorem setCore_outs (s : State) (k : Nat) (c : Core) : (setCore s k c).outs = s.outs := rfl
@[simp] theorem setCore_time (s : State) (k : Nat) (c : Core) : (setCore s k c).time = s.time := rfl
@[simp] theorem setCore_ledger (s : State) (k : Nat) (c : Core) : (setCore s k c).ledger = s.ledger := rfl
@[simp] theorem setCore_intake (s : State) (k : Nat) (c : Core) : (setCore s k c).intake = s.intake := rfl
@[simp] theorem setCore_twin (s : State) (k : Nat) (c : Core) : (setCore s k c).twin = s.twin := rfl
@[simp] theorem setCore_lode (s : State) (k : Nat) (c : Core) : (setCore s k c).lode = s.lode := rfl
@[simp] theorem setCore_print (s : State) (k : Nat) (c : Core) : (setCore s k c).print = s.print := rfl
@[simp] theorem setCore_dlk (s : State) (k : Nat) (c : Core) : (setCore s k c).dlk = s.dlk := rfl
@[simp] theorem setCore_feedback (s : State) (k : Nat) (c : Core) : (setCore s k c).feedback = s.feedback := rfl
@[simp] theorem setCore_mere (s : State) (k : Nat) (c : Core) : (setCore s k c).mere = s.mere := rfl
@[simp] theorem setCore_memctl (s : State) (k : Nat) (c : Core) : (setCore s k c).memctl = s.memctl := rfl
@[simp] theorem setCore_lane (s : State) (k : Nat) (c : Core) : (setCore s k c).lane = s.lane := rfl
@[simp] theorem setCore_motion (s : State) (k : Nat) (c : Core) : (setCore s k c).motion = s.motion := rfl
@[simp] theorem setCore_power (s : State) (k : Nat) (c : Core) : (setCore s k c).power = s.power := rfl
@[simp] theorem setCore_boot (s : State) (k : Nat) (c : Core) : (setCore s k c).boot = s.boot := rfl
@[simp] theorem regRaw_setCore (s : State) (k : Nat) (c : Core) (x : Nat) : regRaw (setCore s k c) x = regRaw s x := rfl
@[simp] theorem getF_setCore (s : State) (k : Nat) (c : Core) (x : Fld) (y : Nat) : getF (setCore s k c) x y = getF s x y := rfl
@[simp] theorem getP_setCore (s : State) (k : Nat) (c : Core) (x : Pair) (y : Nat) : getP (setCore s k c) x y = getP s x y := rfl
@[simp] theorem memByte_setCore (s : State) (k : Nat) (c : Core) (x : Nat) : memByte (setCore s k c) x = memByte s x := rfl

@[simp] theorem writeG_pending (s : State) (k : Nat) (r : GReg) (v : Word) : (writeG s k r v).pending = s.pending := rfl
@[simp] theorem writeG_regs (s : State) (k : Nat) (r : GReg) (v : Word) : (writeG s k r v).regs = s.regs := rfl
@[simp] theorem writeG_stage (s : State) (k : Nat) (r : GReg) (v : Word) : (writeG s k r v).stage = s.stage := rfl
@[simp] theorem writeG_snaps (s : State) (k : Nat) (r : GReg) (v : Word) : (writeG s k r v).snaps = s.snaps := rfl
@[simp] theorem writeG_mem (s : State) (k : Nat) (r : GReg) (v : Word) : (writeG s k r v).mem = s.mem := rfl
@[simp] theorem writeG_poison (s : State) (k : Nat) (r : GReg) (v : Word) : (writeG s k r v).poison = s.poison := rfl
@[simp] theorem writeG_frc (s : State) (k : Nat) (r : GReg) (v : Word) : (writeG s k r v).frc = s.frc := rfl
@[simp] theorem writeG_fresh (s : State) (k : Nat) (r : GReg) (v : Word) : (writeG s k r v).fresh = s.fresh := rfl
@[simp] theorem writeG_outs (s : State) (k : Nat) (r : GReg) (v : Word) : (writeG s k r v).outs = s.outs := rfl
@[simp] theorem writeG_time (s : State) (k : Nat) (r : GReg) (v : Word) : (writeG s k r v).time = s.time := rfl
@[simp] theorem writeG_ledger (s : State) (k : Nat) (r : GReg) (v : Word) : (writeG s k r v).ledger = s.ledger := rfl
@[simp] theorem writeG_intake (s : State) (k : Nat) (r : GReg) (v : Word) : (writeG s k r v).intake = s.intake := rfl
@[simp] theorem writeG_twin (s : State) (k : Nat) (r : GReg) (v : Word) : (writeG s k r v).twin = s.twin := rfl
@[simp] theorem writeG_lode (s : State) (k : Nat) (r : GReg) (v : Word) : (writeG s k r v).lode = s.lode := rfl
@[simp] theorem writeG_print (s : State) (k : Nat) (r : GReg) (v : Word) : (writeG s k r v).print = s.print := rfl
@[simp] theorem writeG_dlk (s : State) (k : Nat) (r : GReg) (v : Word) : (writeG s k r v).dlk = s.dlk := rfl
@[simp] theorem writeG_feedback (s : State) (k : Nat) (r : GReg) (v : Word) : (writeG s k r v).feedback = s.feedback := rfl
@[simp] theorem writeG_mere (s : State) (k : Nat) (r : GReg) (v : Word) : (writeG s k r v).mere = s.mere := rfl
@[simp] theorem writeG_memctl (s : State) (k : Nat) (r : GReg) (v : Word) : (writeG s k r v).memctl = s.memctl := rfl
@[simp] theorem writeG_lane (s : State) (k : Nat) (r : GReg) (v : Word) : (writeG s k r v).lane = s.lane := rfl
@[simp] theorem writeG_motion (s : State) (k : Nat) (r : GReg) (v : Word) : (writeG s k r v).motion = s.motion := rfl
@[simp] theorem writeG_power (s : State) (k : Nat) (r : GReg) (v : Word) : (writeG s k r v).power = s.power := rfl
@[simp] theorem writeG_boot (s : State) (k : Nat) (r : GReg) (v : Word) : (writeG s k r v).boot = s.boot := rfl
@[simp] theorem regRaw_writeG (s : State) (k : Nat) (r : GReg) (v : Word) (x : Nat) : regRaw (writeG s k r v) x = regRaw s x := rfl
@[simp] theorem getF_writeG (s : State) (k : Nat) (r : GReg) (v : Word) (x : Fld) (y : Nat) : getF (writeG s k r v) x y = getF s x y := rfl
@[simp] theorem getP_writeG (s : State) (k : Nat) (r : GReg) (v : Word) (x : Pair) (y : Nat) : getP (writeG s k r v) x y = getP s x y := rfl
@[simp] theorem memByte_writeG (s : State) (k : Nat) (r : GReg) (v : Word) (x : Nat) : memByte (writeG s k r v) x = memByte s x := rfl

@[simp] theorem stallOn_pending (s : State) (k : Nat) (w : Stall) : (stallOn s k w).pending = s.pending := rfl
@[simp] theorem stallOn_regs (s : State) (k : Nat) (w : Stall) : (stallOn s k w).regs = s.regs := rfl
@[simp] theorem stallOn_stage (s : State) (k : Nat) (w : Stall) : (stallOn s k w).stage = s.stage := rfl
@[simp] theorem stallOn_snaps (s : State) (k : Nat) (w : Stall) : (stallOn s k w).snaps = s.snaps := rfl
@[simp] theorem stallOn_mem (s : State) (k : Nat) (w : Stall) : (stallOn s k w).mem = s.mem := rfl
@[simp] theorem stallOn_poison (s : State) (k : Nat) (w : Stall) : (stallOn s k w).poison = s.poison := rfl
@[simp] theorem stallOn_frc (s : State) (k : Nat) (w : Stall) : (stallOn s k w).frc = s.frc := rfl
@[simp] theorem stallOn_fresh (s : State) (k : Nat) (w : Stall) : (stallOn s k w).fresh = s.fresh := rfl
@[simp] theorem stallOn_outs (s : State) (k : Nat) (w : Stall) : (stallOn s k w).outs = s.outs := rfl
@[simp] theorem stallOn_time (s : State) (k : Nat) (w : Stall) : (stallOn s k w).time = s.time := rfl
@[simp] theorem stallOn_ledger (s : State) (k : Nat) (w : Stall) : (stallOn s k w).ledger = s.ledger := rfl
@[simp] theorem stallOn_intake (s : State) (k : Nat) (w : Stall) : (stallOn s k w).intake = s.intake := rfl
@[simp] theorem stallOn_twin (s : State) (k : Nat) (w : Stall) : (stallOn s k w).twin = s.twin := rfl
@[simp] theorem stallOn_lode (s : State) (k : Nat) (w : Stall) : (stallOn s k w).lode = s.lode := rfl
@[simp] theorem stallOn_print (s : State) (k : Nat) (w : Stall) : (stallOn s k w).print = s.print := rfl
@[simp] theorem stallOn_dlk (s : State) (k : Nat) (w : Stall) : (stallOn s k w).dlk = s.dlk := rfl
@[simp] theorem stallOn_feedback (s : State) (k : Nat) (w : Stall) : (stallOn s k w).feedback = s.feedback := rfl
@[simp] theorem stallOn_mere (s : State) (k : Nat) (w : Stall) : (stallOn s k w).mere = s.mere := rfl
@[simp] theorem stallOn_memctl (s : State) (k : Nat) (w : Stall) : (stallOn s k w).memctl = s.memctl := rfl
@[simp] theorem stallOn_lane (s : State) (k : Nat) (w : Stall) : (stallOn s k w).lane = s.lane := rfl
@[simp] theorem stallOn_motion (s : State) (k : Nat) (w : Stall) : (stallOn s k w).motion = s.motion := rfl
@[simp] theorem stallOn_power (s : State) (k : Nat) (w : Stall) : (stallOn s k w).power = s.power := rfl
@[simp] theorem stallOn_boot (s : State) (k : Nat) (w : Stall) : (stallOn s k w).boot = s.boot := rfl
@[simp] theorem regRaw_stallOn (s : State) (k : Nat) (w : Stall) (x : Nat) : regRaw (stallOn s k w) x = regRaw s x := rfl
@[simp] theorem getF_stallOn (s : State) (k : Nat) (w : Stall) (x : Fld) (y : Nat) : getF (stallOn s k w) x y = getF s x y := rfl
@[simp] theorem getP_stallOn (s : State) (k : Nat) (w : Stall) (x : Pair) (y : Nat) : getP (stallOn s k w) x y = getP s x y := rfl
@[simp] theorem memByte_stallOn (s : State) (k : Nat) (w : Stall) (x : Nat) : memByte (stallOn s k w) x = memByte s x := rfl

@[simp] theorem setQueue_pending (s : State) (q : Nat) (v : Queue) : (setQueue s q v).pending = s.pending := rfl
@[simp] theorem setQueue_regs (s : State) (q : Nat) (v : Queue) : (setQueue s q v).regs = s.regs := rfl
@[simp] theorem setQueue_stage (s : State) (q : Nat) (v : Queue) : (setQueue s q v).stage = s.stage := rfl
@[simp] theorem setQueue_snaps (s : State) (q : Nat) (v : Queue) : (setQueue s q v).snaps = s.snaps := rfl
@[simp] theorem setQueue_mem (s : State) (q : Nat) (v : Queue) : (setQueue s q v).mem = s.mem := rfl
@[simp] theorem setQueue_poison (s : State) (q : Nat) (v : Queue) : (setQueue s q v).poison = s.poison := rfl
@[simp] theorem setQueue_frc (s : State) (q : Nat) (v : Queue) : (setQueue s q v).frc = s.frc := rfl
@[simp] theorem setQueue_fresh (s : State) (q : Nat) (v : Queue) : (setQueue s q v).fresh = s.fresh := rfl
@[simp] theorem setQueue_outs (s : State) (q : Nat) (v : Queue) : (setQueue s q v).outs = s.outs := rfl
@[simp] theorem setQueue_time (s : State) (q : Nat) (v : Queue) : (setQueue s q v).time = s.time := rfl
@[simp] theorem setQueue_ledger (s : State) (q : Nat) (v : Queue) : (setQueue s q v).ledger = s.ledger := rfl
@[simp] theorem setQueue_intake (s : State) (q : Nat) (v : Queue) : (setQueue s q v).intake = s.intake := rfl
@[simp] theorem setQueue_twin (s : State) (q : Nat) (v : Queue) : (setQueue s q v).twin = s.twin := rfl
@[simp] theorem setQueue_lode (s : State) (q : Nat) (v : Queue) : (setQueue s q v).lode = s.lode := rfl
@[simp] theorem setQueue_print (s : State) (q : Nat) (v : Queue) : (setQueue s q v).print = s.print := rfl
@[simp] theorem setQueue_dlk (s : State) (q : Nat) (v : Queue) : (setQueue s q v).dlk = s.dlk := rfl
@[simp] theorem setQueue_feedback (s : State) (q : Nat) (v : Queue) : (setQueue s q v).feedback = s.feedback := rfl
@[simp] theorem setQueue_mere (s : State) (q : Nat) (v : Queue) : (setQueue s q v).mere = s.mere := rfl
@[simp] theorem setQueue_memctl (s : State) (q : Nat) (v : Queue) : (setQueue s q v).memctl = s.memctl := rfl
@[simp] theorem setQueue_lane (s : State) (q : Nat) (v : Queue) : (setQueue s q v).lane = s.lane := rfl
@[simp] theorem setQueue_motion (s : State) (q : Nat) (v : Queue) : (setQueue s q v).motion = s.motion := rfl
@[simp] theorem setQueue_power (s : State) (q : Nat) (v : Queue) : (setQueue s q v).power = s.power := rfl
@[simp] theorem setQueue_boot (s : State) (q : Nat) (v : Queue) : (setQueue s q v).boot = s.boot := rfl
@[simp] theorem regRaw_setQueue (s : State) (q : Nat) (v : Queue) (x : Nat) : regRaw (setQueue s q v) x = regRaw s x := rfl
@[simp] theorem getF_setQueue (s : State) (q : Nat) (v : Queue) (x : Fld) (y : Nat) : getF (setQueue s q v) x y = getF s x y := rfl
@[simp] theorem getP_setQueue (s : State) (q : Nat) (v : Queue) (x : Pair) (y : Nat) : getP (setQueue s q v) x y = getP s x y := rfl
@[simp] theorem memByte_setQueue (s : State) (q : Nat) (v : Queue) (x : Nat) : memByte (setQueue s q v) x = memByte s x := rfl

@[simp] theorem setPower_pending (s : State) (p : PowerState) : (setPower s p).pending = s.pending := rfl
@[simp] theorem setPower_regs (s : State) (p : PowerState) : (setPower s p).regs = s.regs := rfl
@[simp] theorem setPower_stage (s : State) (p : PowerState) : (setPower s p).stage = s.stage := rfl
@[simp] theorem setPower_snaps (s : State) (p : PowerState) : (setPower s p).snaps = s.snaps := rfl
@[simp] theorem setPower_mem (s : State) (p : PowerState) : (setPower s p).mem = s.mem := rfl
@[simp] theorem setPower_poison (s : State) (p : PowerState) : (setPower s p).poison = s.poison := rfl
@[simp] theorem setPower_frc (s : State) (p : PowerState) : (setPower s p).frc = s.frc := rfl
@[simp] theorem setPower_fresh (s : State) (p : PowerState) : (setPower s p).fresh = s.fresh := rfl
@[simp] theorem setPower_outs (s : State) (p : PowerState) : (setPower s p).outs = s.outs := rfl
@[simp] theorem setPower_host (s : State) (p : PowerState) : (setPower s p).host = s.host := rfl
@[simp] theorem setPower_time (s : State) (p : PowerState) : (setPower s p).time = s.time := rfl
@[simp] theorem setPower_ledger (s : State) (p : PowerState) : (setPower s p).ledger = s.ledger := rfl
@[simp] theorem setPower_intake (s : State) (p : PowerState) : (setPower s p).intake = s.intake := rfl
@[simp] theorem setPower_twin (s : State) (p : PowerState) : (setPower s p).twin = s.twin := rfl
@[simp] theorem setPower_lode (s : State) (p : PowerState) : (setPower s p).lode = s.lode := rfl
@[simp] theorem setPower_print (s : State) (p : PowerState) : (setPower s p).print = s.print := rfl
@[simp] theorem setPower_dlk (s : State) (p : PowerState) : (setPower s p).dlk = s.dlk := rfl
@[simp] theorem setPower_feedback (s : State) (p : PowerState) : (setPower s p).feedback = s.feedback := rfl
@[simp] theorem setPower_mere (s : State) (p : PowerState) : (setPower s p).mere = s.mere := rfl
@[simp] theorem setPower_memctl (s : State) (p : PowerState) : (setPower s p).memctl = s.memctl := rfl
@[simp] theorem setPower_lane (s : State) (p : PowerState) : (setPower s p).lane = s.lane := rfl
@[simp] theorem setPower_motion (s : State) (p : PowerState) : (setPower s p).motion = s.motion := rfl
@[simp] theorem setPower_boot (s : State) (p : PowerState) : (setPower s p).boot = s.boot := rfl
@[simp] theorem regRaw_setPower (s : State) (p : PowerState) (x : Nat) : regRaw (setPower s p) x = regRaw s x := rfl
@[simp] theorem getF_setPower (s : State) (p : PowerState) (x : Fld) (y : Nat) : getF (setPower s p) x y = getF s x y := rfl
@[simp] theorem getP_setPower (s : State) (p : PowerState) (x : Pair) (y : Nat) : getP (setPower s p) x y = getP s x y := rfl
@[simp] theorem coreOf_setPower (s : State) (p : PowerState) (x : Nat) : coreOf (setPower s p) x = coreOf s x := rfl
@[simp] theorem queueOf_setPower (s : State) (p : PowerState) (x : Nat) : queueOf (setPower s p) x = queueOf s x := rfl
@[simp] theorem memByte_setPower (s : State) (p : PowerState) (x : Nat) : memByte (setPower s p) x = memByte s x := rfl

@[simp] theorem setBoot_pending (s : State) (b : BootState) : (setBoot s b).pending = s.pending := rfl
@[simp] theorem setBoot_regs (s : State) (b : BootState) : (setBoot s b).regs = s.regs := rfl
@[simp] theorem setBoot_stage (s : State) (b : BootState) : (setBoot s b).stage = s.stage := rfl
@[simp] theorem setBoot_snaps (s : State) (b : BootState) : (setBoot s b).snaps = s.snaps := rfl
@[simp] theorem setBoot_mem (s : State) (b : BootState) : (setBoot s b).mem = s.mem := rfl
@[simp] theorem setBoot_poison (s : State) (b : BootState) : (setBoot s b).poison = s.poison := rfl
@[simp] theorem setBoot_frc (s : State) (b : BootState) : (setBoot s b).frc = s.frc := rfl
@[simp] theorem setBoot_fresh (s : State) (b : BootState) : (setBoot s b).fresh = s.fresh := rfl
@[simp] theorem setBoot_outs (s : State) (b : BootState) : (setBoot s b).outs = s.outs := rfl
@[simp] theorem setBoot_host (s : State) (b : BootState) : (setBoot s b).host = s.host := rfl
@[simp] theorem setBoot_time (s : State) (b : BootState) : (setBoot s b).time = s.time := rfl
@[simp] theorem setBoot_ledger (s : State) (b : BootState) : (setBoot s b).ledger = s.ledger := rfl
@[simp] theorem setBoot_intake (s : State) (b : BootState) : (setBoot s b).intake = s.intake := rfl
@[simp] theorem setBoot_twin (s : State) (b : BootState) : (setBoot s b).twin = s.twin := rfl
@[simp] theorem setBoot_lode (s : State) (b : BootState) : (setBoot s b).lode = s.lode := rfl
@[simp] theorem setBoot_print (s : State) (b : BootState) : (setBoot s b).print = s.print := rfl
@[simp] theorem setBoot_dlk (s : State) (b : BootState) : (setBoot s b).dlk = s.dlk := rfl
@[simp] theorem setBoot_feedback (s : State) (b : BootState) : (setBoot s b).feedback = s.feedback := rfl
@[simp] theorem setBoot_mere (s : State) (b : BootState) : (setBoot s b).mere = s.mere := rfl
@[simp] theorem setBoot_memctl (s : State) (b : BootState) : (setBoot s b).memctl = s.memctl := rfl
@[simp] theorem setBoot_lane (s : State) (b : BootState) : (setBoot s b).lane = s.lane := rfl
@[simp] theorem setBoot_motion (s : State) (b : BootState) : (setBoot s b).motion = s.motion := rfl
@[simp] theorem setBoot_power (s : State) (b : BootState) : (setBoot s b).power = s.power := rfl
@[simp] theorem regRaw_setBoot (s : State) (b : BootState) (x : Nat) : regRaw (setBoot s b) x = regRaw s x := rfl
@[simp] theorem getF_setBoot (s : State) (b : BootState) (x : Fld) (y : Nat) : getF (setBoot s b) x y = getF s x y := rfl
@[simp] theorem getP_setBoot (s : State) (b : BootState) (x : Pair) (y : Nat) : getP (setBoot s b) x y = getP s x y := rfl
@[simp] theorem coreOf_setBoot (s : State) (b : BootState) (x : Nat) : coreOf (setBoot s b) x = coreOf s x := rfl
@[simp] theorem queueOf_setBoot (s : State) (b : BootState) (x : Nat) : queueOf (setBoot s b) x = queueOf s x := rfl
@[simp] theorem memByte_setBoot (s : State) (b : BootState) (x : Nat) : memByte (setBoot s b) x = memByte s x := rfl

@[simp] theorem setTwin_pending (s : State) (v : TwinState) : (setTwin s v).pending = s.pending := rfl
@[simp] theorem setTwin_regs (s : State) (v : TwinState) : (setTwin s v).regs = s.regs := rfl
@[simp] theorem setTwin_stage (s : State) (v : TwinState) : (setTwin s v).stage = s.stage := rfl
@[simp] theorem setTwin_snaps (s : State) (v : TwinState) : (setTwin s v).snaps = s.snaps := rfl
@[simp] theorem setTwin_mem (s : State) (v : TwinState) : (setTwin s v).mem = s.mem := rfl
@[simp] theorem setTwin_poison (s : State) (v : TwinState) : (setTwin s v).poison = s.poison := rfl
@[simp] theorem setTwin_frc (s : State) (v : TwinState) : (setTwin s v).frc = s.frc := rfl
@[simp] theorem setTwin_fresh (s : State) (v : TwinState) : (setTwin s v).fresh = s.fresh := rfl
@[simp] theorem setTwin_outs (s : State) (v : TwinState) : (setTwin s v).outs = s.outs := rfl
@[simp] theorem setTwin_host (s : State) (v : TwinState) : (setTwin s v).host = s.host := rfl
@[simp] theorem setTwin_time (s : State) (v : TwinState) : (setTwin s v).time = s.time := rfl
@[simp] theorem setTwin_ledger (s : State) (v : TwinState) : (setTwin s v).ledger = s.ledger := rfl
@[simp] theorem setTwin_intake (s : State) (v : TwinState) : (setTwin s v).intake = s.intake := rfl
@[simp] theorem setTwin_lode (s : State) (v : TwinState) : (setTwin s v).lode = s.lode := rfl
@[simp] theorem setTwin_print (s : State) (v : TwinState) : (setTwin s v).print = s.print := rfl
@[simp] theorem setTwin_dlk (s : State) (v : TwinState) : (setTwin s v).dlk = s.dlk := rfl
@[simp] theorem setTwin_feedback (s : State) (v : TwinState) : (setTwin s v).feedback = s.feedback := rfl
@[simp] theorem setTwin_mere (s : State) (v : TwinState) : (setTwin s v).mere = s.mere := rfl
@[simp] theorem setTwin_memctl (s : State) (v : TwinState) : (setTwin s v).memctl = s.memctl := rfl
@[simp] theorem setTwin_lane (s : State) (v : TwinState) : (setTwin s v).lane = s.lane := rfl
@[simp] theorem setTwin_motion (s : State) (v : TwinState) : (setTwin s v).motion = s.motion := rfl
@[simp] theorem setTwin_power (s : State) (v : TwinState) : (setTwin s v).power = s.power := rfl
@[simp] theorem setTwin_boot (s : State) (v : TwinState) : (setTwin s v).boot = s.boot := rfl
@[simp] theorem regRaw_setTwin (s : State) (v : TwinState) (x : Nat) : regRaw (setTwin s v) x = regRaw s x := rfl
@[simp] theorem getF_setTwin (s : State) (v : TwinState) (x : Fld) (y : Nat) : getF (setTwin s v) x y = getF s x y := rfl
@[simp] theorem getP_setTwin (s : State) (v : TwinState) (x : Pair) (y : Nat) : getP (setTwin s v) x y = getP s x y := rfl
@[simp] theorem coreOf_setTwin (s : State) (v : TwinState) (x : Nat) : coreOf (setTwin s v) x = coreOf s x := rfl
@[simp] theorem queueOf_setTwin (s : State) (v : TwinState) (x : Nat) : queueOf (setTwin s v) x = queueOf s x := rfl
@[simp] theorem memByte_setTwin (s : State) (v : TwinState) (x : Nat) : memByte (setTwin s v) x = memByte s x := rfl

@[simp] theorem setMemctl_pending (s : State) (v : MemState) : (setMemctl s v).pending = s.pending := rfl
@[simp] theorem setMemctl_regs (s : State) (v : MemState) : (setMemctl s v).regs = s.regs := rfl
@[simp] theorem setMemctl_stage (s : State) (v : MemState) : (setMemctl s v).stage = s.stage := rfl
@[simp] theorem setMemctl_snaps (s : State) (v : MemState) : (setMemctl s v).snaps = s.snaps := rfl
@[simp] theorem setMemctl_mem (s : State) (v : MemState) : (setMemctl s v).mem = s.mem := rfl
@[simp] theorem setMemctl_poison (s : State) (v : MemState) : (setMemctl s v).poison = s.poison := rfl
@[simp] theorem setMemctl_frc (s : State) (v : MemState) : (setMemctl s v).frc = s.frc := rfl
@[simp] theorem setMemctl_fresh (s : State) (v : MemState) : (setMemctl s v).fresh = s.fresh := rfl
@[simp] theorem setMemctl_outs (s : State) (v : MemState) : (setMemctl s v).outs = s.outs := rfl
@[simp] theorem setMemctl_host (s : State) (v : MemState) : (setMemctl s v).host = s.host := rfl
@[simp] theorem setMemctl_time (s : State) (v : MemState) : (setMemctl s v).time = s.time := rfl
@[simp] theorem setMemctl_ledger (s : State) (v : MemState) : (setMemctl s v).ledger = s.ledger := rfl
@[simp] theorem setMemctl_intake (s : State) (v : MemState) : (setMemctl s v).intake = s.intake := rfl
@[simp] theorem setMemctl_twin (s : State) (v : MemState) : (setMemctl s v).twin = s.twin := rfl
@[simp] theorem setMemctl_lode (s : State) (v : MemState) : (setMemctl s v).lode = s.lode := rfl
@[simp] theorem setMemctl_print (s : State) (v : MemState) : (setMemctl s v).print = s.print := rfl
@[simp] theorem setMemctl_dlk (s : State) (v : MemState) : (setMemctl s v).dlk = s.dlk := rfl
@[simp] theorem setMemctl_feedback (s : State) (v : MemState) : (setMemctl s v).feedback = s.feedback := rfl
@[simp] theorem setMemctl_mere (s : State) (v : MemState) : (setMemctl s v).mere = s.mere := rfl
@[simp] theorem setMemctl_lane (s : State) (v : MemState) : (setMemctl s v).lane = s.lane := rfl
@[simp] theorem setMemctl_motion (s : State) (v : MemState) : (setMemctl s v).motion = s.motion := rfl
@[simp] theorem setMemctl_power (s : State) (v : MemState) : (setMemctl s v).power = s.power := rfl
@[simp] theorem setMemctl_boot (s : State) (v : MemState) : (setMemctl s v).boot = s.boot := rfl
@[simp] theorem regRaw_setMemctl (s : State) (v : MemState) (x : Nat) : regRaw (setMemctl s v) x = regRaw s x := rfl
@[simp] theorem getF_setMemctl (s : State) (v : MemState) (x : Fld) (y : Nat) : getF (setMemctl s v) x y = getF s x y := rfl
@[simp] theorem getP_setMemctl (s : State) (v : MemState) (x : Pair) (y : Nat) : getP (setMemctl s v) x y = getP s x y := rfl
@[simp] theorem coreOf_setMemctl (s : State) (v : MemState) (x : Nat) : coreOf (setMemctl s v) x = coreOf s x := rfl
@[simp] theorem queueOf_setMemctl (s : State) (v : MemState) (x : Nat) : queueOf (setMemctl s v) x = queueOf s x := rfl
@[simp] theorem memByte_setMemctl (s : State) (v : MemState) (x : Nat) : memByte (setMemctl s v) x = memByte s x := rfl

@[simp] theorem setHub_pending (s : State) (h : Nat) (v : Hub) : (setHub s h v).pending = s.pending := rfl
@[simp] theorem setHub_regs (s : State) (h : Nat) (v : Hub) : (setHub s h v).regs = s.regs := rfl
@[simp] theorem setHub_stage (s : State) (h : Nat) (v : Hub) : (setHub s h v).stage = s.stage := rfl
@[simp] theorem setHub_snaps (s : State) (h : Nat) (v : Hub) : (setHub s h v).snaps = s.snaps := rfl
@[simp] theorem setHub_mem (s : State) (h : Nat) (v : Hub) : (setHub s h v).mem = s.mem := rfl
@[simp] theorem setHub_poison (s : State) (h : Nat) (v : Hub) : (setHub s h v).poison = s.poison := rfl
@[simp] theorem setHub_frc (s : State) (h : Nat) (v : Hub) : (setHub s h v).frc = s.frc := rfl
@[simp] theorem setHub_fresh (s : State) (h : Nat) (v : Hub) : (setHub s h v).fresh = s.fresh := rfl
@[simp] theorem setHub_outs (s : State) (h : Nat) (v : Hub) : (setHub s h v).outs = s.outs := rfl
@[simp] theorem setHub_host (s : State) (h : Nat) (v : Hub) : (setHub s h v).host = s.host := rfl
@[simp] theorem setHub_time (s : State) (h : Nat) (v : Hub) : (setHub s h v).time = s.time := rfl
@[simp] theorem setHub_ledger (s : State) (h : Nat) (v : Hub) : (setHub s h v).ledger = s.ledger := rfl
@[simp] theorem setHub_intake (s : State) (h : Nat) (v : Hub) : (setHub s h v).intake = s.intake := rfl
@[simp] theorem setHub_twin (s : State) (h : Nat) (v : Hub) : (setHub s h v).twin = s.twin := rfl
@[simp] theorem setHub_lode (s : State) (h : Nat) (v : Hub) : (setHub s h v).lode = s.lode := rfl
@[simp] theorem setHub_print (s : State) (h : Nat) (v : Hub) : (setHub s h v).print = s.print := rfl
@[simp] theorem setHub_feedback (s : State) (h : Nat) (v : Hub) : (setHub s h v).feedback = s.feedback := rfl
@[simp] theorem setHub_mere (s : State) (h : Nat) (v : Hub) : (setHub s h v).mere = s.mere := rfl
@[simp] theorem setHub_memctl (s : State) (h : Nat) (v : Hub) : (setHub s h v).memctl = s.memctl := rfl
@[simp] theorem setHub_lane (s : State) (h : Nat) (v : Hub) : (setHub s h v).lane = s.lane := rfl
@[simp] theorem setHub_motion (s : State) (h : Nat) (v : Hub) : (setHub s h v).motion = s.motion := rfl
@[simp] theorem setHub_power (s : State) (h : Nat) (v : Hub) : (setHub s h v).power = s.power := rfl
@[simp] theorem setHub_boot (s : State) (h : Nat) (v : Hub) : (setHub s h v).boot = s.boot := rfl
@[simp] theorem regRaw_setHub (s : State) (h : Nat) (v : Hub) (x : Nat) : regRaw (setHub s h v) x = regRaw s x := rfl
@[simp] theorem getF_setHub (s : State) (h : Nat) (v : Hub) (x : Fld) (y : Nat) : getF (setHub s h v) x y = getF s x y := rfl
@[simp] theorem getP_setHub (s : State) (h : Nat) (v : Hub) (x : Pair) (y : Nat) : getP (setHub s h v) x y = getP s x y := rfl
@[simp] theorem coreOf_setHub (s : State) (h : Nat) (v : Hub) (x : Nat) : coreOf (setHub s h v) x = coreOf s x := rfl
@[simp] theorem queueOf_setHub (s : State) (h : Nat) (v : Hub) (x : Nat) : queueOf (setHub s h v) x = queueOf s x := rfl
@[simp] theorem memByte_setHub (s : State) (h : Nat) (v : Hub) (x : Nat) : memByte (setHub s h v) x = memByte s x := rfl

end Sys2Proof.Machine
end

