-- ==== Sys2Proof/Laws/Regs.lean ====
section
/-!
SUPPORT. Laws of the register file and of device memory: a read after a write, and that every operation keeps the one
form in which they are stored.
-/

namespace Sys2Proof.Machine

/-! The register file. -/

theorem mfind_regsPut_same (m : SMap Reg32) (o : Nat) (v : Reg32) : (mfind (regsPut m o v) o).getD (regDefault o) = v := by
  unfold regsPut
  split <;> simp_all

theorem mfind_regsPut_ne (m : SMap Reg32) {o o' : Nat} (v : Reg32) (h : o ≠ o') :
    mfind (regsPut m o v) o' = mfind m o' := by
  unfold regsPut
  split
  · exact mfind_mdel_ne m h
  · exact mfind_mput_ne m v h

@[simp] theorem regRaw_regPut_same (s : State) (o : Nat) (v : Reg32) : regRaw (regPut s o v) o = v :=
  mfind_regsPut_same s.regs o v

theorem regRaw_regPut_ne (s : State) {o o' : Nat} (v : Reg32) (h : o ≠ o') : regRaw (regPut s o v) o' = regRaw s o' := by
  simp [regRaw, regPut, mfind_regsPut_ne s.regs v h]

theorem regRaw_of_regs {s t : State} (h : s.regs = t.regs) (o : Nat) : regRaw s o = regRaw t o := by simp [regRaw, h]

theorem getF_of_regs {s t : State} (h : s.regs = t.regs) (f : Fld) (i : Nat) : getF s f i = getF t f i := by
  simp [getF, regRaw_of_regs h]

theorem getP_of_regs {s t : State} (h : s.regs = t.regs) (p : Pair) (i : Nat) : getP s p i = getP t p i := by
  simp [getP, regRaw_of_regs h]

/-- The bits of a register after a field write. -/
theorem regRaw_setF (s : State) (f : Fld) (v i : Nat) (h : f.lo + f.width ≤ 32) :
    (regRaw (setF s f v i) (f.off i)).toNat = setBits (regRaw s (f.off i)).toNat f.lo f.width v := by
  unfold setF
  rw [regRaw_regPut_same, BitVec.toNat_ofNat, Nat.mod_eq_of_lt]
  exact setBits_lt _ _ _ _ _ (regRaw s (f.off i)).isLt h

theorem regRaw_setF_ne (s : State) (f : Fld) (v i : Nat) {o : Nat} (h : f.off i ≠ o) :
    regRaw (setF s f v i) o = regRaw s o := regRaw_regPut_ne _ _ h

/-- A field reads what was written to it, less the bits it has no room for. -/
theorem getF_setF_same (s : State) (f : Fld) (v i : Nat) (h : f.lo + f.width ≤ 32) :
    getF (setF s f v i) f i = v % 2 ^ f.width := by
  rw [getF, regRaw_setF s f v i h, bits_setBits_same]

/-- A field of another register is unchanged. -/
theorem getF_setF_far (s : State) (f g : Fld) (v i j : Nat) (h : f.off i ≠ g.off j) :
    getF (setF s f v i) g j = getF s g j := by
  rw [getF, getF, regRaw_setF_ne s f v i h]

/-- Another field of the same register is unchanged. -/
theorem getF_setF_apart (s : State) (f g : Fld) (v i j : Nat) (h : f.off i = g.off j) (hf : f.lo + f.width ≤ 32)
    (hd : f.lo + f.width ≤ g.lo ∨ g.lo + g.width ≤ f.lo) : getF (setF s f v i) g j = getF s g j := by
  rw [getF, getF, ← h, regRaw_setF s f v i hf]
  rcases hd with hd | hd
  · exact bits_setBits_above _ _ _ _ _ _ hd
  · exact bits_setBits_below _ _ _ _ _ _ hd

/-- A field that shares no bit with the one written is unchanged. -/
theorem getF_setF_other (s : State) (f g : Fld) (v i j : Nat) (hf : f.lo + f.width ≤ 32)
    (hd : f.off i ≠ g.off j ∨ f.lo + f.width ≤ g.lo ∨ g.lo + g.width ≤ f.lo) : getF (setF s f v i) g j = getF s g j := by
  by_cases h : f.off i = g.off j
  · exact getF_setF_apart s f g v i j h hf (hd.resolve_left (fun hn => hn h))
  · exact getF_setF_far s f g v i j h

/-- A field of a register that a pair's write does not reach is unchanged. -/
theorem getF_setP_far (s : State) (p : Pair) (g : Fld) (v i j : Nat) (h : p.base + p.stride * i ≠ g.off j)
    (h' : p.base + p.stride * i + 4 ≠ g.off j) : getF (setP s p v i) g j = getF s g j := by
  rw [getF, getF, setP, regRaw_regPut_ne _ _ h', regRaw_regPut_ne _ _ h]

/-- A pair reads what was written to it, modulo 2^64. -/
theorem getP_setP_same (s : State) (p : Pair) (v i : Nat) : getP (setP s p v i) p i = v % 2 ^ 64 := by
  have h : p.base + p.stride * i + 4 ≠ p.base + p.stride * i := by omega
  simp only [getP, setP, regRaw_regPut_same, regRaw_regPut_ne _ _ h, BitVec.toNat_ofNat]
  omega

theorem getP_setF_far (s : State) (f : Fld) (p : Pair) (v i j : Nat) (h : f.off i ≠ p.base + p.stride * j)
    (h' : f.off i ≠ p.base + p.stride * j + 4) : getP (setF s f v i) p j = getP s p j := by
  rw [getP, getP, regRaw_setF_ne s f v i h, regRaw_setF_ne s f v i h']

theorem getP_setP_far (s : State) (p q : Pair) (v i j : Nat)
    (h : p.base + p.stride * i ≠ q.base + q.stride * j) (h2 : p.base + p.stride * i + 4 ≠ q.base + q.stride * j)
    (h3 : p.base + p.stride * i ≠ q.base + q.stride * j + 4) : getP (setP s p v i) q j = getP s q j := by
  have h4 : p.base + p.stride * i + 4 ≠ q.base + q.stride * j + 4 := by omega
  rw [getP, getP, setP, regRaw_regPut_ne _ _ h2, regRaw_regPut_ne _ _ h, regRaw_regPut_ne _ _ h4, regRaw_regPut_ne _ _ h3]

/-- Every register but CRS.PLLSTAT is as it was when a command ends. -/
theorem regRaw_showPlls (s : State) {o : Nat} (h : o ≠ 0x300000) : regRaw (showPlls s) o = regRaw s o :=
  regRaw_setF_ne s _ _ 0 (by simpa [Fld.off, CRS.PLLSTAT_LOCK] using h.symm)

theorem getF_showPlls (s : State) (g : Fld) (j : Nat) (h : g.off j ≠ 0x300000) : getF (showPlls s) g j = getF s g j := by
  rw [getF, getF, regRaw_showPlls s h]

theorem getP_showPlls (s : State) (p : Pair) (j : Nat) (h : p.base + p.stride * j ≠ 0x300000)
    (h' : p.base + p.stride * j + 4 ≠ 0x300000) : getP (showPlls s) p j = getP s p j := by
  rw [getP, getP, regRaw_showPlls s h, regRaw_showPlls s h']

theorem regsPut_wf {m : SMap Reg32} (h : Regs.wf m = true) (o : Nat) (v : Reg32) : Regs.wf (regsPut m o v) = true := by
  simp only [Regs.wf, Bool.and_eq_true] at h ⊢
  unfold regsPut
  split
  · exact ⟨mrising_mdel h.1, all_mdel h.2⟩
  · rename_i hv
    exact ⟨mrising_mput h.1, all_mput h.2 (by simp [hv])⟩

theorem regPut_wf {s : State} (h : Regs.wf s.regs = true) (o : Nat) (v : Reg32) : Regs.wf (regPut s o v).regs = true :=
  regsPut_wf h o v

theorem setF_wf {s : State} (h : Regs.wf s.regs = true) (f : Fld) (v i : Nat) : Regs.wf (setF s f v i).regs = true :=
  regsPut_wf h _ _

theorem setP_wf {s : State} (h : Regs.wf s.regs = true) (p : Pair) (v i : Nat) : Regs.wf (setP s p v i).regs = true :=
  regsPut_wf (regsPut_wf h _ _) _ _

theorem incF_wf {s : State} (h : Regs.wf s.regs = true) (f : Fld) (i : Nat) : Regs.wf (incF s f i).regs = true :=
  regsPut_wf h _ _

theorem regReset_wf {s : State} (h : Regs.wf s.regs = true) (o : Nat) : Regs.wf (regReset s o).regs = true := by
  simp only [Regs.wf, Bool.and_eq_true, regReset] at h ⊢
  exact ⟨mrising_mdel h.1, all_mdel h.2⟩

theorem mrising_filter {α : Type} {m : SMap α} {b : Nat} (p : Nat × α → Bool) (h : mrising b m = true) :
    mrising b (m.filter p) = true := by
  induction m generalizing b with
  | nil => rfl
  | cons e r ih =>
    obtain ⟨k, v⟩ := e
    simp only [mrising, Bool.and_eq_true, decide_eq_true_eq] at h
    by_cases hp : p (k, v) = true
    · simp [hp, mrising, h.1, ih h.2]
    · simpa [hp] using mrising_le (ih h.2) (by omega)

theorem all_filter {α : Type} {m : List α} (p q : α → Bool) (h : m.all q = true) : (m.filter p).all q = true := by
  simp only [List.all_eq_true, List.mem_filter] at h ⊢
  exact fun x hx => h x hx.1

theorem regResetRange_wf {s : State} (h : Regs.wf s.regs = true) (lo hi : Nat) :
    Regs.wf (regResetRange s lo hi).regs = true := by
  simp only [Regs.wf, Bool.and_eq_true, regResetRange] at h ⊢
  exact ⟨mrising_filter _ h.1, all_filter _ _ h.2⟩

/-! Device memory. -/

@[simp] theorem mfind_memPut_same (m : List Host.Cell) (a : Nat) (b : Byte) : (mfind (memPut m a b) a).getD 0 = b := by
  unfold memPut
  split <;> simp_all

theorem mfind_memPut_ne (m : List Host.Cell) {a a' : Nat} (b : Byte) (h : a ≠ a') :
    mfind (memPut m a b) a' = mfind m a' := by
  unfold memPut
  split
  · exact mfind_mdel_ne m h
  · exact mfind_mput_ne m b h

/-- Bytes outside the range written are unchanged. -/
theorem mfind_memPuts_out (m : List Host.Cell) (a : Nat) (bs : List Byte) {x : Nat} (h : x < a ∨ a + bs.length ≤ x) :
    mfind (memPuts m a bs) x = mfind m x := by
  induction bs generalizing m a with
  | nil => rfl
  | cons b r ih =>
    simp only [List.length_cons] at h
    rw [memPuts, ih _ _ (by omega), mfind_memPut_ne _ _ (by omega)]

/-- Byte `i` of the range written is byte `i` of what was written. -/
theorem mfind_memPuts_in (m : List Host.Cell) (a : Nat) (bs : List Byte) (i : Nat) (h : i < bs.length) :
    (mfind (memPuts m a bs) (a + i)).getD 0 = bs[i] := by
  induction bs generalizing m a i with
  | nil => simp at h
  | cons b r ih =>
    cases i with
    | zero => rw [memPuts, mfind_memPuts_out _ _ _ (by omega)]; exact mfind_memPut_same m a b
    | succ j =>
      simp only [List.length_cons] at h
      have e : a + (j + 1) = a + 1 + j := by omega
      rw [memPuts, e, ih _ _ _ (by omega)]; rfl

theorem memByte_putBytes_out (s : State) (a : Nat) (bs : List Byte) {x : Nat} (h : x < a ∨ a + bs.length ≤ x) :
    memByte (putBytes s a bs) x = memByte s x := by
  simp [memByte, putBytes, mfind_memPuts_out s.mem a bs h]

theorem memByte_putBytes_in (s : State) (a : Nat) (bs : List Byte) (i : Nat) (h : i < bs.length) :
    memByte (putBytes s a bs) (a + i) = bs[i] := mfind_memPuts_in s.mem a bs i h

theorem memPut_wf {m : List Host.Cell} (h : Memory.wf m = true) (a : Nat) (b : Byte) : Memory.wf (memPut m a b) = true := by
  simp only [Memory.wf, Bool.and_eq_true] at h ⊢
  unfold memPut
  split
  · exact ⟨mrising_mdel h.1, all_mdel h.2⟩
  · rename_i hv
    exact ⟨mrising_mput h.1, all_mput h.2 (decide_eq_true hv)⟩

theorem memPuts_wf {m : List Host.Cell} (h : Memory.wf m = true) (a : Nat) (bs : List Byte) :
    Memory.wf (memPuts m a bs) = true := by
  induction bs generalizing m a with
  | nil => exact h
  | cons b r ih => exact ih (memPut_wf h a b) _

theorem putBytes_wf {s : State} (h : Memory.wf s.mem = true) (a : Nat) (bs : List Byte) :
    Memory.wf (putBytes s a bs).mem = true := memPuts_wf h a bs

/-- What holds of a state and of each step of a loop holds at its end. -/
theorem forEach_inv {α : Type} {P : State → Prop} (l : List α) (s : State) (f : State → α → State) (h : ∀ s a, P s → P (f s a)) (hs : P s) :
    P (forEach l s f) := by
  induction l generalizing s with
  | nil => exact hs
  | cons a r ih => exact ih (f s a) (h s a hs)

/-- An access of SDRAM changes what the memory controller holds, and MEM.STAT; the bytes stay as they are. -/
theorem accessRange_eq (s : State) (a n : Nat) : ∃ r m, accessRange s a n = { s with regs := r, memctl := m } := by
  refine forEach_inv (P := fun t => ∃ r m, t = { s with regs := r, memctl := m }) _ _ _ (fun t i ht => ?_) ?_
  · obtain ⟨r, m, rfl⟩ := ht
    split
    · unfold accessBurst activate
      dsimp only
      split
      · exact ⟨_, _, rfl⟩
      · split <;> exact ⟨_, _, rfl⟩
    · exact ⟨_, _, rfl⟩
  · split <;> exact ⟨_, _, rfl⟩

theorem accessRange_mem (s : State) (a n : Nat) : (accessRange s a n).mem = s.mem := by
  obtain ⟨r, m, h⟩ := accessRange_eq s a n
  rw [h]

theorem engineWrite_wf {s : State} (h : Memory.wf s.mem = true) (a : Nat) (bs : List Byte) :
    Memory.wf (engineWrite s a bs).mem = true := by
  have h0 : Memory.wf (clearPoison (accessRange s a bs.length) a bs.length).mem = true := by
    rw [clearPoison_mem, accessRange_mem]; exact h
  unfold engineWrite
  dsimp only
  split
  · refine forEach_inv (P := fun t => Memory.wf t.mem = true) _ _ _ (fun t e ht => ?_) h0
    split
    · exact ht
    · exact putBytes_wf ht _ _
  · exact putBytes_wf h0 _ _

theorem zeroRange_wf {s : State} (h : Memory.wf s.mem = true) (a n : Nat) : Memory.wf (zeroRange s a n).mem = true := by
  simp only [Memory.wf, Bool.and_eq_true, zeroRange, clearPoison] at h ⊢
  exact ⟨mrising_filter _ h.1, all_filter _ _ h.2⟩

theorem reset_mem_wf : Memory.wf State.reset.mem = true := rfl

theorem reset_regs_wf : Regs.wf State.reset.regs = true := rfl

end Sys2Proof.Machine
end

