-- ==== Sys2Proof/Laws/Cores.lean ====
section
/-!
SUPPORT. Laws of the cores: what running one instruction does, once and for all, and what a command on a standing block does.
-/

namespace Sys2Proof.Machine

@[simp] theorem coreOf_setCore_same (s : State) (k : Nat) (c : Core) : coreOf (setCore s k c) k = c := by
  simp [coreOf, setCore]

theorem coreOf_setCore_ne (s : State) {j k : Nat} (c : Core) (h : k ≠ j) : coreOf (setCore s k c) j = coreOf s j := by
  simp [coreOf, setCore, mget_mput_ne _ _ _ h]

theorem coreOf_of_host {s t : State} (h : s.host = t.host) (k : Nat) : coreOf s k = coreOf t k := by simp [coreOf, h]

/-- A general register after a write of one. -/
theorem Core.read_write (c : Core) (rd r : GReg) (v : Word) :
    (c.write rd v).read r = if r = rd ∧ rd ≠ 0 then v else c.read r := by
  unfold Core.write Core.read
  by_cases h0 : rd = 0
  · subst h0; simp
  · by_cases hr : r = rd
    · subst hr; simp [h0]
    · have hv : rd.val ≠ r.val := fun h => hr (Fin.ext h.symm)
      simp [h0, hr, mget_mput_ne _ _ _ hv]

/-- A command on a block that stands changes nothing. -/
theorem whenUp_stands {s : State} {p : Nat} (h : stands s p = true) (t : State) : whenUp p s t = s := by simp [whenUp, h]

/-- A command on a block that is up has its effect, and leaves CRS.PLLSTAT right. -/
theorem whenUp_up {s : State} {p : Nat} (h : stands s p = false) (t : State) : whenUp p s t = showPlls t := by simp [whenUp, h]

/-- An instruction that a core executes, by what its body answers. -/
theorem runInstr_executes {s : State} {c : CoreId} (h : Executes s c) (body : Nat → State → Res) :
    runInstr c body s = (match body (coreNum c) s with
      | .ok s' => retire s' (coreNum c) (nextPc s c) none
      | .goto s' t => retire s' (coreNum c) t (some (coreOf s (coreNum c)).pc)
      | .fault code addr => takeFault s (coreNum c) code (coreOf s (coreNum c)).pc.toNat addr
      | .hold s' => s') := by
  obtain ⟨-, hr, hp, hb⟩ := h
  simp only [runInstr, hr, hp, hb, if_true, Bool.not_true, Bool.false_eq_true, if_false]; rfl

/-- Entering DEBUG writes registers of the blocks and nothing else. -/
theorem enterDebug_eq (s : State) (k : Nat) : enterDebug s k = { s with regs := (enterDebug s k).regs } := by
  cases h : isThread k <;> simp [enterDebug, setHalted, setCoreState, h] <;> rfl

/-- The end of an instruction updates its core, and no more than registers of the blocks besides. -/
theorem retire_eq (s : State) (k : Nat) (pc : Word) (j : Option Word) :
    retire s k pc j = { setCore s k { coreOf s k with
      pc := pc, jumpFrom := j.getD 0, stall := .none, stepping := false, bpSkip := false } with
      regs := (retire s k pc j).regs } := by
  cases h : (coreOf s k).stepping
  · simp only [retire, h, Bool.false_eq_true, if_false]
  · simp only [retire, h, if_true]
    exact enterDebug_eq _ _

/-- What the end of an instruction does to the core: pc and the marks of a jump, a stall and a step. -/
theorem coreOf_retire (s : State) (k : Nat) (pc : Word) (j : Option Word) :
    coreOf (retire s k pc j) k = { coreOf s k with pc := pc, jumpFrom := j.getD 0, stall := .none, stepping := false, bpSkip := false } := by
  rw [retire_eq]
  exact coreOf_setCore_same _ _ _

theorem coreOf_retire_ne (s : State) {j k : Nat} (pc : Word) (o : Option Word) (h : k ≠ j) :
    coreOf (retire s k pc o) j = coreOf s j := by
  rw [retire_eq]
  exact coreOf_setCore_ne _ _ h

theorem retire_mem (s : State) (k : Nat) (pc : Word) (j : Option Word) : (retire s k pc j).mem = s.mem := by
  rw [retire_eq]; rfl

theorem retire_outs (s : State) (k : Nat) (pc : Word) (j : Option Word) : (retire s k pc j).outs = s.outs := by
  rw [retire_eq]; rfl

/-- Unless one instruction is being stepped, its end touches no register of the blocks. -/
theorem retire_regs (s : State) (k : Nat) (pc : Word) (j : Option Word) (h : (coreOf s k).stepping = false) :
    (retire s k pc j).regs = s.regs := by
  simp [retire, h]

/-- An instruction whose body writes one register, and perhaps STATUS, and falls through or jumps. -/
theorem retires_of {s u : State} {c : CoreId} {rd : GReg} {v pc : Word} {sat ovf : Bool} {j : Option Word}
    (hh : coreOf u (coreNum c) = { (coreOf s (coreNum c)).write rd v with sat := sat, ovf := ovf })
    (ho : ∀ i, i ≠ coreNum c → coreOf u i = coreOf s i) (hm : u.mem = s.mem) (hs : u.outs = s.outs) (hr : u.regs = s.regs) :
    Retires s (showPlls (retire u (coreNum c) pc j)) c rd v pc sat ovf := by
  have hst : (coreOf u (coreNum c)).stepping = (coreOf s (coreNum c)).stepping := by
    rw [hh]; unfold Core.write; split <;> rfl
  have hs' : ∀ {α : Type} (f : Core → α), (∀ x g, f { x with g := g } = f x) →
      (∀ x a b, f { x with sat := a, ovf := b } = f x) → f (coreOf u (coreNum c)) = f (coreOf s (coreNum c)) := by
    intro α f h1 h2
    rw [hh, h2]; unfold Core.write; split
    · rfl
    · exact h1 _ _
  refine ⟨?_, ?_, ?_, ?_, ?_, ?_, ?_, ?_, ?_⟩
  · intro r
    rw [readG, coreOf_showPlls, coreOf_retire, readG, ← Core.read_write, hh]
    rfl
  · rw [coreOf_showPlls, coreOf_retire]
  · rw [coreOf_showPlls, coreOf_retire, hh]
  · rw [coreOf_showPlls, coreOf_retire, hh]
  · rw [coreOf_showPlls, coreOf_retire]
    exact ⟨hs' (·.hwin) (fun _ _ => rfl) (fun _ _ _ => rfl), hs' (·.hostfn) (fun _ _ => rfl) (fun _ _ _ => rfl),
      hs' (·.event) (fun _ _ => rfl) (fun _ _ _ => rfl), hs' (·.evmask) (fun _ _ => rfl) (fun _ _ _ => rfl),
      hs' (·.timer) (fun _ _ => rfl) (fun _ _ _ => rfl)⟩
  · intro i hi
    rw [coreOf_showPlls, coreOf_retire_ne _ _ _ (Ne.symm hi), ho i hi]
  · rw [showPlls_mem, retire_mem, hm]
  · rw [showPlls_outs, retire_outs, hs]
  · intro hstep o ho'
    rw [regRaw_showPlls _ ho', regRaw_of_regs (retire_regs u _ _ _ (hst.trans hstep)), regRaw_of_regs hr]

end Sys2Proof.Machine
end

