-- ==== Sys2Proof/Laws/Events.lean ====
section
/-!
SUPPORT. Laws of events and completions: what raising one can change.
-/

namespace Sys2Proof.Machine

/-- What reporting to the host can change: registers of PCI and above, what is held or sent for the host, and nothing else. -/
structure Reports (s t : State) : Prop where
  low : ∀ o, o < 0x3000000 → regRaw t o = regRaw s o
  cores : t.host.cores = s.host.cores
  ops : t.host.ops = s.host.ops
  queues : t.host.queues = s.host.queues
  rest : t = { s with regs := t.regs, host := t.host, outs := t.outs }

theorem Reports.refl (s : State) : Reports s s := ⟨fun _ _ => rfl, rfl, rfl, rfl, rfl⟩

theorem Reports.trans {s t u : State} (h : Reports s t) (g : Reports t u) : Reports s u := by
  refine ⟨fun o ho => (g.low o ho).trans (h.low o ho), g.cores.trans h.cores, g.ops.trans h.ops, g.queues.trans h.queues, ?_⟩
  have h1 := h.rest
  have h2 := g.rest
  rw [h1] at h2
  exact h2

/-- A report leaves the registers below PCI, so every field and pair there. -/
theorem Reports.getF {s t : State} (h : Reports s t) (f : Fld) (i : Nat) (hf : f.off i < 0x3000000) :
    getF t f i = Machine.getF s f i := by
  rw [Machine.getF, Machine.getF, h.low _ hf]

theorem Reports.getP {s t : State} (h : Reports s t) (p : Pair) (i : Nat) (hf : p.base + p.stride * i + 4 < 0x3000000) :
    getP t p i = Machine.getP s p i := by
  rw [Machine.getP, Machine.getP, h.low _ hf, h.low _ (by omega)]

theorem reports_setF (s : State) (f : Fld) (v i : Nat) (h : 0x3000000 ≤ f.base) : Reports s (setF s f v i) :=
  ⟨fun o ho => regRaw_setF_ne s f v i (by unfold Fld.off; omega), rfl, rfl, rfl, rfl⟩

theorem reports_incF (s : State) (f : Fld) (i : Nat) (h : 0x3000000 ≤ f.base) : Reports s (incF s f i) :=
  reports_setF s f _ i h

theorem reports_send (s : State) (o : Out) : Reports s (send s o) := ⟨fun _ _ => rfl, rfl, rfl, rfl, rfl⟩

theorem reports_setFn (s : State) (f : Nat) (v : Fn) : Reports s (setFn s f v) := ⟨fun _ _ => rfl, rfl, rfl, rfl, rfl⟩

theorem reports_hostWrite (s : State) (f a : Nat) (bs : List Byte) : Reports s (hostWrite s f a bs) := by
  unfold hostWrite hostWriteBy
  split
  · exact ⟨fun _ _ => rfl, rfl, rfl, rfl, rfl⟩
  · exact reports_send _ _

theorem reports_signalVector (s : State) (f v : Nat) : Reports s (signalVector s f v) := by
  simp only [signalVector]
  split
  · exact ⟨fun _ _ => rfl, rfl, rfl, rfl, rfl⟩
  · exact reports_send _ _

theorem reports_putEvent (s : State) (f : Nat) (e : Event) : Reports s (putEvent s f e) := by
  simp only [putEvent]
  exact ((reports_hostWrite s _ _ _).trans (reports_setF _ _ _ _ (by decide))).trans (reports_signalVector _ _ _)

theorem reports_loseEvent (s : State) (f : Nat) : Reports s (loseEvent s f) := by
  simp only [loseEvent]
  exact (reports_incF s _ _ (by decide)).trans (reports_setFn _ _ _)

theorem reports_putLost (s : State) (f : Nat) : Reports s (putLost s f) := by
  unfold putLost
  split
  · exact (reports_putEvent s _ _).trans (reports_setFn _ _ _)
  · exact Reports.refl s

theorem reports_deliverEvent (s : State) (f : Nat) (e : Event) : Reports s (deliverEvent s f e) := by
  simp only [deliverEvent]
  split
  · exact (reports_putLost s f).trans (reports_putEvent _ _ _)
  · split
    · exact (reports_putLost s f).trans (reports_incF _ _ _ (by decide))
    · exact ((reports_putLost s f).trans (reports_loseEvent _ _)).trans (reports_setF _ _ _ _ (by decide))

/-- Raising a device event reports to the host and does nothing else. -/
theorem reports_raiseEvent (s : State) (f code aux value : Nat) : Reports s (raiseEvent s f code aux value) := by
  simp only [raiseEvent]
  split
  · split
    · exact reports_setFn _ _ _
    · exact (reports_loseEvent s f).trans (reports_setF _ _ _ _ (by decide))
  · exact reports_deliverEvent _ _ _

end Sys2Proof.Machine
end

