-- ==== Sys2Proof/Laws/Faults.lean ====
section
/-!
SUPPORT. Laws of faults: what taking one does to its core, and that completing a faulted entry keeps it.
-/

namespace Sys2Proof.Machine

/-- What completing an entry keeps: registers below PCI, the cores, memory, and which queues have a RESUME held. -/
structure Completes (s t : State) : Prop where
  low : ∀ o, o < 0x3000000 → regRaw t o = regRaw s o
  cores : t.host.cores = s.host.cores
  mem : t.mem = s.mem
  resume : ∀ q, (queueOf t q).resumeHeld = (queueOf s q).resumeHeld

theorem Completes.refl (s : State) : Completes s s := ⟨fun _ _ => rfl, rfl, rfl, fun _ => rfl⟩

theorem Completes.trans {s t u : State} (h : Completes s t) (g : Completes t u) : Completes s u :=
  ⟨fun o ho => (g.low o ho).trans (h.low o ho), g.cores.trans h.cores, g.mem.trans h.mem, fun q => (g.resume q).trans (h.resume q)⟩

theorem Reports.mem {s t : State} (h : Reports s t) : t.mem = s.mem := by rw [h.rest]

theorem Reports.completes {s t : State} (h : Reports s t) : Completes s t :=
  ⟨h.low, h.cores, h.mem, fun q => by simp [queueOf, h.queues]⟩

theorem queueOf_setQueue_same (s : State) (q : Nat) (v : Queue) : queueOf (setQueue s q v) q = v := by
  simp [queueOf, setQueue]

theorem queueOf_setQueue_ne (s : State) {p q : Nat} (v : Queue) (h : q ≠ p) : queueOf (setQueue s q v) p = queueOf s p := by
  simp [queueOf, setQueue, mget_mput_ne _ _ _ h]

theorem completes_setQueue (s : State) (q : Nat) (v : Queue) (h : v.resumeHeld = (queueOf s q).resumeHeld) :
    Completes s (setQueue s q v) := by
  refine ⟨fun _ _ => rfl, rfl, rfl, fun p => ?_⟩
  by_cases hp : q = p
  · subst hp; rw [queueOf_setQueue_same, h]
  · rw [queueOf_setQueue_ne _ _ hp]

theorem completes_forEach {β : Type} (l : List β) (s : State) (f : State → β → State) (h : ∀ s b, Completes s (f s b)) :
    Completes s (forEach l s f) := by
  induction l generalizing s with
  | nil => exact Completes.refl s
  | cons a r ih => exact (h s a).trans (ih (f s a))

theorem completes_setBand (s : State) (h : Nat) (b : Band) : Completes s (setBand s h b) :=
  ⟨fun _ _ => rfl, rfl, rfl, fun _ => rfl⟩

theorem completes_dropBand (s : State) (h : Nat) : Completes s (dropBand s h) :=
  ⟨fun _ _ => rfl, rfl, rfl, fun _ => rfl⟩

theorem completes_writeReleases (s : State) (f : Nat) : Completes s (writeReleases s f) := by
  refine completes_forEach _ _ _ (fun s b => ?_)
  split
  · exact Completes.refl s
  · split
    · exact Completes.refl s
    · dsimp only
      split
      · exact (((reports_putLost s f).trans (reports_putEvent _ _ _)).completes.trans (reports_setFn _ _ _).completes).trans
          (completes_dropBand _ _)
      · exact (reports_putLost s f).completes

theorem completes_releaseBand (s : State) (h : Nat) (r : Bool) : Completes s (releaseBand s h r) := by
  unfold releaseBand
  split
  · exact Completes.refl s
  · split
    · exact ((completes_setBand s _ _).trans (reports_setFn _ _ _).completes).trans (completes_writeReleases _ _)
    · exact completes_dropBand _ _

theorem completes_checkRelease (s : State) (h : Nat) (r : Bool) : Completes s (checkRelease s h r) := by
  unfold checkRelease
  split
  · exact Completes.refl s
  · split
    · exact completes_releaseBand _ _ _
    · exact Completes.refl s

theorem completes_endLoadRefs (s : State) (q n : Nat) : Completes s (endLoadRefs s q n) := by
  refine completes_forEach _ _ _ (fun s b => ?_)
  split
  · split
    · exact (completes_setBand s _ _).trans (completes_checkRelease _ _ _)
    · exact Completes.refl s
  · exact Completes.refl s

theorem completes_writeCompletion (s : State) (q slot : Nat) (bs : List Byte) (irq : Bool) :
    Completes s (writeCompletion s q slot bs irq) := by
  simp only [writeCompletion]
  split
  · exact ((reports_hostWrite s _ _ _).trans (reports_signalVector _ _ _)).completes
  · exact (reports_hostWrite s _ _ _).completes

/-- Posting a completion keeps what Completes says. -/
theorem completes_postCompletion (s : State) (q : Nat) (e : Entry) (st r f p : Nat) : Completes s (postCompletion s q e st r f p) := by
  unfold postCompletion
  dsimp only
  refine Completes.trans ?_ (completes_endLoadRefs _ _ _)
  refine Completes.trans (completes_setQueue s q _ ?_) (completes_writeCompletion _ _ _ _ _)
  rfl

theorem completes_stopQueue (s : State) (q st n : Nat) : Completes s (stopQueue s q st n) :=
  ((reports_setF s PCI.QSTAT_STATE 3 q (by decide)).trans (reports_raiseEvent _ _ _ _ _)).completes

theorem completes_finishDisable (s : State) (q : Nat) : Completes s (finishDisable s q) := by
  simp only [finishDisable]
  split
  · have h1 := completes_setQueue s q { queueOf s q with disablePending := false } rfl
    have h2 := (reports_setF (setQueue s q { queueOf s q with disablePending := false }) PCI.QCFG_EN 0 q (by decide)).completes
    have h3 := fun u => (reports_setF u PCI.QSTAT_STATE 0 q (by decide)).completes
    exact (h1.trans h2).trans (h3 _)
  · exact Completes.refl s

/-- What a thread's fault has recorded, and its general registers and STATUS. -/
structure Recorded (k : Nat) (s t : State) : Prop where
  code : getF t CWY.TSTAT_CODE k = getF s CWY.TSTAT_CODE k
  pc : getP t CWY.FAULTPC k = getP s CWY.FAULTPC k
  addr : getP t CWY.FAULTADDR k = getP s CWY.FAULTADDR k
  g : ∀ j, (coreOf t j).g = (coreOf s j).g
  sat : ∀ j, (coreOf t j).sat = (coreOf s j).sat
  ovf : ∀ j, (coreOf t j).ovf = (coreOf s j).ovf
  mem : t.mem = s.mem

theorem Recorded.trans {k : Nat} {s t u : State} (h : Recorded k s t) (g : Recorded k t u) : Recorded k s u :=
  ⟨g.code.trans h.code, g.pc.trans h.pc, g.addr.trans h.addr, fun j => (g.g j).trans (h.g j), fun j => (g.sat j).trans (h.sat j),
    fun j => (g.ovf j).trans (h.ovf j), g.mem.trans h.mem⟩

theorem Completes.getF {s t : State} (h : Completes s t) (f : Fld) (i : Nat) (hf : f.off i < 0x3000000) :
    getF t f i = Machine.getF s f i := by
  rw [Machine.getF, Machine.getF, h.low _ hf]

theorem Completes.recorded {s t : State} (h : Completes s t) {k : Nat} (hk : k < 16) : Recorded k s t := by
  have hc : ∀ j, coreOf t j = coreOf s j := fun j => by simp [coreOf, h.cores]
  refine ⟨h.getF _ _ ?_, ?_, ?_, fun j => by rw [hc], fun j => by rw [hc], fun j => by rw [hc], h.mem⟩
  · simp only [Fld.off, CWY.TSTAT_CODE]; omega
  · rw [Machine.getP, Machine.getP, h.low _ (by simp only [CWY.FAULTPC]; omega), h.low _ (by simp only [CWY.FAULTPC]; omega)]
  · rw [Machine.getP, Machine.getP, h.low _ (by simp only [CWY.FAULTADDR]; omega), h.low _ (by simp only [CWY.FAULTADDR]; omega)]

theorem dropStall_regs (s : State) (k : Nat) : (dropStall s k).regs = s.regs := by
  unfold dropStall; cases readAway s k <;> rfl

/-- Ending a stall keeps everything else of its core. -/
theorem coreOf_dropStall (s : State) (k j : Nat) :
    coreOf (dropStall s k) j = if k = j then { coreOf s k with stall := .none } else coreOf s j := by
  have e : coreOf (dropStall s k) j = coreOf (setCore s k { coreOf s k with stall := .none }) j := by
    unfold dropStall; cases readAway s k <;> rfl
  rw [e]
  by_cases h : k = j
  · subst h; rw [coreOf_setCore_same, if_pos rfl]
  · rw [coreOf_setCore_ne _ _ h, if_neg h]

theorem setHalted_host (s : State) (k : Nat) (b : Bool) : (setHalted s k b).host = s.host := by
  unfold setHalted; split <;> rfl

theorem unbind_regRaw (s : State) (t : Nat) {o : Nat} (ht : t < 16) (ho : CWY.TSTAT_STATE.off t ≠ o) (hd : CWY.DBGCTL_HALTED.off t ≠ o) :
    regRaw (unbindThread s t) o = regRaw s o := by
  have hb : CWY.TSTAT_BOUND.off t ≠ o := ho
  have hi : isThread t = true := by simp [isThread, ht]
  simp only [unbindThread, regRaw_setCore, setHalted, hi, if_true]
  rw [regRaw_setF_ne _ _ _ _ hd, regRaw_setF_ne _ _ _ _ hb, regRaw_setF_ne _ _ _ _ ho, regRaw, regRaw, dropStall_regs]

theorem unbind_core (s : State) (t j : Nat) : coreOf (unbindThread s t) j =
    if t = j then { coreOf s t with stall := .none, stepping := false, clearHeld := false } else coreOf s j := by
  have e : ∀ i, coreOf (setHalted (setF (setF (dropStall s t) CWY.TSTAT_STATE 0 t) CWY.TSTAT_BOUND 0 t) t false) i = coreOf (dropStall s t) i :=
    fun i => coreOf_of_host (setHalted_host _ _ _) i
  simp only [unbindThread]
  by_cases h : t = j
  · subst h; rw [coreOf_setCore_same, if_pos rfl, e, coreOf_dropStall, if_pos rfl]
  · rw [coreOf_setCore_ne _ _ h, if_neg h, e, coreOf_dropStall, if_neg h]

theorem unbind_mem (s : State) (t : Nat) : (unbindThread s t).mem = s.mem := by
  have e : (dropStall s t).mem = s.mem := by unfold dropStall; cases readAway s t <;> rfl
  simp only [unbindThread, setHalted]
  split <;> exact e

theorem recorded_unbind (s : State) (t : Nat) {k : Nat} (hk : k < 16) (ht : t < 16) : Recorded k s (unbindThread s t) := by
  have hi : isThread t = true := by simp [isThread, ht]
  refine ⟨?_, ?_, ?_, ?_, ?_, ?_, unbind_mem s t⟩
  · simp only [unbindThread, getF_setCore, setHalted, hi, if_true]
    rw [getF_setF_other _ _ _ _ _ _ (by decide) (by left; simp only [Fld.off, CWY.TSTAT_CODE, CWY.DBGCTL_HALTED]; omega),
      getF_setF_other _ _ _ _ _ _ (by decide) (by right; decide), getF_setF_other _ _ _ _ _ _ (by decide) (by right; decide),
      Machine.getF, Machine.getF, regRaw, regRaw, dropStall_regs]
  · rw [getP, getP, unbind_regRaw _ _ ht (by simp only [Fld.off, CWY.TSTAT_STATE, CWY.FAULTPC]; omega)
      (by simp only [Fld.off, CWY.DBGCTL_HALTED, CWY.FAULTPC]; omega),
      unbind_regRaw _ _ ht (by simp only [Fld.off, CWY.TSTAT_STATE, CWY.FAULTPC]; omega)
      (by simp only [Fld.off, CWY.DBGCTL_HALTED, CWY.FAULTPC]; omega)]
  · rw [getP, getP, unbind_regRaw _ _ ht (by simp only [Fld.off, CWY.TSTAT_STATE, CWY.FAULTADDR]; omega)
      (by simp only [Fld.off, CWY.DBGCTL_HALTED, CWY.FAULTADDR]; omega),
      unbind_regRaw _ _ ht (by simp only [Fld.off, CWY.TSTAT_STATE, CWY.FAULTADDR]; omega)
      (by simp only [Fld.off, CWY.DBGCTL_HALTED, CWY.FAULTADDR]; omega)]
  all_goals
    intro j
    rw [unbind_core]
    split
    · rename_i h; subst h; rfl
    · rfl

theorem queue_of_thread_lt (s : State) (f : Fld) (i : Nat) (h : f.width = 4) : getF s f i < 16 := by
  unfold getF bits
  rw [h]
  exact Nat.mod_lt _ (by decide)

theorem recorded_resume (s : State) (q : Nat) {k : Nat} (hk : k < 16) : Recorded k s (resumeQueue s q) := by
  have h0 : Recorded k s s := (Completes.refl s).recorded hk
  simp only [resumeQueue]
  have ht : getF s PCI.QCFG_THREAD q < 16 := queue_of_thread_lt s _ _ (by decide)
  have h1 : ∀ u, Recorded k s u → Recorded k s (if getF u PCI.QSTAT_STATE q = 3 then setF u PCI.QSTAT_STATE 1 q else u) := by
    intro u hu
    split
    · exact hu.trans ((reports_setF u _ _ _ (by decide)).completes.recorded hk)
    · exact hu
  apply h1
  split
  · exact recorded_unbind s _ hk ht
  · exact h0

/-- Holding a completion on chip keeps what Completes says. -/
theorem completes_holdEnd (s : State) (t q : Nat) (e : Entry) : Completes s (holdEnd s t q e) := by
  unfold holdEnd
  split
  · exact Completes.refl s
  · exact (completes_setQueue s q { queueOf s q with entry := some { e with ended := some (workNs s) } } rfl).trans
      ⟨fun _ _ => rfl, rfl, rfl, fun _ => rfl⟩

theorem recorded_postFault (s : State) {k : Nat} (hk : k < 16) : Recorded k s (postFault s k) := by
  have h0 : Recorded k s s := (Completes.refl s).recorded hk
  simp only [postFault]
  split
  · split
    · exact h0
    · have h1 : ∀ e : Entry, Recorded k s (finishDisable (stopQueue (postCompletion s (getF s CWY.TSTAT_QUEUE k) e 1 0
          (getF s CWY.TSTAT_CODE k) (getP s CWY.FAULTPC k)) (getF s CWY.TSTAT_QUEUE k) 1 e.qseq) (getF s CWY.TSTAT_QUEUE k)) := fun e =>
        (((completes_postCompletion s _ _ _ _ _ _).trans (completes_stopQueue _ _ _ _)).trans (completes_finishDisable _ _)).recorded hk
      have h2 : ∀ u, Recorded k s u → Recorded k s (if (coreOf u k).clearHeld = true then unbindThread u k else u) := by
        intro u hu
        split
        · exact hu.trans (recorded_unbind u k hk hk)
        · exact hu
      have h3 : ∀ u q, Recorded k s u → Recorded k s (if (queueOf u q).resumeHeld = true then
          resumeQueue (setQueue u q { queueOf u q with resumeHeld := false }) q else u) := by
        intro u q hu
        split
        · refine hu.trans (Recorded.trans (t := setQueue u q { queueOf u q with resumeHeld := false }) ?_ (recorded_resume _ _ hk))
          exact ⟨rfl, rfl, rfl, fun _ => rfl, fun _ => rfl, fun _ => rfl, rfl⟩
        · exact hu
      split
      · exact (completes_holdEnd s _ _ _).recorded hk
      · exact h3 _ _ (h2 _ (h1 _))
  · exact h0

/-- With no CLEAR and no RESUME held, completing a faulted entry keeps the thread FAULTED. -/
theorem state_postFault (s : State) {k : Nat} (hk : k < 16) (hc : (coreOf s k).clearHeld = false)
    (hr : ∀ q, (queueOf s q).resumeHeld = false) : getF (postFault s k) CWY.TSTAT_STATE k = getF s CWY.TSTAT_STATE k := by
  simp only [postFault]
  split
  · split
    · rfl
    · rename_i e _
      have h1 := ((completes_postCompletion s (getF s CWY.TSTAT_QUEUE k) e 1 0
          (getF s CWY.TSTAT_CODE k) (getP s CWY.FAULTPC k)).trans (completes_stopQueue _ (getF s CWY.TSTAT_QUEUE k) 1 e.qseq)).trans
          (completes_finishDisable _ (getF s CWY.TSTAT_QUEUE k))
      have h2 : ∀ j, coreOf (finishDisable (stopQueue (postCompletion s (getF s CWY.TSTAT_QUEUE k) e 1 0
          (getF s CWY.TSTAT_CODE k) (getP s CWY.FAULTPC k)) (getF s CWY.TSTAT_QUEUE k) 1 e.qseq) (getF s CWY.TSTAT_QUEUE k)) j = coreOf s j :=
        fun j => by simp [coreOf, h1.cores]
      split
      · exact (completes_holdEnd s _ _ _).getF _ _ (by simp only [Fld.off, CWY.TSTAT_STATE]; omega)
      · simp only [h2, hc, h1.resume, hr, Bool.false_eq_true, if_false]
        exact h1.getF _ _ (by simp only [Fld.off, CWY.TSTAT_STATE]; omega)
  · rfl

/-- A thread as its fault finds it: halted, and what the fault records written. -/
def faultRecord (s : State) (k code pc addr : Nat) : State :=
  setP (setP (setF s CWY.TSTAT_CODE code k) CWY.FAULTPC pc k) CWY.FAULTADDR addr k

theorem faultRecord_code (s : State) {k code pc addr : Nat} (h : code < 256) :
    getF (faultRecord s k code pc addr) CWY.TSTAT_CODE k = code := by
  unfold faultRecord
  rw [getF_setP_far, getF_setP_far, getF_setF_same]
  · exact Nat.mod_eq_of_lt h
  · decide
  all_goals simp only [Fld.off, CWY.TSTAT_CODE, CWY.FAULTPC, CWY.FAULTADDR]; omega

theorem faultRecord_pc (s : State) {k code pc addr : Nat} (h : pc < 2 ^ 64) :
    getP (faultRecord s k code pc addr) CWY.FAULTPC k = pc := by
  unfold faultRecord
  rw [getP_setP_far, getP_setP_same, Nat.mod_eq_of_lt h]
  all_goals simp only [CWY.FAULTPC, CWY.FAULTADDR]; omega

theorem faultRecord_addr (s : State) {k code pc addr : Nat} (h : addr < 2 ^ 64) :
    getP (faultRecord s k code pc addr) CWY.FAULTADDR k = addr := by
  unfold faultRecord
  rw [getP_setP_same, Nat.mod_eq_of_lt h]

theorem faultRecord_state (s : State) {k code pc addr : Nat} (hk : k < 16) :
    getF (faultRecord s k code pc addr) CWY.TSTAT_STATE k = getF s CWY.TSTAT_STATE k := by
  unfold faultRecord
  rw [getF_setP_far, getF_setP_far, getF_setF_other]
  · decide
  · right; decide
  all_goals simp only [Fld.off, CWY.TSTAT_STATE, CWY.FAULTPC, CWY.FAULTADDR]; omega

/-- A core halted by a fault, before what the fault records is written. -/
def faultHalt (s : State) (k : Nat) : State :=
  let u := setCore s k { coreOf s k with stall := .none, stepping := false }
  let u := { u with host := { u.host with
    tagWaiters := u.host.tagWaiters.filter (fun j => j != k), granted := mdel u.host.granted k } }
  if catches u k then enterDebug u k else setCoreState u k (stFaulted k)

theorem faultHalt_core (s : State) (k : Nat) : coreOf (faultHalt s k) k = { coreOf s k with stall := .none, stepping := false } := by
  unfold faultHalt
  dsimp only
  split
  · rw [enterDebug_eq]; exact coreOf_setCore_same _ _ _
  · unfold setCoreState; split <;> exact coreOf_setCore_same _ _ _

theorem faultHalt_mem (s : State) (k : Nat) : (faultHalt s k).mem = s.mem := by
  unfold faultHalt
  dsimp only
  split
  · rw [enterDebug_eq]; rfl
  · unfold setCoreState; split <;> rfl

theorem faultHalt_queues (s : State) (k q : Nat) : queueOf (faultHalt s k) q = queueOf s q := by
  unfold faultHalt
  dsimp only
  split
  · rw [enterDebug_eq]; rfl
  · unfold setCoreState; split <;> rfl

theorem faultHalt_eq (s : State) (k : Nat) : ∃ u : State, u.regs = s.regs ∧
    faultHalt s k = if catches s k then enterDebug u k else setCoreState u k (stFaulted k) := by
  let u := setCore s k { coreOf s k with stall := .none, stepping := false }
  exact ⟨{ u with host := { u.host with tagWaiters := u.host.tagWaiters.filter (fun j => j != k), granted := mdel u.host.granted k } },
    rfl, rfl⟩

theorem faultHalt_thread (s : State) {k : Nat} (hk : k < 16) :
    getF (faultHalt s k) CWY.TSTAT_STATE k = if catches s k then 3 else 2 := by
  have hi : isThread k = true := by simp [isThread, hk]
  obtain ⟨u, -, he⟩ := faultHalt_eq s k
  rw [he]
  cases catches s k
  · simp only [Bool.false_eq_true, if_false, setCoreState, hi, if_true, stFaulted]
    rw [getF_setF_same _ _ _ _ (by decide)]
    rfl
  · simp only [if_true, enterDebug, setHalted, setCoreState, hi, stDebug]
    rw [getF_setF_other _ _ _ _ _ _ (by decide) (by left; simp only [Fld.off, CWY.TSTAT_STATE, CWY.DBGCTL_HALTED]; omega),
      getF_setF_same _ _ _ _ (by decide)]
    rfl

theorem faultHalt_reed (s : State) {n : Nat} :
    getF (faultHalt s (16 + n)) RDC.STAT_STATE n = if catches s (16 + n) then 5 else 4 := by
  have hi : isThread (16 + n) = false := by simp [isThread]
  have hn : 16 + n - 16 = n := by omega
  obtain ⟨u, -, he⟩ := faultHalt_eq s (16 + n)
  rw [he]
  cases catches s (16 + n)
  · simp only [Bool.false_eq_true, if_false, setCoreState, hi, stFaulted, hn]
    rw [getF_setF_same _ _ _ _ (by decide)]
    rfl
  · simp only [if_true, enterDebug, setHalted, setCoreState, hi, Bool.false_eq_true, if_false, stDebug, hn]
    rw [getF_setF_other _ _ _ _ _ _ (by decide) (by left; simp only [Fld.off, RDC.STAT_STATE, RDC.DBGCTL_HALTED]; omega),
      getF_setF_same _ _ _ _ (by decide)]
    rfl

theorem reports_two (s : State) (f k q pc : Nat) :
    Reports s (if f = 0 then raiseEvent s 0 1 (k + 65536 * q) pc else raiseEvent (raiseEvent s 0 1 (k + 65536 * q) pc) f 1 (k + 65536 * q) pc) := by
  split
  · exact reports_raiseEvent _ _ _ _ _
  · exact (reports_raiseEvent _ _ _ _ _).trans (reports_raiseEvent _ _ _ _ _)

/-- A thread's fault: halt, record, report, and complete the entry where nothing is outstanding. -/
theorem takeFault_thread (s : State) {k : Nat} (hk : k < 16) (code pc addr : Nat) : ∃ u, Reports (faultRecord (faultHalt s k) k code pc addr) u ∧
    takeFault s k code pc addr = postFault u k := by
  have hi : isThread k = true := by simp [isThread, hk]
  refine ⟨_, reports_two _ (hostFn (faultRecord (faultHalt s k) k code pc addr) k) k
    (if flag (faultRecord (faultHalt s k) k code pc addr) CWY.TSTAT_BOUND k then
      getF (faultRecord (faultHalt s k) k code pc addr) CWY.TSTAT_QUEUE k else 0) pc, ?_⟩
  simp only [takeFault, hi, if_true, faultRecord, faultHalt]

theorem takeFault_reed (s : State) (n code pc addr : Nat) : ∃ u, Reports (setP (setP (setF (faultHalt s (16 + n)) RDC.STAT_CODE code n)
    RDC.FAULTPC pc n) RDC.FAULTADDR addr n) u ∧ takeFault s (16 + n) code pc addr = u := by
  have hi : isThread (16 + n) = false := by simp [isThread]
  have hn : 16 + n - 16 = n := by omega
  refine ⟨_, reports_raiseEvent _ 0 2 n pc, ?_⟩
  simp only [takeFault, hi, Bool.false_eq_true, if_false, hn, faultHalt]

/-- Everything that taking a fault does to its core. -/
theorem faults_of {s : State} {c : CoreId} {code addr : Nat} (hc : code < 256) (ha : addr < 2 ^ 64) :
    Faults s (showPlls (takeFault s (coreNum c) code (coreOf s (coreNum c)).pc.toNat addr)) c code addr := by
  have hpc : (coreOf s (coreNum c)).pc.toNat < 2 ^ 64 := (coreOf s (coreNum c)).pc.isLt
  cases c with
  | thread t =>
    have hk : t.val < 16 := t.isLt
    have hi : isThread t.val = true := by simp [isThread]
    have hcn : coreNum (.thread t) = t.val := rfl
    rw [hcn] at hpc ⊢
    obtain ⟨u, hu, he⟩ := takeFault_thread s hk code (coreOf s t.val).pc.toNat addr
    have hr := (hu.completes.recorded hk).trans (recorded_postFault u hk)
    have hcore : coreOf (faultRecord (faultHalt s t.val) t.val code (coreOf s t.val).pc.toNat addr) t.val =
        { coreOf s t.val with stall := .none, stepping := false } := faultHalt_core s t.val
    have hg : ∀ f : Fld, f.off t.val ≠ 0x300000 → ∀ v, getF (showPlls v) f t.val = getF v f t.val := fun f hf v => getF_showPlls v f _ hf
    constructor <;> (try rw [hcn])
    · intro h1 h2
      have hu1 : (coreOf u t.val).clearHeld = false := by
        have : coreOf u t.val = coreOf (faultRecord (faultHalt s t.val) t.val code (coreOf s t.val).pc.toNat addr) t.val := by
          simp only [coreOf, hu.cores]
        rw [this, hcore]; exact h1
      have hu2 : ∀ q, (queueOf u q).resumeHeld = false := fun q => by
        rw [hu.completes.resume]
        exact (congrArg Queue.resumeHeld (faultHalt_queues s t.val q)).trans (h2 q)
      simp only [coreState, hi, if_true, stDebug, stFaulted]
      rw [hg _ (by simp only [Fld.off, CWY.TSTAT_STATE]; omega), he, state_postFault u hk hu1 hu2,
        hu.getF _ _ (by simp only [Fld.off, CWY.TSTAT_STATE]; omega), faultRecord_state _ hk, faultHalt_thread s hk]
    · rw [if_pos hi, hg _ (by simp only [Fld.off, CWY.TSTAT_CODE]; omega), he, hr.code, faultRecord_code _ hc]
    · rw [if_pos hi, getP_showPlls _ _ _ (by simp only [CWY.FAULTPC]; omega) (by simp only [CWY.FAULTPC]; omega), he, hr.pc,
        faultRecord_pc _ hpc]
    · rw [if_pos hi, getP_showPlls _ _ _ (by simp only [CWY.FAULTADDR]; omega) (by simp only [CWY.FAULTADDR]; omega), he, hr.addr,
        faultRecord_addr _ ha]
    · intro r
      rw [readG, coreOf_showPlls, readG, he]
      unfold Core.read
      rw [hr.g, hcore]
    · rw [coreOf_showPlls, he, hr.sat, hr.ovf, hcore]; exact ⟨rfl, rfl⟩
    · rw [showPlls_mem, he, hr.mem]; exact faultHalt_mem s t.val
  | reed n =>
    have hn : n.val < 32 := n.isLt
    have hi : isThread (16 + n.val) = false := by simp [isThread]
    have hcn : coreNum (.reed n) = 16 + n.val := rfl
    rw [hcn] at hpc ⊢
    have hn16 : 16 + n.val - 16 = n.val := by omega
    obtain ⟨u, hu, he⟩ := takeFault_reed s n.val code (coreOf s (16 + n.val)).pc.toNat addr
    have hcore : coreOf u (16 + n.val) = { coreOf s (16 + n.val) with stall := .none, stepping := false } :=
      (congrArg (fun m => mget m (16 + n.val) Core.fresh) hu.cores).trans (faultHalt_core s (16 + n.val))
    have hg : ∀ f : Fld, f.off n.val ≠ 0x300000 → ∀ v, getF (showPlls v) f n.val = getF v f n.val := fun f hf v => getF_showPlls v f _ hf
    constructor <;> (try rw [hcn])
    · intro _ _
      simp only [coreState, hi, Bool.false_eq_true, if_false, stDebug, stFaulted, hn16]
      rw [hg _ (by simp only [Fld.off, RDC.STAT_STATE]; omega), he, hu.getF _ _ (by simp only [Fld.off, RDC.STAT_STATE]; omega),
        getF_setP_far _ _ _ _ _ _ (by simp only [Fld.off, RDC.STAT_STATE, RDC.FAULTADDR]; omega) (by simp only [Fld.off, RDC.STAT_STATE, RDC.FAULTADDR]; omega),
        getF_setP_far _ _ _ _ _ _ (by simp only [Fld.off, RDC.STAT_STATE, RDC.FAULTPC]; omega) (by simp only [Fld.off, RDC.STAT_STATE, RDC.FAULTPC]; omega),
        getF_setF_other _ _ _ _ _ _ (by decide) (by right; decide), faultHalt_reed]
    · rw [if_neg (by simp [hi]), hn16, hg _ (by simp only [Fld.off, RDC.STAT_CODE]; omega), he, hu.getF _ _ (by simp only [Fld.off, RDC.STAT_CODE]; omega),
        getF_setP_far _ _ _ _ _ _ (by simp only [Fld.off, RDC.STAT_CODE, RDC.FAULTADDR]; omega) (by simp only [Fld.off, RDC.STAT_CODE, RDC.FAULTADDR]; omega),
        getF_setP_far _ _ _ _ _ _ (by simp only [Fld.off, RDC.STAT_CODE, RDC.FAULTPC]; omega) (by simp only [Fld.off, RDC.STAT_CODE, RDC.FAULTPC]; omega),
        getF_setF_same _ _ _ _ (by decide)]
      exact Nat.mod_eq_of_lt hc
    · rw [if_neg (by simp [hi]), hn16, getP_showPlls _ _ _ (by simp only [RDC.FAULTPC]; omega) (by simp only [RDC.FAULTPC]; omega), he,
        hu.getP _ _ (by simp only [RDC.FAULTPC]; omega), getP_setP_far _ _ _ _ _ _ (by simp only [RDC.FAULTPC, RDC.FAULTADDR]; omega)
          (by simp only [RDC.FAULTPC, RDC.FAULTADDR]; omega) (by simp only [RDC.FAULTPC, RDC.FAULTADDR]; omega), getP_setP_same, Nat.mod_eq_of_lt hpc]
    · rw [if_neg (by simp [hi]), hn16, getP_showPlls _ _ _ (by simp only [RDC.FAULTADDR]; omega) (by simp only [RDC.FAULTADDR]; omega), he,
        hu.getP _ _ (by simp only [RDC.FAULTADDR]; omega), getP_setP_same, Nat.mod_eq_of_lt ha]
    · intro r
      rw [readG, coreOf_showPlls, readG, he]
      unfold Core.read
      rw [hcore]
    · rw [coreOf_showPlls, he, hcore]; exact ⟨rfl, rfl⟩
    · rw [showPlls_mem, he, hu.mem]; exact faultHalt_mem s (16 + n.val)

end Sys2Proof.Machine
end

