-- ==== Sys2Proof/Machine/Balls.lean ====
section
/-!
DEFINITION. The ball grid: what each of the 2,304 balls carries, by the placement rules of its region (R444 to R449).
-/

namespace Sys2Proof.Machine

/-- The supplies (Table: ball counts). -/
inductive Supply where
  | vddCore | vddSram | vddaLane | vddhLane | vddqMem | vddIo18 | vddIo33 | vddPll | vddMoss
  deriving DecidableEq, Repr

/-- A signal: its name, the lane, channel or instance it belongs to, and its index in a bus. -/
structure Signal where
  name : String
  unit : Nat
  index : Nat
  deriving DecidableEq, Repr

/-- What a ball carries. -/
inductive Ball where
  | vss
  | reserved
  | supply (s : Supply)
  | signal (s : Signal)
  deriving DecidableEq, Repr

/-- A bus of signals, from index 0 up. -/
def bus (name : String) (unit n : Nat) : List Signal := (upto n).map (fun i => ⟨name, unit, i⟩)

/-- Single signals of one instance. -/
def pins (unit : Nat) (names : List String) : List Signal := names.map (fun n => ⟨n, unit, 0⟩)

/-- The west region's 160 signals in the order that fills its positions (R448). -/
def westSignals : List Signal :=
  pins 0 ["REFCLK_PCIE_P", "REFCLK_PCIE_N", "PE_CLKREQ_N", "REFCLK_LANE0_P", "REFCLK_LANE0_N", "REFCLK_LANE1_P", "REFCLK_LANE1_N",
    "REFCLK_SYS", "XTAL32_IN", "XTAL32_OUT", "PORST_N", "SYSRST_N", "RSTOUT_N"] ++
  pins 0 ["BOOT_SRC0", "BOOT_SRC1", "PROFILE", "TWIN_EN", "UNIT_ID", "PREFERRED", "TCK", "TMS", "TDI", "TDO", "TRST_N", "MGMT_SCL",
    "MGMT_SDA", "XSPI_CLK", "XSPI_CS_N", "XSPI_DQS", "XSPI_RESET_N"] ++
  bus "XSPI_DQ" 0 8 ++ pins 0 ["FAULT_OUT", "THERM_N", "WEB_STOP_IN", "HB_TX", "HB_RX", "SPDLIM"] ++
  bus "TOUT" 0 16 ++ bus "TIN" 0 8 ++ bus "MARK" 0 4 ++ bus "CXP_UP" 0 8 ++ bus "GPIO" 0 32 ++
  (upto 12).flatMap (fun n => pins n ["FB_A", "FB_B", "FB_Z", "FB_SC"])

/-- The east region's 152 signals (R448). -/
def eastSignals : List Signal :=
  (upto 8).flatMap (fun n => pins n ["ST_PA", "ST_EA", "ST_PB", "ST_EB", "ST_CA", "ST_CB", "ST_VA", "ST_VB"]) ++
  (upto 16).flatMap (fun n => pins n ["AX_STEP", "AX_DIR"]) ++ bus "PWM" 0 24 ++
  (upto 8).flatMap (fun n => pins n ["SP_SCK", "SP_CS", "SP_MOSI", "SP_MISO"])

/-- One subchannel of memory channel `m` (R449). -/
def subchannel (m : Nat) (dq t c ca cs ck0 ck1 alert : String) : List Signal :=
  bus dq m 40 ++ (upto 5).flatMap (fun i => [⟨t, m, i⟩, ⟨c, m, i⟩]) ++ bus ca m 14 ++ bus cs m 4 ++
  (upto 2).flatMap (fun i => [⟨ck0, m, i⟩, ⟨ck1, m, i⟩]) ++ [⟨alert, m, 0⟩]

/-- The signals of memory channel `m` (R449). -/
def memorySignals (m : Nat) : List Signal :=
  subchannel m "A_DQ" "A_DQS_T" "A_DQS_C" "A_CA" "A_CS_N" "A_CK_T" "A_CK_C" "A_ALERT_N" ++
  subchannel m "B_DQ" "B_DQS_T" "B_DQS_C" "B_CA" "B_CS_N" "B_CK_T" "B_CK_C" "B_ALERT_N" ++ [⟨"RESET_N", m, 0⟩]

/-- A ball of a lane's or a PCIe lane's cell, at a row and a column of the cell from 0 (R446). -/
def cellBall (names : List String) (l row col : Nat) : Ball :=
  let sig (i : Nat) : Ball := .signal ⟨names.getD i "", l, 0⟩
  if row = 0 ∧ col = 1 then sig 0
  else if row = 0 ∧ col = 2 then sig 1
  else if row = 2 ∧ col = 1 then sig 2
  else if row = 2 ∧ col = 2 then sig 3
  else if row = 3 ∧ col = 0 then .supply (if l % 2 = 0 then .vddaLane else .vddhLane)
  else .vss

/-- The signal position, from 0, of a region's local column other than 6 and 12, in a row counted from 0 (R448). -/
def ballPosition (row j : Nat) : Nat := 10 * row + (if j ≤ 5 then j - 1 else j - 2)

def signalBall (l : List Signal) (row j : Nat) (other : Ball) : Ball :=
  match l[ballPosition row j]? with
  | some x => .signal x
  | none => other

/-- What ball `r`-`c` carries, rows and columns 1 to 48 (R444, R445). -/
def ballAt (r c : Nat) : Ball :=
  if r ≤ 12 then cellBall ["TXP", "TXN", "RXP", "RXN"] (16 * ((r - 1) / 4) + (c - 1) / 3) ((r - 1) % 4) ((c - 1) % 3)
  else if r ≤ 16 then cellBall ["PE_TXP", "PE_TXN", "PE_RXP", "PE_RXN"] ((c - 1) / 3) (r - 13) ((c - 1) % 3)
  else if r ≤ 32 then
    if c ≤ 12 then
      (if c = 6 ∨ c = 12 then (if r % 2 = 0 then .vss else .supply (if c = 6 then .vddIo18 else .vddIo33))
       else signalBall westSignals (r - 17) c .reserved)
    else if c ≤ 36 then
      (if (r + c) % 2 = 0 then .vss
       else .supply (if c = 13 ∨ c = 14 ∨ c = 35 ∨ c = 36 then .vddSram else .vddCore))
    else if c = 42 ∨ c = 48 then
      (if r % 2 = 0 then .vss
       else .supply (if r ≤ 23 then (if c = 42 then .vddIo18 else .vddPll) else (if c = 42 then .vddIo33 else .vddMoss)))
    else signalBall eastSignals (r - 17) (c - 36) .reserved
  else
    let m := (c - 1) / 12
    let j := c - 12 * m
    if j = 6 ∨ j = 12 then (if r % 2 = 0 then .vss else .supply .vddqMem)
    else signalBall (memorySignals m) (r - 33) j .vss

/-- How many balls of some rows satisfy a test. -/
def countBalls (p : Ball → Bool) : Nat := ((fromTo 1 48).map (fun r => ((fromTo 1 48).filter (fun c => p (ballAt r c))).length)).foldl (· + ·) 0

end Sys2Proof.Machine
end

