-- ==== Sys2Proof/Machine/Pads.lean ====
section
/-!
DEFINITION. The pads: what each output ball of bank 0 and of the memory interface, and each GPIO, is driven to in a state (R450 to
R452, R465), and the amplitude of a lane (R458).
-/

namespace Sys2Proof.Machine

/-- How a pad stands: low, high, pulled up or down from outside, pulled down inside, high-impedance, at the level JESD79-5 requires in
self-refresh, or as the block behind it drives it. -/
inductive PadDrive where
  | low | high | released | pullDown | highZ | selfRefresh | block
  deriving DecidableEq, Repr

def padLevel (high : Bool) : PadDrive := if high then .high else .low

/-- The outputs of bank 0 (Table: signal groups). -/
structure SystemPads where
  rstoutN : PadDrive
  faultOut : PadDrive
  thermN : PadDrive
  hbTx : PadDrive
  tdo : PadDrive
  clkreqN : PadDrive
  mgmt : PadDrive
  xspiClk : PadDrive
  xspiCsN : PadDrive
  xspiResetN : PadDrive
  xspiData : PadDrive
  deriving DecidableEq, Repr

/-- Through PORST_N low and the first three steps of a warm reset each stands as the table's first column gives; then as its second. -/
def systemPads (s : State) : SystemPads :=
  if s.power.line ≠ .none then
    { rstoutN := .low, faultOut := .high, thermN := .released, hbTx := .low, tdo := .highZ, clkreqN := .released, mgmt := .released,
      xspiClk := .low, xspiCsN := .high, xspiResetN := .low, xspiData := .highZ }
  else
    { rstoutN := padLevel (!s.power.rstoutLow), faultOut := padLevel (faultOut s), thermN := if thermLow s then .low else .released,
      hbTx := if hasPaired s then .block else .low, tdo := .block, clkreqN := .block, mgmt := .block,
      xspiClk := .block, xspiCsN := .block, xspiResetN := .block, xspiData := .block }

/-- A ball of banks 1 to 7: its block drives it while the bank is on; else it is pulled down (R450). -/
def bankPad (s : State) (b : Nat) : PadDrive := if s.power.line = .none && bankOn s b then .block else .pullDown

/-- GPIOn, which drives only while bank 3 has EN 1 and its bit of GPIODIR is 1 (R465). -/
def gpioPad (s : State) (n : Nat) : PadDrive :=
  if bankPad s 3 = .block then (if flagBit s PIN.GPIODIR n then padLevel (flagBit s PIN.GPIOOUT n) else .highZ) else .pullDown

/-- The pads of a memory channel: RESET_N, the CS_N balls, and every other output. -/
structure MemPads where
  resetN : PadDrive
  csN : PadDrive
  others : PadDrive
  deriving DecidableEq, Repr

/-- The memory pads hold SDRAM in self-refresh during a warm reset and while PD_MEM is OFF with SDRAM in self-refresh (R452);
before MEM.CTL.START, RESET_N is low (R450). -/
def memPads (s : State) : MemPads :=
  if s.power.line = .powerOn then ⟨.low, .highZ, .highZ⟩
  else if s.power.line = .warm ∨ (domState s 3 = 0 ∧ (flag s MEM.STAT_SELFREF ∨ s.memctl.left)) then
    (if s.memctl.left ∨ flag s MEM.STAT_SELFREF then ⟨.high, .selfRefresh, .highZ⟩ else ⟨.low, .highZ, .highZ⟩)
  else if getF s MEM.STAT_STATE = 0 ∧ ¬s.memctl.left then ⟨.low, .block, .block⟩
  else ⟨.block, .block, .block⟩

/-- The nominal swing of a lane's transmitter into 100 Ω with PRE and POST 0, in mV peak to peak differential (R458). -/
def txSwing (s : State) (l : Nat) : Nat := 500 + 40 * getF s LAN.TXEQ_AMP l

end Sys2Proof.Machine
end

