-- ==== Sys2Proof/Tests/Slice0.lean ====
section
/-!
SUPPORT. Tests: ill-formed commands that `Instr.wf` refuses, witnesses of the hypotheses of the statements, and single steps.
The theorem `wit_X` meets the hypotheses of `Statement.X` or `Obligations.X`. Where the names differ: `wit_BranchBothWays` is for
Branches, `wit_Events` for FencesAndWaits and WfeWakes, `wit_DataAt` for Loads, Stores and Atomics, `wit_AluResults` for every
statement on registers alone, `wit_RegisterWrites` also for ClearingReads, `wit_BootWrites` for Downloads, Fuses and DebugLock,
`wit_Hello` for TwinMessages, `wit_Segments` for PrintLines, `wit_Refetches` and `wit_SluiceJobs` for Sluice, `wit_BandEnds` for
BandLoads, `wit_WorkingTime` for TimeDomains, `wit_TimedInputs` for TimedPins, `wit_ChannelStates` for FeedbackChannels,
`wit_Sensors` for LoopCommands, and `wit_Invariants` for LocksKept, FramesKept and StepsAdvance.
-/

namespace Sys2Proof.Tests

open Sys2Proof Sys2Proof.Machine

set_option Elab.async false

/-! The states on which the tests run: the unit out of reset with PF0 enabled, and what each test adds to it. -/

/-- A state with fields of registers set: field, element, value. -/
def put (s : State) (l : List (Fld × Nat × Nat)) : State := l.foldl (fun s e => setF s e.1 e.2.2 e.2.1) s

/-- The unit out of reset: its profile confirmed, PF0 enabled, the banks of its pins on, its domains awake, and the counter at one second. -/
def up : State :=
  { put State.reset ([(GLB.PROFILE_STATE, 0, 1), (PCI.FNCTL_BME, 0, 1), (PCI.FNCTL_EN, 0, 1)] ++
      (upto 8).map (fun k => (PIN.BANKCFG_EN, k, 1)) ++ (upto 13).map (fun d => (PWR.DSTAT_STATE, d + 1, 2))) with
    frc := 1250000000, power := { PowerState.reset with xtal := true } }

/-- A core with a program of 64 instructions and values in g1 to g9. -/
def busy (pc : Word) : Core :=
  { Core.fresh with
    pc := pc, pbase := pc.toNat, plen := 256,
    g := [(1, 7), (2, 0x8000000000000000), (3, 0xFFFFFFFFFFFFFFFF), (4, 0x7F0002400010), (5, 0x800000000010), (6, 0x1000000000000),
      (7, 0x7F0002400013), (8, 0x3000), (9, 0x2000000)] }

/-- Thread 0 runs. -/
def onThread (s : State) : State := setCore (setF s CWY.TSTAT_STATE 1 0) 0 (busy 0x7F0002000000)

/-- reed12 runs. -/
def onReed (s : State) : State := setCore (setF s RDC.STAT_STATE 3 12) 28 (busy 0x7F0003180000)

/-- Thread 0 stalled. -/
def waitT (s : State) (w : Stall) : State := stallOn (onThread s) 0 w
/-- reed12 stalled. -/
def waitR (s : State) (w : Stall) : State := stallOn (onReed s) 28 w

/-- reed12 with an enabled event. -/
def evented (s : State) : State := setCore (onReed s) 28 { busy 0x7F0003180000 with event := 1, evmask := 1 }

/-- Thread 0 with its pc outside its program. -/
def lost (s : State) : State := setCore (onThread s) 0 { busy 0x7F0002000000 with pc := 0x7F0002000100, jumpFrom := 0x7F0002000010 }

/-- SDRAM trained, 512 GiB of it. -/
def sdramUp (s : State) : State := put s [(MEM.STAT_STATE, 0, 2), (MEM.CAP_GIB, 0, 512), (MEM.CHCFG_EN, 0, 1), (MEM.FREQ_BUSY, 0, 0)]

/-- Mire locked: 2 MiB of each region from 0, and USER from 0x2000000. -/
def mire (s : State) : State :=
  put (sdramUp s) ((SLC.MIRECTL_STATE, 0, 1) :: (upto 9).flatMap (fun k =>
    [(SLC.MIREBASE_BASE, k, if k = 8 then 16 else k), (SLC.MIRESIZE_SIZE, k, 1)]))

/-- An operation in flight of thread 0: tag 0, a COPY of 8 bytes from its data memory to SDRAM. -/
def copyOp : Op :=
  { pool := 0, index := 0, serial := 1, issuer := .thread 0, fn := 0, sub := 8, record := none, queue := 64, entry := 0, qseq := 0,
    ordinal := 0, hwin := 0, hostfn := 0, g0 := none,
    desc := toBytes 8 4 ++ toBytes 8 0x7F0002400010 ++ toBytes 8 0x2000000 ++ toBytes 8 8 }

/-- A state with operations in flight. -/
def withOps (s : State) (l : List Op) : State := { s with host := { s.host with ops := l, serials := [(0, 1)] } }

def exiting (s : State) : State := waitT s (.exit 5)
def exitBound (s : State) : State := setQueue (put (waitT s (.exit 5)) [(CWY.TSTAT_BOUND, 0, 1)]) 0
  { Queue.fresh with promised := 1, entry := some ⟨0, 256, 0, 9, 4, 0, [], 0, 0x7F0002000000, true, true, none⟩ }
def exitHeld (s : State) : State := put (exitBound s) [(PCI.FNCTL_BME, 0, 0)]
def faulted (s : State) : State := put (onThread s) [(CWY.TSTAT_STATE, 0, 2)]
def faultedOps (s : State) : State := withOps (put (exitBound s) [(CWY.TSTAT_STATE, 0, 2)]) [copyOp]
def unlocked (s : State) : State := put s [(SEC.DBGCTL_UNLOCKED, 0, 1)]
def halted (s : State) : State := put (onThread (unlocked s)) [(CWY.TSTAT_STATE, 0, 3), (CWY.DBGCTL_HALTED, 0, 1), (CWY.DBGSEL_REG, 0, 31)]
def haltedPc (s : State) : State := put (onReed (unlocked s)) [(RDC.STAT_STATE, 12, 5), (RDC.DBGCTL_HALTED, 12, 1), (RDC.DBGSEL_REG, 12, 32)]
def broken (s : State) : State := put (onThread (unlocked s)) [(CWY.DBGCTL_CATCH, 0, 1), (CWY.DBGBP_EN, 1, 1), (CWY.DBGBP_OFFSET, 1, 0)]
def printFrame : Frame :=
  { fsn := 1, group := 0, jobref := 3, tAccept := 0, tFirst := 0, tDisp := 0, pos := 0, crc64 := 0, lines := 4, linkback := 0, state := 3,
    released := false, degraded := false, reprint := false, reason := 0, g0 := some 10, stagings := [], mark := none, entered := [],
    openRows := 1, openSeqs := [], blank := false, stripes := [], flush := .none, flushDone := false, flushBad := false, met := false,
    record := [], mirrored := false, op := none, recorded := false, partnerHas := false, firingHeld := false }
def withFrame (s : State) (f : Frame) : State := { s with ledger := { s.ledger with frames := [(f.key, f)] } }
def haltBarred (s : State) : State := put (withFrame (unlocked s) printFrame) [(RDC.STAT_STATE, 8, 3)]
def timerOut (s : State) : State := setCore (onReed s) 28 { busy 0x7F0003180000 with timer := 5, timerFrc := 0 }
def loadingReed (s : State) : State := put { s with boot := { s.boot with loading := [(12, 2)] } } [(RDC.STAT_STATE, 12, 1)]
def posWait (s : State) : State := waitT s (.waitPos 1 5 0x100000000 (some 1250000000))
def timeWait (s : State) : State := waitT s (.waitTime 1 500)
def issued (s : State) : State := withOps (onThread s) [copyOp]
def resulted (s : State) : State :=
  let t := setCore (onThread s) 0 { busy 0x7F0002000000 with g := [(1, 0x20003), (2, 0x10003), (3, 0x10004), (4, 0x30000)] }
  { t with host := { t.host with serials := [(0, 2)], results := [(3, ⟨2, 0x77⟩)] } }
def ringed (s : State) : State := put (onThread s) [(PCI.EVCFG_EN, 0, 1)]
def evtThread (s : State) (code : Nat) : State := setCore (ringed s) 0 { busy 0x7F0002000000 with g := [(1, word code)] }
def noTags (s : State) : State := withOps (onReed s) ((upto 16).map (fun i => { copyOp with pool := 13, index := i, issuer := .reed 12 }))
def descState (s : State) (bs : List Byte) : State :=
  putBytes (setCore (onThread s) 0 { busy 0x7F0002000000 with g := [(1, 0x7F0002400020), (2, 0x7F0002400100)] }) 0x7F0002400020 bs

def mireT : State := onThread (mire up)
def mireR : State := onReed (mire up)
def hostT : State := waitT up (.hostLoad 1 0x800000000010 8 false)
def evtT : State := evtThread up 0x8001
def evtLow : State := evtThread up 5
def dopT : State := descState up (toBytes 8 0x101)
def evtR : State := setCore (ringed (onReed up)) 28 { busy 0x7F0003180000 with g := [(1, 0x8001)] }
def waitAllT : State := withOps (waitT up (.waitAll 1)) [copyOp]
def copying : State := withOps (putBytes (mire up) 0x7F0002400010 [1, 2, 3, 4, 5, 6, 7, 8]) [copyOp]
def fencing : State := let s := onThread up; setCore s 0 { coreOf s 0 with stored := true }
def reedDbg : State := setCore (onReed (unlocked up)) 28 { busy 0x7F0003180000 with stepping := true }

def wfeEvent : State := stallOn (evented up) 28 (.wfe none)
def wfeCount : State := waitR up (.wfe (some 1250000000))

/-! Witnesses: states and operands that meet the hypotheses of the statements. Brofer. -/

theorem wit_Executes : Executes (onThread up) (.thread 0) ∧ Executes (onReed up) (.reed 12) ∧ Executes reedDbg (.reed 12) := by
  simp only [Executes]; decide +kernel

theorem wit_BranchBothWays : Executes (onThread up) (.thread 0) ∧ readG (onThread up) 0 1 ≠ readG (onThread up) 0 2 ∧
    (readG (onThread up) 0 2).toInt < (readG (onThread up) 0 1).toInt ∧ (readG (onThread up) 0 4).toNat % 4 = 0 ∧
    (readG (onThread up) 0 3).toNat % 4 ≠ 0 := by
  simp only [Executes]; decide +kernel

theorem wit_Events : Executes (evented up) (.reed 12) ∧
    (coreOf (evented up) 28).event.zeroExtend 64 &&& (coreOf (evented up) 28).evmask ≠ 0 ∧
    Executes (onReed up) (.reed 12) ∧ (coreOf (onReed up) 28).event.zeroExtend 64 &&& (coreOf (onReed up) 28).evmask = 0 ∧
    readG (onReed up) 28 10 = 0 ∧ readG (onReed up) 28 1 ≠ 0 := by
  simp only [Executes]; decide +kernel

theorem wit_WfeWakes : stands wfeEvent pllControl = false ∧ running wfeEvent 28 = true ∧ (coreOf wfeEvent 28).stall = .wfe none ∧
    (coreOf wfeEvent 28).event.zeroExtend 64 &&& (coreOf wfeEvent 28).evmask ≠ 0 ∧
    running wfeCount 28 = true ∧ (coreOf wfeCount 28).stall = .wfe (some 1250000000) ∧ 1250000000 ≤ wfeCount.frc := by decide +kernel

theorem wit_FetchFault : stands (lost up) pllControl = false ∧ ready (lost up) 0 = true ∧
    inProgram (coreOf (lost up) 0) (coreOf (lost up) 0).pc = false := by decide +kernel

theorem wit_DataAt : DataAt (onThread up) 0 (readG (onThread up) 0 4).toNat 8 0x7F0002400010 ∧
    DataAt mireT 0 (readG mireT 0 9).toNat 8 0x2000000 ∧ regionOf mireT 0x2000000 = some 8 ∧
    DataAt (onReed up) 28 0x7F0007FF0008 4 0x7F0003190008 := by
  simp only [DataAt]; decide +kernel

theorem wit_AccessFaults : 2 ^ 48 ≤ (readG (onThread up) 0 6).toNat ∧ (readG (onThread up) 0 7).toNat < 2 ^ 48 ∧
    (readG (onThread up) 0 7).toNat % 8 ≠ 0 ∧ (readG (onThread up) 0 7).toNat % 4 ≠ 0 ∧ (readG (onThread up) 0 5).toNat % 8 = 0 ∧
    resolveAlias 0 (readG (onThread up) 0 5).toNat = some 0x800000000010 ∧ spaceOf (onThread up) 0x800000000010 = .host := by
  decide +kernel

theorem wit_HostLoads : Executes (onThread up) (.thread 0) ∧ (readG (onThread up) 0 5).toNat = 0x800000000010 ∧
    fnDisabled (onThread up) (hostFn (onThread up) 0) = false ∧ stands hostT pllPcie = false ∧ running hostT 0 = true ∧
    fnDisabled hostT (hostFn hostT 0) = false ∧ (coreOf hostT 0).stall = .hostLoad 1 0x800000000010 8 false ∧ ReadOwner.load (.thread 0) ∉ hostT.host.stale := by
  simp only [Executes]; decide +kernel

theorem wit_Exits : stands (exiting up) pllControl = false ∧ running (exiting up) 0 = true ∧ (coreOf (exiting up) 0).stall = .exit 5 ∧
    opsOf (exiting up) 0 = [] ∧ getF (exiting up) CWY.TSTAT_BOUND 0 = 0 ∧ running (exitBound up) 0 = true ∧
    getF (exitBound up) CWY.TSTAT_BOUND 0 = 1 ∧ opsOf (exitBound up) 0 = [] ∧ running (waitR up (.exit 5)) 28 = true ∧
    fnDisabled (exitBound up) (hostFn (exitBound up) 0) = false ∧ fnDisabled (exitHeld up) (hostFn (exitHeld up) 0) = true ∧
    running (exitHeld up) 0 = true ∧ (queueOf (exitHeld up) (getF (exitHeld up) CWY.TSTAT_QUEUE 0)).entry.any (fun e => e.ended == none) = true := by decide +kernel

theorem wit_ThreadClears : stands (faulted up) pllControl = false ∧ getF (faulted up) CWY.TSTAT_STATE 0 = 2 ∧
    getF (faulted up) CWY.TSTAT_BOUND 0 = 0 ∧ getF (faultedOps up) CWY.TSTAT_STATE 0 = 2 ∧ getF (faultedOps up) CWY.TSTAT_BOUND 0 = 1 ∧
    opsOf (faultedOps up) 0 ≠ [] ∧ (queueOf (faultedOps up) (getF (faultedOps up) CWY.TSTAT_QUEUE 0)).entry ≠ none := by decide +kernel

theorem wit_Debug : debugUnlocked up = false ∧ debugUnlocked (onThread (unlocked up)) = true ∧
    haltRefused (onThread (unlocked up)) 0 = false ∧ running (onThread (unlocked up)) 0 = true ∧
    debugUnlocked (haltBarred up) = true ∧ haltRefused (haltBarred up) 24 = true ∧
    coreState (halted up) 0 = stDebug 0 ∧ debugSel (halted up) 0 = 31 ∧ debugUnlocked (halted up) = true ∧
    coreState (haltedPc up) 28 = stDebug 28 ∧ debugSel (haltedPc up) 28 = 32 ∧
    ready (broken up) 0 = true ∧ catches (broken up) 0 = true ∧ (coreOf (broken up) 0).bpSkip = false ∧
    inProgram (coreOf (broken up) 0) (coreOf (broken up) 0).pc = true ∧ atBreakpoint (broken up) 0 = true := by decide +kernel

theorem wit_ReedEvents : (coreOf (timerOut up) 28).timer ≠ 0 ∧ timerNow (timerOut up) (coreOf (timerOut up) 28) = 0 ∧
    getF (onReed up) RDC.STAT_STATE 12 = 3 ∧ stands (timerOut up) pllControl = false := by decide +kernel

theorem wit_ImageLoads : HostWrites up 0 (RDC.CTL_LOAD.off 12) ∧ getF up RDC.STAT_STATE 12 ∉ [1, 3, 5] ∧
    HostWrites (onReed up) 0 (RDC.CTL_LOAD.off 12) ∧ getF (onReed up) RDC.STAT_STATE 12 ∈ [1, 3, 5] ∧
    stands (loadingReed up) pllControl = false ∧ mfind (loadingReed up).boot.loading 12 = some 2 ∧ reedDown (loadingReed up) 12 = false ∧ bulkRoom (loadingReed up) 0 ≠ 0 := by
  simp only [HostWrites]; decide +kernel

theorem wit_ImageReads : (readContainer (loadingReed up) (getP (loadingReed up) RDC.IMG 12) .failed).1 = .waits ∧
    (readContainer (put (loadingReed (sdramUp up)) []) (getP (loadingReed up) RDC.IMG 12) .failed).1 ≠ .waits := by decide +kernel

theorem wit_Waits : (readG (onThread up) 0 1).toNat ≤ workNs (onThread up) ∧ workNs (onThread up) < (readG (onThread up) 0 2).toNat ∧
    bits (readG (onThread up) 0 1).toNat 6 26 = 0 ∧ (posReturn (onThread up) 5 (readG (onThread up) 0 1) true).isSome = true ∧
    (readG (onThread up) 0 1).getLsbD 4 = false ∧ (coreOf (onThread up) 0).stored = false := by decide +kernel

theorem wit_WaitsEnd : running (timeWait up) 0 = true ∧ (coreOf (timeWait up) 0).stall = .waitTime 1 500 ∧ 500 ≤ workNs (timeWait up) ∧
    running (posWait up) 0 = true ∧ (coreOf (posWait up) 0).stall = .waitPos 1 5 0x100000000 (some 1250000000) ∧ 1250000000 ≤ (posWait up).frc := by decide +kernel

theorem wit_TagWaits : opsOf (onThread up) 0 = [] ∧ opsOf (issued up) 0 ≠ [] ∧ readG (onThread up) 0 10 = 0 ∧
    (readG (resulted up) 0 1).toNat / 65536 ≤ mget (resulted up).host.serials 0 0 ∧
    mfind (resulted up).host.results 3 = some ⟨2, 0x77⟩ ∧ (readG (resulted up) 0 1).toNat / 65536 = 2 ∧
    (readG (resulted up) 0 2).toNat / 65536 < 2 ∧ mfind (resulted up).host.results 4 = none ∧
    mget (resulted up).host.serials 0 0 < (readG (resulted up) 0 4).toNat / 65536 := by decide +kernel

theorem wit_ProgramEvents : Executes evtT (.thread 0) ∧ (readG evtT 0 1).toNat = 0x8001 ∧ fnDisabled evtT (hostFn evtT 0) = false ∧
    (fnOf evtT 0).lost = 0 ∧ evRoom evtT 0 = true ∧ Executes evtLow (.thread 0) ∧ (readG evtLow 0 1).toNat < 0x8000 ∧
    Executes evtR (.reed 12) ∧ (readG evtR 28 1).toNat / 2 ^ 16 = 0 := by
  simp only [Executes]; decide +kernel

theorem wit_IssueLimits : Executes (onReed up) (.reed 12) ∧ (readG (onThread up) 0 7).toNat % 8 ≠ 0 ∧ Executes (noTags up) (.reed 12) ∧
    freeTags (noTags up) 28 = [] ∧ (readG (noTags up) 28 8).toNat % 8 = 0 ∧ takeTag (noTags up) 28 = none ∧ (coreOf (noTags up) 28).stored = false ∧
    Executes fencing (.thread 0) ∧ (coreOf fencing 0).stored = true ∧ fnDisabled fencing (hostFn fencing 0) = false := by
  simp only [Executes]; decide +kernel

theorem wit_CopyEnds : stands copying pllControl = false ∧ opOf copying 0 = some copyOp ∧ field copyOp.desc 0 1 = 4 ∧
    (engineRead copying 0 0 (copyOp.addr (field copyOp.desc 8 8)) (field copyOp.desc 24 4) .failed).1 = .bytes [1, 2, 3, 4, 5, 6, 7, 8] ∧
    spaceOf copying (copyOp.addr (field copyOp.desc 16 8)) = .sdram ∧ LedgersIdle copying ∧ copyOp.record = none ∧
    partlyPoisoned copying (copyOp.addr (field copyOp.desc 16 8)) 8 = false := by
  simp only [LedgersIdle]; decide +kernel

/-- The state in which thread 0 issues an operation whose descriptor is given. -/
def issuing (bs : List Byte) : State := descState up bs

theorem wit_TaggedOperations : Executes (issuing (toBytes 8 0)) (.thread 0) ∧ (readG (issuing []) 0 1).toNat % 8 = 0 ∧
    resolveAlias 0 (readG (issuing []) 0 1).toNat = some 0x7F0002400020 ∧ recordOpen (issuing []) 0x7F0002400100 = true ∧
    resolveAlias 0 (readG (issuing []) 0 2).toNat = some 0x7F0002400100 ∧ takeTag (issuing []) 0 = some 0 ∧ (coreOf (issuing []) 0).stored = false := by
  simp only [Executes]; decide +kernel

theorem wit_TaggedFits : [1, 2, 3, 4, 9, 10, 11, 12, 13, 14, 15].all (fun sub =>
      (readDesc (issuing []) 0 sub 0x7F0002400020 .failed).1 == .bytes (List.replicate (descSize sub []) 0)) = true ∧
    [1, 2, 3, 4, 5].all (fun k => match (readDesc (issuing (toBytes 8 k)) 0 8 0x7F0002400020 .failed).1 with
      | .bytes d => field d 0 1 == k | _ => false) = true := by decide +kernel

/-! The statements about instructions assume that their core executes; these are their further hypotheses. -/

/-- `Statement.AluResults`, `BitCounts`, `ImmediateResults`, `StatusResults`, `SpecialReads` and `SpecialWrites` assume no more. -/
theorem wit_AluResults : Executes (onThread up) (.thread 0) ∧ Executes (onReed up) (.reed 12) := by
  simp only [Executes]; decide +kernel

theorem wit_SpecialRegisterRules : Executes (onThread up) (.thread 0) ∧ Statement.srReserved (.thread 0) 63 = true ∧
    Statement.srReadOnly (.thread 0) 1 = true ∧ Statement.srReserved (.thread 0) 0 = false ∧ Statement.srReadOnly (.thread 0) 0 = false ∧
    Executes (onReed up) (.reed 12) := by
  simp only [Executes]; decide +kernel

theorem wit_Jumps : Executes (onThread up) (.thread 0) ∧ (readG (onThread up) 0 4).toNat % 4 = 0 := by
  simp only [Executes]; decide +kernel

theorem wit_FencesAndWaits : Executes (evented up) (.reed 12) ∧ (1 : BitVec 6) ≠ 0 ∧ (1 : BitVec 6).getLsbD 4 = false ∧
    (16 : BitVec 6).getLsbD 4 = true ∧ fnDisabled (evented up) (hostFn (evented up) 28) = false ∧
    (coreOf (evented up) 28).event.zeroExtend 64 &&& (coreOf (evented up) 28).evmask ≠ 0 ∧ Executes (onReed up) (.reed 12) ∧
    (coreOf (onReed up) 28).event.zeroExtend 64 &&& (coreOf (onReed up) 28).evmask = 0 := by
  simp only [Executes]; decide +kernel

theorem wit_FaultingInstructions : Executes (onThread up) (.thread 0) ∧ (readG (onThread up) 0 3).toNat % 4 ≠ 0 := by
  simp only [Executes]; decide +kernel

/-- Loads, stores and atomic operations: data in the thread's own memory and in SDRAM. -/
theorem wit_Loads : Executes mireT (.thread 0) ∧ DataAt mireT 0 (readG mireT 0 9).toNat 8 0x2000000 ∧
    DataAt mireT 0 (readG mireT 0 4).toNat 1 0x7F0002400010 := by
  simp only [Executes, DataAt]; decide +kernel

theorem wit_UnsupportedRequests : stands up pllPcie = false ∧ ¬ (6 % 4 = 0 ∧ 4 = 4) ∧ ¬ (0x100 % 4 = 0 ∧ 8 = 4) ∧
    msixAt 0 0x100 = none ∧ (msixAt 0 (msixBase 0)).isSome = true ∧ ¬ (4 % 8 = 0 ∧ 8 = 8) := by decide +kernel

def asleepFn : State := setFn up 0 { fnOf up 0 with d3 := true }
def snapped1 : State := { up with snaps := [(pairKey 0 (TIM.FRC.base + 4), 7)] }
def errs : State := put up [(THM.ERR_THRESH, 0, 1), (THM.ERR_RETIRE_REF, 0, 1)]
def counted : State := put up [(LAN.LOCKCNT, 3, 5), (PWR.WAKECNT, 1, 2), (MEM.CECNT, 0, 3)]
def staged : State := { up with stage := [(pairKey 0 SEC.DLADDR.base, 0x1234)] }
def unconfirmed : State := put up [(GLB.PROFILE_STATE, 0, 0)]
def unconfirmed1 : State := put unconfirmed [(GLB.PROFILE_STRAP, 0, 1)]
def brokenSensor : State := put up [(THM.TEMP_BROKEN, 5, 1)]
def keyOf1 : KeyHash := toBytes 48 1
def fusing : State := put { up with boot := { up.boot with fuse := some ⟨false, 1, true, keyOf1⟩ } } [(SEC.FUSECTL_BUSY, 0, 1)]
def revoking : State := put { up with boot := { up.boot with fuse := some ⟨true, 0, false, keyOf1⟩ } } [(SEC.FUSECTL_BUSY, 0, 1), (SEC.KEYSTAT_PROG, 0, 1)]
def busyBlocks : State := put up [(MER.CAMCFG_EN, 0, 1), (ETH.PCFG_EN, 0, 1), (DLK.HUBCTL_EN, 0, 1)]
def waitingHost : State := { up with boot := { up.boot with stage := .hostIdle } }
def keyed : State := put up [(SEC.KEYSTAT_PROG, 0, 1), (SEC.KEYSTAT_PROG, 1, 1)]
def challenged : State := { up with boot := { up.boot with challenged := true, fails := 2 } }

def memSet : State := put up [(MEM.CHCFG_EN, 0, 1), (MEM.CHCFG_RANKS, 0, 1), (MEM.SET_CHMASK, 0, 1)]
def training : State := put { memSet with memctl := { memSet.memctl with training := some 1 } } [(MEM.STAT_STATE, 0, 1), (MEM.TRSTAT_STEP, 0, 1)]
def trained : State := put memSet [(MEM.STAT_STATE, 0, 2), (MEM.TRSTAT_SPVALID, 0, 3), (MEM.CAP_GIB, 0, 32), (MEM.PWRCFG_IDLE, 0, 5), (MEM.SCRUB_EN, 0, 1)]
def changing : State := put { trained with memctl := { trained.memctl with change := some 1 } } [(MEM.FREQ_BUSY, 0, 1)]
def asleep : State := put trained [(MEM.STAT_SELFREF, 0, 1)]
def migrate : State := put trained [(MEM.RANKSTAT_RS0, 0, 2), (MEM.RANKSTAT_RS1, 0, 1), (MEM.CHCFG_SPARE, 0, 1)]
def migrated : State := put migrate [(MEM.MIGPTR, 0, 16 * 2 ^ 18)]

def laneOn (l : Nat) (s : State) : State := put s [(LAN.QCFG_EN, l / 4, 1), (LAN.QSTAT_PLLLOCK, l / 4, 1), (LAN.LCFG_EN, l, 1), (LAN.LSTAT_TXST, l, 0), (LAN.LSTAT_RXST, l, 0)]
def lane33 : State := laneOn 33 up
def lane33Stage (n : Nat) : State := put lane33 [(LAN.RXSTAT_STAGE, 33, n), (LAN.RXCFG_ADAPT, 33, 1)]
def lane33S1 : State := lane33Stage 1
def lane33S5 : State := lane33Stage 5
def lane33Locked : State := put lane33 [(LAN.LSTAT_LOCK, 33, 1), (LAN.LSTAT_SIGDET, 33, 1), (LAN.LCFG_TEST, 33, 1), (LAN.EYECTL_BUSY, 33, 1), (LAN.PRBSCFG_SYNC, 33, 1)]
def lane33Prbs : State := put lane33 [(LAN.LCFG_TEST, 33, 1)]
def lane33Asleep : State := put lane33 [(MER.CAMCFG_EN, 0, 1), (MER.CAMCFG_NCONN, 0, 2), (LAN.LSTAT_TXST, 33, 1), (LAN.LSTAT_RXST, 33, 3)]
def lane4Asleep : State := put (laneOn 4 up) [(LAN.LSTAT_TXST, 4, 1), (LAN.LSTAT_RXST, 4, 1), (LAN.PWR_TXMIN, 4, 2)]
def lane4Awake : State := put (laneOn 4 up) [(LAN.PWR_TXMIN, 4, 2)]
def quadOff : State := put up [(LAN.QRATE_NINT, 0, 80)]
def quadOn : State := put quadOff [(LAN.QCFG_EN, 0, 1), (LAN.QSTAT_PLLLOCK, 0, 1), (LAN.QCFG_EN, 8, 1)]
def quadChange : State := put quadOn [(LAN.QSTAT_CHANGING, 0, 1), (LAN.QSTAT_PLLLOCK, 0, 0)]

/-! Register accesses, memory and lanes. -/

/-- The registers of one kind each: RW, RWL whose owner runs and one whose owner is stopped, RO, W1C, RC, and the two halves of a pair. -/
theorem wit_RegisterWrites : stands up pllPcie = false ∧ (2 % 4 ≠ 0) ∧ (fnOf asleepFn 0).d3 = true ∧ hostBlind waitingHost 0 THM.ERR.base = true ∧
    msixAt 0 0x1F0 = none ∧ viewHome up 0 0x1F0 = some (0x1F0, true) ∧ regAt up 0x1F0 = none ∧ msixAt 0 (msixBase 0 + 8) = some 8 ∧
    [PWR.WAKEGPIO.base, THM.ERR.base, GLB.ID.base, MEM.CHCFG.off 3].all (fun o => viewHome up 0 o == some (o, true) && msixAt 0 o == none &&
      !Statement.actsOnWrite o && (regAt up o).any (fun d => d.half == .whole && !rwlBarred d (fieldFree up d o 5) (regRaw up o).toNat 5)) = true ∧
    (regAt (sdramUp up) (MEM.CHCFG.off 0)).any (fun d => d.half == .whole &&
      rwlBarred d (fieldFree (sdramUp up) d (MEM.CHCFG.off 0) 4) (regRaw (sdramUp up) (MEM.CHCFG.off 0)).toNat 4) = true ∧
    Statement.actsOnWrite (MEM.CHCFG.off 0) = false := by decide +kernel

theorem wit_RegisterPairs : [SEC.DLADDR.base, PCI.SQBASE.base].all (fun o => viewHome staged 0 o == some (o, true) && msixAt 0 o == none &&
      !Statement.actsOnWrite o && (regAt staged o).any (fun d => d.half == .lo) && !Statement.actsOnWrite (o + 4) &&
      (regAt staged (o + 4)).any (fun d => d.half == .hi && (d.fields.any (fun fd => fd.access == .rw || fd.access == .rws) ||
        (d.fields.any (fun fd => fd.access == .rwl) && ownerStopped staged d.owner (d.index (o + 4))))) && (findReg o).isSome) = true ∧
    (regAt up (TIM.FRC.base + 4)).any (fun d => d.half == .hi && d.fields.all (fun fd => fd.access == .ro)) = true := by decide +kernel

theorem wit_RegisterReads : stands counted pllPcie = false ∧
    [PWR.WAKECNT.off 1, LAN.LOCKCNT.off 47, MEM.CECNT.off 15, GLB.ID.base].all (fun o => viewHome counted 0 o == some (o, true) &&
      msixAt 0 o == none && (regAt counted o).any (fun d => d.half == .whole && !snapped d)) = true ∧
    (regAt counted TIM.FRC.base).any (fun d => d.half == .lo) = true ∧
    (mfind snapped1.snaps (pairKey 0 (TIM.FRC.base + 4))) = some 7 ∧ (regAt snapped1 (TIM.FRC.base + 4)).any (fun d => d.half == .hi) = true ∧
    (fnOf asleepFn 0).d3 = true ∧ hostBlind waitingHost 0 THM.ERR.base = true ∧ TIM.FRC.base ≠ GLB.PROFILE.base := by decide +kernel

theorem wit_ProfileConfirms : HostWrites unconfirmed 0 GLB.PROFILE.base ∧ unconfirmed.power.deferred = [] ∧
    getF unconfirmed GLB.PROFILE_STATE = 0 ∧ bits 0xA50000 16 8 = 0xA5 ∧ bits 0xA50000 8 1 = getF unconfirmed GLB.PROFILE_STRAP ∧
    bits 0xA50100 8 1 ≠ getF unconfirmed GLB.PROFILE_STRAP ∧ bits 0xA50100 8 1 = getF unconfirmed1 GLB.PROFILE_STRAP ∧
    (735 ≤ 775 ∧ 775 ≤ 775) ∧ (805 ≤ 845 ∧ 845 ≤ 845) ∧ getF unconfirmed GLB.PROFILE_STRAP = 0 ∧ bits 0xA40000 16 8 ≠ 0xA5 := by
  simp only [HostWrites]; decide +kernel

theorem wit_ThermalWrites : HostWrites up 0 THM.THRESH_WARN.base ∧ bits 0x7A6450 0 8 < bits 0x7A6450 8 8 ∧
    bits 0x7A6450 8 8 < bits 0x7A6450 16 8 ∧ bits 0x7A6450 16 8 = 122 ∧ ¬ bits 0x7B6450 16 8 ≤ 122 ∧
    HostWrites brokenSensor 0 THM.RETIRE_MASK.base ∧ sensorRetired brokenSensor 5 = false ∧ sensorBroken brokenSensor 5 = true ∧
    sensorRetired brokenSensor (mate 5) = false ∧ sensorBroken brokenSensor (mate 5) = false ∧ sensorBroken brokenSensor 4 = false := by
  simp only [HostWrites]; decide +kernel

theorem wit_ResetWrites : HostWrites up 0 GLB.RST.base ∧ (0x5A01 : Reg32).getLsbD 0 = true ∧ bits 0x5A01 8 8 = 0x5A ∧ warmHeld up = false ∧
    HostWrites fusing 0 GLB.RST.base ∧ warmHeld fusing = true ∧ fusing.power.heldReset = none := by
  simp only [HostWrites]; decide +kernel

theorem wit_BlockResets : HostWrites up 0 GLB.BRST.base ∧ blockIdle up 0 = true ∧ blockIdle up 1 = true ∧ blockIdle up 5 = true ∧
    HostWrites busyBlocks 0 GLB.BRST.base ∧ blockIdle busyBlocks 0 = false ∧ blockIdle busyBlocks 1 = false ∧
    blockIdle busyBlocks 5 = false := by
  simp only [HostWrites]; decide +kernel

theorem wit_BootWrites : HostWrites waitingHost 0 SEC.DLCTL_GO.base ∧ waitingHost.boot.stage = .hostIdle ∧ HostWrites up 0 SEC.DLCTL_GO.base ∧
    up.boot.stage ≠ .hostIdle ∧ HostWrites keyed 0 SEC.FUSECTL_OP.base ∧ bits 0xC309 0 2 = 1 ∧ bits 0xC309 8 8 = 0xC3 ∧
    slotHeld keyed (bits 0xC309 2 2) = false ∧ slotHeld keyed 0 = true ∧ flag keyed SEC.FUSECTL_BUSY = false ∧ bits 0xC302 0 2 = 2 ∧
    slotHeld keyed 1 = true ∧ flag keyed SEC.KEYSTAT_REVOKED 1 = false ∧ slotHeld up 1 = false ∧
    HostWrites challenged 0 SEC.DBGCTL_CHAL.base ∧ challenged.boot.challenged = true ∧ flag challenged SEC.DBGCTL_LOCKOUT = false ∧
    2 ≤ challenged.boot.fails := by
  simp only [HostWrites]; decide +kernel

theorem wit_MemoryStarts : HostWrites memSet 0 MEM.CTL_START.base ∧ getF memSet MEM.STAT_STATE = 0 ∧ memCheck memSet = 0 ∧ memCheck up ≠ 0 ∧
    HostWrites trained 0 MEM.FREQ_REQ.base ∧ getF trained MEM.STAT_STATE = 2 ∧ trained.memctl.change = none ∧
    getF trained MEM.FREQ_CUR ≠ 1 ∧ spTrained trained 1 = true ∧ changing.memctl.change.isSome = true ∧
    changing.memctl.training ≠ some 2 := by
  simp only [HostWrites]; decide +kernel

theorem wit_MemoryTrains : stands training pllMemory = false ∧ getF training MEM.STAT_STATE = 1 ∧ training.memctl.next = none ∧
    (fitted training).head? = some 0 ∧ getF training MEM.TRSTAT_STEP 0 = 1 ∧ training.memctl.training = some 1 ∧ LedgersIdle training ∧
    chanOn training 0 = true ∧ 0 < chanRanks training 0 ∧ spareOf training 0 = none ∧ stands changing pllMemory = false ∧ changing.memctl.change = some 1 ∧ changing.memctl.next = none := by
  simp only [LedgersIdle]; decide +kernel

theorem wit_MemoryUpkeep : stands trained pllMemory = false ∧ chanOn trained 0 = true ∧ 1 < chanRanks trained 0 ∧
    getF trained MEM.STAT_STATE = 2 ∧ flag trained MEM.STAT_SELFREF = false ∧ memUp trained = true ∧
    flag trained MEM.SCRUB_EN = true ∧ getF trained MEM.CFG_CETHR = 0 ∧ getF trained THM.ZSTAT_LEVEL 2 < 2 ∧ getF trained MEM.PWRCFG_IDLE ≠ 0 ∧
    trained.memctl.lastAccess + 1250 * getF trained MEM.PWRCFG_IDLE ≤ trained.frc ∧
    (∀ m < 4, migrating trained m = false) := by decide +kernel

theorem wit_Migration : stands migrate pllMemory = false ∧ migrating migrate 0 = true ∧ memUp migrate = true ∧
    getF migrate MEM.MIGPTR 0 < rankGib migrate 0 * 2 ^ 18 ∧ (upto 4).find? (fun i => rankStat migrated 0 i == 2) = some 0 ∧
    spareOf migrated 0 = some 1 ∧ rankGib migrated 0 * 2 ^ 18 ≤ getF migrated MEM.MIGPTR 0 := by decide +kernel

theorem wit_LaneEnables : HostWrites unconfirmed 0 (LAN.LCFG_EN.off 0) ∧ flag unconfirmed LAN.LCFG_EN 0 = false ∧
    domainHeld unconfirmed (laneDomain 0) = true ∧ HostWrites up 0 (LAN.LCFG_EN.off 47) ∧ domainHeld up (laneDomain 47) = false ∧
    flag up LAN.QCFG_EN (47 / 4) = false ∧ HostWrites lane33 0 (LAN.LCFG_EN.off 33) ∧ flag lane33 LAN.LCFG_EN 33 = true ∧
    HostWrites quadOff 0 (LAN.QCFG_EN.off 0) ∧ flag quadOff LAN.QCFG_EN 0 = false ∧ rateLegal (getF quadOff LAN.QRATE 0) = true ∧
    rateLegal (getF (put quadOff [(LAN.QRATE, 0, 1)]) LAN.QRATE 0) = false := by
  simp only [HostWrites]; decide +kernel

theorem wit_QuadRates : HostWrites quadOff 0 (LAN.QRATE.off 0) ∧ HostWrites quadOn 0 (LAN.QRATE.off 0) ∧ flag quadOn LAN.QCFG_EN 0 = true ∧
    rateLegal 1 = false ∧ rateLegal 80 = true ∧ rateLegal 81 = true ∧ flag quadOn LAN.QSTAT_CHANGING 0 = false ∧ (quadOf quadOn 0).waits = [] ∧
    regRaw quadOn (LAN.QRATE.off 0) ≠ 81 ∧ (∀ l ∈ quadLanes 0, getF quadOn LAN.RXSTAT_STAGE l = 0 ∧ flag quadOn LAN.LSTAT_LOCK l = false) ∧
    stands quadChange pllLanes = false ∧ flag quadChange LAN.QSTAT_CHANGING 0 = true ∧ (quadOf quadChange 0).want = none := by
  simp only [HostWrites]; decide +kernel

theorem wit_LaneTraining : stands lane33 pllLanes = false ∧ getF lane33S1 LAN.RXSTAT_STAGE 33 = 1 ∧ (quadOf lane33S1 8).waits = [] ∧
    getF lane33S5 LAN.RXSTAT_STAGE 33 = 5 ∧ rxActive lane33 33 = true ∧ flag lane33 LAN.LSTAT_LOCK 33 = false ∧
    flag lane33 LAN.QSTAT_CHANGING 8 = false ∧ flag lane33 LAN.LSTAT_SIGDET 33 = false ∧ isCamLane lane33 33 = true ∧
    flag lane33Locked LAN.LSTAT_LOCK 33 = true := by decide +kernel

theorem wit_LaneChecks : rxActive lane33S1 33 = true ∧ getF lane33S1 LAN.RXCFG_ADAPT 33 ≠ 0 ∧ flag lane33Locked LAN.EYECTL_BUSY 33 = true ∧
    getF lane33Locked LAN.LCFG_TEST 33 = 1 ∧ checksRefused lane33Locked = false ∧ getF lane33Locked LAN.PRBSCFG_SYNC 33 = 1 ∧
    getF lane33Prbs LAN.LCFG_TEST 33 = 1 ∧ getF lane33Prbs LAN.PRBSCFG_SYNC 33 = 0 ∧ HostWrites up 0 (LAN.EYECTL_GO.off 33) ∧
    HostWrites up 0 (LAN.PRBSCFG_CLR.off 33) := by
  simp only [HostWrites]; decide +kernel

theorem wit_LaneSleep : flag lane4Awake LAN.LCFG_EN 4 = true ∧ 2 ≤ Nat.min 2 (getF lane4Awake LAN.PWR_TXMIN 4) ∧
    getF lane4Awake LAN.LSTAT_TXST 4 = 0 ∧ getF lane4Asleep LAN.LSTAT_TXST 4 = 1 ∧ isDeadLane lane4Asleep 4 = false ∧
    isCamLane lane4Asleep 4 = false ∧ getF lane4Asleep LAN.LSTAT_RXST 4 = 1 ∧ getF lane33Asleep LAN.LSTAT_RXST 33 = 3 ∧
    isDeadLane lane33Asleep 33 = false := by decide +kernel

theorem wit_LaneLock : stands lane33S5 pllLanes = false ∧ isCamLane lane33S5 33 = true ∧ rxActive lane33S5 33 = true ∧
    flag lane33S5 LAN.LSTAT_LOCK 33 = false ∧ flag lane33S5 LAN.QSTAT_CHANGING (33 / 4) = false ∧ getF lane33S5 LAN.RXSTAT_STAGE 33 = 5 ∧
    isCamLane lane33Locked 33 = true ∧ flag lane33Locked LAN.LSTAT_LOCK 33 = true := by decide +kernel

theorem wit_PcieLink : stands hostT pllPcie = false ∧ running hostT 0 = true ∧ fnDisabled hostT (hostFn hostT 0) = false ∧
    (coreOf hostT 0).stall = .hostLoad 1 0x800000000010 8 false ∧ ReadOwner.load (.thread 0) ∉ hostT.host.stale := by
  decide +kernel

def dom (d v : Nat) : State := put up [(PWR.DSTAT_STATE, d, v)]
def domOff : State := dom 7 0
def domOn : State := dom 7 2
def domGated : State := dom 7 3
def domForced : State := put domGated [(PWR.DOM_FORCEON, 7, 1)]
def domEntering : State := put up [(PWR.DSTAT_STATE, 7, 0), (PWR.DSTAT_STATE, 8, 0), (PWR.DSTAT_STATE, 10, 4)]
def domKept : State := put domEntering [(PWR.DOM_FORCEON, 10, 1)]
def domRetains : State := put domEntering [(PWR.DOM_RETEN, 10, 1)]
def domWaking : State := put (dom 7 1) [(PWR.DSTAT_STATE, 1, 2)]
def domRetained : State := dom 10 5
def sleepy : State := put { State.reset with frc := 1250000000, power := { PowerState.reset with xtal := true } } [(PWR.CFG_DEEPEN, 0, 1)]
def deepAsleep : State := put { up with power := { up.power with deep := some 1000 } } [(PWR.WAKESRC, 0, 0x3F), (PWR.SLEEPTMR, 0, 5)]
def stoppedClock : State := { up with time := { up.time with stopped := true } }
def hotZone : State := { up with power := { up.power with zones := [(3, ⟨[(2, 0)], [], none⟩)] } }
def coolZone : State := put { up with power := { up.power with zones := [(3, ⟨[], [(2, 0)], none⟩)] } } [(THM.ZSTAT_LEVEL, 3, 2), (THM.ZSTAT_GRACE, 3, 1)]
def tripZone : State := { up with power := { up.power with zones := [(11, ⟨[], [], some 0⟩)] } }
def inReset : State := { up with power := { up.power with line := .powerOn } }
def gpioOn : State := put up [(PIN.BANKCFG_EN, 3, 1)]

/-- A boot container with one zeroed segment of 16 bytes, signed by a key made for this test, and the hash of that key. -/
def container : List Byte :=
  beList 48 0x434D4F530100020000000000FF0000000100000000000000F00000000000000000000000100000000000000001000000 ++
  beList 48 0xFBF96095915EB587390F850EC95B35F618AE121C72A70808AD8F9F4C261B602B63541743E395F7C778E52BB28C18DC83 ++
  beList 48 0x016A6FF3F72C9368326AD50A3BD148A53CD2213BB480E4730AD019DB87AE100995EC65DF011E19811A15DC9DDFC9AB3C ++
  beList 48 0xAB5DEAA54DA9164DBD83116FB10CBE238269ED9EDD1F1B846DD89F8EE11ECA235CB7D6835437714CA0210B8B2A36C2A6 ++
  beList 48 0xFFD3D4AF6295A66FAECCFC2B0085F01D50464D83D7339F79B828ECBA8E0ECA699625F60C35C8EB6F9DD7B87638DB0C7F
def keyHash : List Byte :=
  beList 48 0xD00EEA0F947B339441327289A7879EDCD12BF4E39F5998CDC30B9DD3D22026DD32EB4FA7F4F45EBF1542415338BA9CAE
def bootKeys (stage : BootStage) : State := { up with boot := { up.boot with stage := stage, hashes := [(0, keyHash)] } }
def booting : State := bootKeys .primary
def bootingAlt : State := bootKeys .alternate
def bootingHost : State := bootKeys .hostRead
/-- A response that the same key signed over a challenge of zeros, for a unit whose ID and UID registers hold 0x12345678 and
0x200000001. -/
def response : List Byte :=
  beList 48 0xFBF96095915EB587390F850EC95B35F618AE121C72A70808AD8F9F4C261B602B63541743E395F7C778E52BB28C18DC83 ++
  beList 48 0x016A6FF3F72C9368326AD50A3BD148A53CD2213BB480E4730AD019DB87AE100995EC65DF011E19811A15DC9DDFC9AB3C ++
  beList 48 0xAB5DEAA54DA9164DBD83116FB10CBE238269ED9EDD1F1B846DD89F8EE11ECA235CB7D6835437714CA0210B8B2A36C2A6 ++
  beList 48 0x30FE8C2CDB60E90CB650E2BFB8B2CA3FDEF1EC73B30E270D8320E6250532C8121DB526B379D277D24F1597D916B6F29F
def debugReady : State :=
  { up with
    boot := { up.boot with hashes := [(2, keyHash)], challenged := true }
    regs := [(0, 4), (0x40, 0x12345678), (0x80, 1), (0x84, 2), (SEC.KEYSTAT.off 2, 5)] ++
      (upto 48).map (fun i => (SEC.DBGRESP.off i, BitVec.ofNat 32 (field response (4 * i) 4))) }

def queueBad : State := put up [(PCI.QCFG_LOG, 63, 3)]
def queueOff : State := put up [(PCI.QCFG_LOG, 5, 4)]
def queueOn : State := put up [(PCI.QCFG_LOG, 5, 4), (PCI.QCFG_EN, 5, 1), (PCI.QSTAT_STATE, 5, 1), (PCI.SQDB_INDEX, 5, 3), (PCI.QCFG_THREAD, 5, 2)]
def queueStopped : State := put queueOn [(PCI.QSTAT_STATE, 5, 3)]
def entry0 : Entry := ⟨0x1000, 256, 8, 9, 0, 0, [11, 12, 13, 14], 1, 0x7F0002000000, true, false, none⟩
def queueEntry : State := setQueue queueOn 5 { Queue.fresh with fetched := 1, promised := 1, entry := some entry0 }
def ringOn : State := put up [(PCI.EVCFG_EN, 0, 1), (PCI.EVHEAD, 0, 3)]
def vectorWaits : State := setVector up 0 7 ⟨0x1000, 0xAB, true, true⟩
def vectorShut : State := setFn vectorWaits 0 { fnOf up 0 with config := { FnConfig.reset with masked := true } }
def flrBusy : State := put up [(PCI.FNCTL_FLR_BUSY, 3, 1)]
def fn3 : State := put up [(PCI.FNCTL_BME, 3, 1), (PCI.FNCTL_EN, 3, 1)]

/-! Power, clocks, reset, boot and the host interface. -/

theorem wit_PowerDomains : domState domOn 7 = 2 ∧ domState domGated 7 = 3 ∧ keepAwake domGated 7 = false ∧
    getF domGated PWR.DOM_HOLD 7 ≠ 0 ∧ keepAwake domForced 7 = true ∧ domState domForced 7 = 3 ∧ domState domEntering 10 = 4 ∧
    keepAwake domEntering 10 = false ∧ keepAwake domKept 10 = true ∧ domState domKept 10 = 4 ∧ domOff.power.deep = none ∧
    10 ∉ domEntering.power.queued ∧ flag domRetains PWR.DOM_RETEN 10 = true ∧ domState domRetains 10 = 4 ∧ domState domOff 7 = 0 ∧
    domOff.power.tripped = false ∧ domainHeld domOff 7 = false ∧ domState domRetained 10 = 5 ∧ domState domWaking 7 = 1 ∧
    domState domWaking 1 = 2 := by decide +kernel

theorem wit_DeepSleep : (∀ d < 14, domState sleepy d = 0 ∨ domState sleepy d = 5 ∨ d = 0) ∧ flag sleepy PWR.CFG_DEEPEN = true ∧
    sleepy.power.xtal = true ∧ sleepy.power.deep = none ∧ sleepy.power.tripped = false ∧ domState domOn 7 = 2 ∧
    deepAsleep.power.deep.isSome = true ∧ (∀ k < 4, flagBit deepAsleep PWR.WAKESRC k = true) := by decide +kernel

theorem wit_Clocks : up.power.xtal = true ∧ up.time.stopped = false := by decide +kernel

theorem wit_Thermal : up.power.heldReset = none ∧ ([none, some 640, some (-32768)] : List (Option Int)).getD 1 none = some 640 ∧
    ([none, some 640, some (-32768)] : List (Option Int)).getD 2 none = some (-32768) ∧
    zoneLevel hotZone 3 < 2 ∧ dwelt hotZone (mfind (zoneOf hotZone 3).above 2) = true ∧
    (∀ k < 4, 2 < k → dwelt hotZone (mfind (zoneOf hotZone 3).above k) = false) ∧ zoneLevel coolZone 3 = 2 ∧
    dwelt coolZone (mfind (zoneOf coolZone 3).below 2) = true ∧
    (∀ k < 4, dwelt coolZone (mfind (zoneOf coolZone 3).above k) = false ∧ (k < 2 → dwelt coolZone (mfind (zoneOf coolZone 3).below k) = false)) ∧
    flag coolZone THM.ZSTAT_GRACE 3 = true ∧ tripZone.power.tripped = false ∧ tripDue tripZone 11 = true := by decide +kernel

theorem wit_Resets : up.boot.fuse = none ∧ up.power.line = .none ∧ warmHeld up = false ∧ fusing.power.line = .none ∧ warmHeld fusing = true ∧
    fusing.power.heldReset = none ∧ inReset.power.line ≠ .none ∧ inReset.power.tripped = false := by decide +kernel

theorem wit_Boots : stands booting pllControl = false ∧ booting.boot.stage = .primary ∧ booting.power.deferred = [] ∧
    imageCode booting none none ≠ 0 ∧ bootingAlt.boot.stage = .alternate ∧ bootingHost.boot.stage = .hostRead ∧
    fusing.boot.fuse = some ⟨false, 1, true, keyOf1⟩ ∧ fusing.power.heldReset = none ∧ revoking.boot.fuse = some ⟨true, 0, false, keyOf1⟩ := by decide +kernel

theorem wit_ContainerGood : imageCode booting none (some container) = 0 := by decide +kernel

theorem test_container_signature : imageCode booting none (some (container.set 40 1)) = 9 := by decide +kernel

theorem wit_DebugLock : HostWrites debugReady 0 SEC.DBGCTL_CHAL.base ∧ debugReady.boot.challenged = true ∧
    flag debugReady SEC.DBGCTL_LOCKOUT = false := by
  simp only [HostWrites]; decide +kernel

theorem wit_DebugSlot : debugSlot debugReady = some 2 := by decide +kernel

theorem wit_PinEvents : flagBit gpioOn PWR.WAKEGPIO 31 = false ∧ bit gpioOn.power.gpio 31 ≠ true ∧ flag gpioOn PIN.BANKCFG_EN 3 = true ∧
    gpioOn.time.stopped = false ∧ ({ up with boot := { up.boot with i2cOffset := GLB.ID.base } } : State).boot.i2cOffset = GLB.ID.base := by
  decide +kernel

theorem wit_Queues : queueFn queueOn 5 = 0 ∧ flag queueOn PCI.FNCTL_FLR_BUSY 0 = false ∧ HostWrites queueOn 0 (PCI.SQDB_INDEX.off 5) ∧
    HostWrites queueOn 0 (PCI.CQDB_INDEX.off 5) ∧ ringSize queueOn 5 = 16 ∧ HostWrites queueOff 0 (PCI.QCFG_EN.off 5) ∧
    flag queueOff PCI.QCFG_EN 5 = false ∧ queueCheck queueOff 5 = 0 ∧ flag queueBad PCI.QCFG_EN 63 = false ∧ queueCheck queueBad 63 = 2 ∧
    HostWrites queueOn 0 (PCI.QCFG_EN.off 5) ∧ flag queueOn PCI.QCFG_EN 5 = true ∧ (queueOf queueOn 5).entry = none ∧
    flag queueEntry PCI.QCFG_EN 5 = true ∧ (queueOf queueEntry 5).entry ≠ none ∧ HostWrites queueStopped 0 (PCI.QCTL_RESUME.off 5) ∧
    flag queueStopped CWY.TSTAT_BOUND (getF queueStopped PCI.QCFG_THREAD 5) = false ∧ getF queueStopped PCI.QSTAT_STATE 5 = 3 := by
  simp only [HostWrites]; decide +kernel

theorem wit_Entries : stands queueOn pllPcie = false ∧ fetchable queueOn 5 = true ∧ queueTurn queueOn 5 = true ∧
    (queueOf queueEntry 5).entry = some entry0 ∧ entry0.started = false ∧ entry0.placed = true ∧ entry0.flags.testBit 1 = false ∧
    fnDisabled queueEntry (queueFn queueEntry 5) = false ∧ ReadOwner.program 5 ∉ queueEntry.host.stale := by decide +kernel

theorem wit_EventRings : HostWrites up 0 (PCI.EVCFG_EN.off 0) ∧ (fnOf up 0).lost = 0 ∧ (fnOf up 0).releases = [] ∧ up.boot.failDue = false ∧
    HostWrites ringOn 0 (PCI.EVTAIL.off 0) ∧ (fnOf up 7).d3 = false ∧ hostBlind up 7 (msixBase 7 + 16 * 255 + 12) = false ∧
    (vectorOf up 7 255).pending = false ∧ (vectorOf vectorWaits 0 7).pending = true ∧
    (fnOf vectorWaits 0).config.masked = false ∧ (vectorOf vectorShut 0 7).pending = true ∧ (fnOf vectorShut 0).config.masked = true := by
  simp only [HostWrites]; decide +kernel

theorem wit_Functions : stands up pllPcie = false ∧ flag up PCI.FNCTL_FLR_BUSY 3 = false ∧ flag flrBusy PCI.FNCTL_FLR_BUSY 3 = true ∧
    running hostT 0 = true ∧ fnDisabled hostT (hostFn hostT 0) = false ∧ (coreOf hostT 0).stall = .hostLoad 1 0x800000000010 8 false := by
  decide +kernel

/-! The ledger, the link and the twin. -/

/-- The mirror of group 0 is open, and the ledger holds the frames given. -/
def ledgerOf (fs : List Frame) : State :=
  put { up with ledger := { up.ledger with frames := fs.map (fun f => (f.key, f)) } }
    [(LDG.MIRCFG_EN, 0, 1), (LDG.STAT_RECOVERING, 0, 0), (LDG.STAT_RECOVERING, 1, 0), (LDG.STAT_RECOVERING, 2, 0), (LDG.STAT_RECOVERING, 3, 0)]
def frAccept : Frame := { printFrame with state := 1, flush := .accepted, op := some 0 }
def frFiring : Frame := { printFrame with flush := .firing, openRows := 0, openSeqs := [], lines := 0 }
def frDisp : Frame := { printFrame with state := 5, flush := .disposition, recorded := true }
def frReady : Frame := { printFrame with state := 4, openRows := 0, lines := 0, firingHeld := true }
def frSpoiled : Frame := { frReady with mark := some ⟨5, 0⟩ }
def frWithdrawn : Frame := { printFrame with state := 7, reason := 0x10 }
def frBad : Frame := { frDisp with flushBad := true }
def ledAccept : State := withOps (ledgerOf [frAccept]) [{ copyOp with sub := 1 }]
def ledFiring : State := ledgerOf [frFiring]
def ledDisp : State := ledgerOf [frDisp]
def ledReady : State := ledgerOf [frReady]
def ledSpoil : State := ledgerOf [frSpoiled]
def ledWithdrawn : State := ledgerOf [frWithdrawn]
def ledBad : State := ledgerOf [frBad]
def ledDone : State := ledgerOf [{ frDisp with released := true, flush := .none }]
def ledUnseeded : State := put (ledgerOf []) [(LDG.STAT_STATE, 1, 3)]
def ledHalted : State := put (ledgerOf []) [(LDG.STAT_STATE, 0, 2), (LDG.STAT_STATE, 1, 2)]
def ledNoMirror : State := put (ledgerOf []) [(LDG.MIRCFG_EN, 0, 0), (LDG.STAT_STATE, 0, 1)]

/-- Hub 2 is in a state of its bring-up on lane 1, which is locked and sends. -/
def hub2 (n : Nat) : State :=
  put (laneOn 1 (ledgerOf [])) [(DLK.HUBCTL_EN, 2, 1), (DLK.HUBLANE_L0, 2, 1), (DLK.HUBSTAT_STATE, 2, n), (LAN.LSTAT_LOCK, 1, 1)]
def hubUp2 : State := put (hub2 3) [(DLK.HUBSTAT_LANEUP, 2, 1)]
def hubConfig : State :=
  setHub (put (hub2 2) [(DLK.HUBSTAT_LANEUP, 2, 1)]) 2 { hubOf up 2 with waiting := [⟨4, 1, none, 0, 0, 0⟩], ctrlSeq := 4 }
def hubAlign2 : State := setLinkLane (hub2 1) 1 { linkLane up 1 with cleanFrom := some 0, hubClean := true }
def hubOff : State := put (hub2 0) [(DLK.HUBCTL_EN, 2, 0)]
def dataFrame : LinkFrame := ⟨2, 3, 5, 2 ^ 60, .data 4 7 20 0 1 0 [0, 1, 2] false, false, true, some 0⟩
def queuedFrame : LinkFrame := { dataFrame with queued := true, sent := false, lane := none }
def replaying (f : LinkFrame) : State := { hubUp2 with dlk := { hubUp2.dlk with replay := [f], streams := [(streamKey 2 3, ⟨6, 2, 2⟩)] } }
def replaySent : State := replaying dataFrame
def replayQueued : State := replaying queuedFrame
def ctrlLate : State := setHub hubUp2 2 { hubOf hubUp2 2 with waiting := [⟨4, 6, some 0, 0, 0, 0⟩] }
def laneLost2 : State := setLinkLane hubUp2 1 { linkLane up 1 with lost := true }
def laneClean2 : State :=
  setLinkLane (put (hub2 3) [(DLK.HUBSTAT_LANEUP, 2, 0)]) 1 { linkLane up 1 with cleanFrom := some 0, hubClean := true, t1 := some 9, timeSeq := 3 }
def laneSync : State := setLinkLane hubUp2 1 { linkLane up 1 with prbsIn := some 1 }
def ackPoint : List Byte := toBytes 8 0 ++ toBytes 8 1 ++ toBytes 8 (3 + 65536 * 5) ++ toBytes 8 4
def nakPoint : List Byte := toBytes 8 1 ++ toBytes 8 (3 + 65536 * 5) ++ toBytes 8 2
def ackCtrl : List Byte := toBytes 8 0 ++ toBytes 8 1 ++ toBytes 8 (4096 + 65536 * 5) ++ toBytes 8 4
def ackReport (code detail : Nat) : List Byte :=
  toBytes 8 0 ++ toBytes 8 256 ++ toBytes 2 code ++ toBytes 2 3 ++ toBytes 6 5 ++ toBytes 4 2 ++ toBytes 2 detail
def nakStale : List Byte := toBytes 8 1 ++ toBytes 8 (3 + 65536) ++ toBytes 8 2
def nakCtrl : List Byte := toBytes 8 1 ++ toBytes 8 (4096 + 65536 * 5) ++ toBytes 8 2
def extraBytes : List (List Byte) :=
  [ackPoint, nakPoint, ackCtrl, ackReport 0 0, ackReport 1 0, ackReport 4 0, ackReport 5 4, nakStale, nakCtrl, toBytes 8 1, toBytes 8 257]
def hubDown2 : State := hub2 0
def hubMire : State := mire hubUp2
def ctrlFrame : LinkFrame := ⟨2, 0, 6, 2 ^ 60, .ctrl 1 [], false, true, some 0⟩
def replayCtrl : State := replaying ctrlFrame
def frameOnly : LinkBlock := ⟨1, 5⟩
def noControl : LinkBlock := ⟨2, 0x55⟩

/-- A twin unit, in a state of Table: twin states. -/
def twin (n : Nat) : State :=
  let s := ledgerOf []
  put { s with regs := mput s.regs GLB.ID.base 0x12345678 } [(GLB.STRAPS_TWIN_EN, 0, 1), (TWN.STAT_STATE, 0, n), (TWN.CFG_SERVEBOOT, 0, 1), (TWN.CLAIM, 0, 33)]
def twinAlone : State := twin 1
def twinActive : State := twin 3
def twinLostStandby : State := let s := twin 4; { s with twin := { s.twin with lost := true } }
def twinStandby : State := twin 4
def twinDiverged : State := twin 6
def twinFaulty : State := twin 5
def twinJoining : State := twin 2
def twinHeard : State := { twinActive with twin := { twinActive.twin with linkAt := some 1250000000, unacked := [(1, .diverge 0 0)], sent := 1 } }
def twinRing : State := let s := twinActive; { s with ledger := { s.ledger with frames := [(frReady.key, frReady)] } }
def twinOwn : State :=
  { twinStandby with twin := { twinStandby.twin with own := [(2 ^ 64 + 5, 1000, 0, 0)], awaiting := [⟨⟨0, 0, 9, 0⟩, 0, 0⟩] } }
def twinRaise : State := { twinActive with twin := { twinActive.twin with raisePending := true } }
def twinQuorum : State :=
  setHub (put twinRaise [(DLK.HUBCTL_EN, 2, 1)]) 2 { hubOf up 2 with ackFrc := some 1250000000 }
def twinNoQuorum : State := put twinRaise [(DLK.HUBCTL_EN, 2, 1)]
def twinBoot : State := { twinActive with boot := { twinActive.boot with stage := .partner, image := [1, 2, 3] } }
def record1 : List Byte :=
  toBytes 8 9 ++ toBytes 8 1 ++ toBytes 8 100 ++ toBytes 32 0 ++ toBytes 4 4 ++ toBytes 2 0 ++ toBytes 1 (1 + 4 * 3) ++ toBytes 1 0
def twinSettings : List Nat := pairSettings twinAlone
def hbWordOf (claim : Nat) : Word := BitVec.ofNat 64 (claim + 2 ^ 56 * hbCrc claim)
def twinFlush : State := let s := twinActive; { s with ledger := { s.ledger with frames := [(frFiring.key, frFiring)] } }
def twinFollows : State := let s := twinStandby; { s with ledger := { s.ledger with frames := [(frReady.key, frReady)] } }
def hubAnswers : State := setHub hubUp2 2 { hubOf up 2 with waiting := [⟨4, 1, none, 0, 0, 0⟩] }
def ctrlEarly : State := setHub hubUp2 2 { hubOf hubUp2 2 with waiting := [⟨4, 6, some 0, 0, 0, 1249999999⟩] }
def hubHeard : State := setHub hubUp2 2 { hubOf hubUp2 2 with upFrc := some 1249999999 }
def queuedNowhere : State := put replayQueued [(DLK.HUBSTAT_LANEUP, 2, 0)]
def hubTimed : State :=
  setLinkLane (setHub hubConfig 2 { hubOf hubConfig 2 with timed := true, step := 5 }) 1 { linkLane up 1 with delay := some 70000 }
def laneUnlocked2 : State := put laneClean2 [(LAN.LSTAT_LOCK, 1, 0)]
def twinCompares : State := { twinActive with twin := { twinActive.twin with entries := [(2, 9, 5, 6)] } }
def twinTriggered : State := { twinStandby with lode := { twinStandby.lode with tm := [(0, [(200, 70000000)])] } }
def twinKnows : State :=
  let s := twinStandby; let f := { printFrame with fsn := 9, group := 1 }; { s with ledger := { s.ledger with frames := [(f.key, f)] } }
def recordIn (st : Nat) : List Byte :=
  toBytes 8 9 ++ toBytes 8 1 ++ toBytes 8 100 ++ toBytes 32 0 ++ toBytes 4 4 ++ toBytes 2 0 ++ toBytes 1 (1 + 4 * st) ++ toBytes 1 0
def record4 : List Byte := recordIn 4
def record5 : List Byte := recordIn 5
def twinRejoins : State := { twinActive with twin := { twinActive.twin with rejoins := [(streamKey 2 3, 9, 4)] } }
def twinHeld : State := put twinActive [(SEC.FUSECTL_BUSY, 0, 1)]
def twinServed : State := { twinActive with twin := { twinActive.twin with partnerState := 4 } }
def twinPaired : State := { twinActive with twin := { twinActive.twin with linkAt := some 1250000000 } }
def twinStandbyQuorum : State := setHub (put twinStandby [(DLK.HUBCTL_EN, 2, 1)]) 2 { hubOf up 2 with ackFrc := some 1250000000 }
def twinOwnNew : State :=
  { twinStandby with twin := { twinStandby.twin with own := [(2 ^ 64 + 5, 1000, 0, 1250000000)], awaiting := [⟨⟨0, 0, 9, 0⟩, 0, 1250000000⟩] } }

/-! The ledger, the link and the twin. -/

theorem wit_MirrorReads : stands ledAccept pllControl = false ∧ LedgersIdle ledAccept ∧ isActive ledAccept = false ∧
    HasFrame ledAccept 0 1 frAccept ∧ frAccept.flushDone = false ∧ frAccept.flushBad = false ∧ mirrorOpen ledAccept 0 = true ∧
    (∀ p ∈ groupFrames ledAccept 0, p.flushDone = false) ∧ field (toBytes 64 1) 0 8 = 1 % 2 ^ 64 ∧ frAccept.flush = .accepted ∧
    frAccept.op = some 0 ∧ HasFrame ledFiring 0 1 frFiring ∧ frFiring.flush = .firing ∧ frFiring.state = 3 ∧
    getF ledFiring LDG.STAT_STATE 0 ≠ 2 ∧ (∀ p ∈ groupFrames ledFiring 0, p.fsn < 1 → p.state ≠ 3) ∧ HasFrame ledDisp 0 1 frDisp ∧
    frDisp.flush = .disposition ∧ haltedBelow ledDisp 0 2 = false ∧ isActive twinRing = true ∧ LedgersIdle twinRing ∧
    HasFrame twinFlush 0 1 frFiring ∧ isActive twinFlush = true ∧ frFiring.partnerHas = false ∧ mirrorOpen twinFlush 0 = true := by
  simp only [LedgersIdle, HasFrame, FramesKeyed]; decide +kernel

theorem wit_Dispositions : LedgersIdle ledReady ∧ HasFrame ledReady 0 1 frReady ∧ (∀ p ∈ groupFrames ledReady 0, p = frReady ∨ p.recorded = true) ∧
    frReady.recorded = false ∧ getF ledReady LDG.STAT_STATE 0 ≠ 2 ∧ authority ledReady = true ∧ commitReady ledReady frReady = true ∧
    HasFrame ledSpoil 0 1 frSpoiled ∧ frSpoiled.mark = some ⟨5, 0⟩ ∧ spoilReady ledSpoil frSpoiled = true ∧
    HasFrame ledWithdrawn 0 1 frWithdrawn ∧ frWithdrawn.disposed = true ∧ commitReady ledSpoil frSpoiled = false ∧
    HasFrame ledBad 0 1 frBad ∧ frBad.flushBad = true ∧ mirrorOpen ledBad 0 = true ∧ stands ledReady pllControl = false ∧
    authority twinFollows = false ∧ HasFrame twinFollows 0 1 frReady ∧ LedgersIdle twinFollows := by
  simp only [LedgersIdle, HasFrame, FramesKeyed]; decide +kernel

theorem wit_LedgerCommands : LedgersIdle ledReady ∧ HostWrites ledNoMirror 0 (LDG.MIRCFG_EN.off 0) ∧ flag ledNoMirror LDG.MIRCFG_EN 0 = false ∧
    HostWrites ledReady 0 (LDG.MIRCFG_EN.off 0) ∧ flag ledReady LDG.MIRCFG_EN 0 = true ∧ (∃ p ∈ groupFrames ledReady 0, p.released = false) ∧
    (∀ p ∈ groupFrames ledDone 0, p.released = true) ∧ flag ledDone LDG.MIRCFG_EN 0 = true ∧
    HostWrites ledUnseeded 0 (LDG.NEXTFSN.base + 8 * 1 + 4) ∧ getF ledUnseeded LDG.STAT_STATE 1 = 3 ∧ getF ledNoMirror LDG.STAT_STATE 0 ≠ 3 ∧
    HostWrites ledHalted 0 (LDG.RESOLVE_GO.off 0) ∧ getF ledHalted LDG.STAT_STATE 0 = 2 := by
  simp only [LedgersIdle, HostWrites]; decide +kernel

theorem wit_LinkReceipts : stands replaySent pllLanes = false ∧ fromHub replaySent 1 2 = true ∧ fromHub replaySent 1 0 = false ∧
    hubState replaySent 2 ≠ 0 ∧ hubState hubDown2 2 = 0 ∧ LedgersIdle replaySent ∧ replayFull replaySent = false ∧ inPair replaySent = false ∧
    ackReports ackPoint = [] ∧ ackPoints ackPoint = [⟨3, false, 5, 4⟩] ∧ ackReports ackCtrl = [] ∧ ackPoints ackCtrl = [⟨0, true, 5, 4⟩] ∧
    [0, 1, 4, 5].all (fun c => ackReports (ackReport c 4) == [⟨c, 3, 5, 2, 4⟩] && ackPoints (ackReport c 4) == []) = true ∧
    ownersOf replaySent (fun q => q.stream == streamKey 2 3 && decide (5 ≤ q.seq) && decide (q.seq < 7)) = [] ∧
    0 / 4 % 2 = unitId replaySent := by
  simp only [LedgersIdle]; decide +kernel

theorem wit_LinkNaks : field nakPoint 0 1 = 1 ∧ bit (field nakPoint 8 8) 12 = false ∧
    (streamOf replaySent (streamKey 2 3)).held < field nakPoint 8 8 / 65536 ∧ dataFrame ∈ replaySent.dlk.replay ∧
    dataFrame.inStream false 2 3 = true ∧ dataFrame.seq = field nakPoint 8 8 / 65536 ∧ dataFrame.seq < 5 + field nakPoint 16 2 ∧
    work32 replaySent / 65536 + getF replaySent DLK.CFG_RETXLEAD * 100 * 65536 ≤ dataFrame.fireAt ∧
    field nakStale 8 8 / 65536 ≤ (streamOf replaySent (streamKey 2 3)).held ∧ bit (field nakCtrl 8 8) 12 = true ∧
    (hubOf replayCtrl 2).ctrlHeld < field nakCtrl 8 8 / 65536 ∧ ctrlFrame ∈ replayCtrl.dlk.replay ∧ ctrlFrame.inStream true 2 0 = true := by
  decide +kernel

theorem wit_LinkDiscards : laneHubs replaySent 1 = [(2, 0)] ∧ receiveBlocks none (descramble 0 [frameOnly]) = (1, 0) ∧
    receiveBlocks none (descramble 0 [noControl]) = (0, 1) ∧ fromHub hubMire 1 2 = true ∧ mireLocked hubMire = true ∧
    8 ≤ regionSize hubMire 8 := by decide +kernel

theorem wit_TelemetryAt : mireLocked hubMire = true ∧ ([1, 2, 3] : List Byte).length ≤ regionSize hubMire 8 ∧
    ∀ a, poisoned hubMire a 3 = false := by
  refine ⟨by decide +kernel, by decide +kernel, fun a => ?_⟩
  rfl

theorem wit_HubControl : LedgersIdle hubConfig ∧ fromHub hubConfig 1 2 = true ∧ fromHub hubConfig 1 0 = false ∧ hubState hubConfig 2 = 2 ∧
    (hubOf hubConfig 2).waiting.find? (fun c => c.seq == 4 && c.op == field (toBytes 8 1) 0 1 && 4 != 0) = some ⟨4, 1, none, 0, 0, 0⟩ ∧
    field (toBytes 8 1) 1 1 = 0 ∧ field (toBytes 8 257) 1 1 ≠ 0 ∧
    (hubOf hubConfig 2).waiting.find? (fun c => c.seq == 4 && c.op == field ([] : List Byte) 0 1 && 4 != 0) = none ∧
    (hubOf hubAnswers 2).waiting.find? (fun c => c.seq == 4 && c.op == field (toBytes 8 1) 0 1 && 4 != 0) = some ⟨4, 1, none, 0, 0, 0⟩ ∧
    hubState hubAnswers 2 ≠ 2 ∧
    (hubOf ctrlLate 2).waiting.find? (fun c => c.seq == 4 && c.op == field (toBytes 8 6) 0 1 && 4 != 0) = some ⟨4, 6, some 0, 0, 0, 0⟩ ∧
    (hubOf hubConfig 2).waiting.find? (fun c => c.seq == 4) = some ⟨4, 1, none, 0, 0, 0⟩ ∧ 1250000 * 1 ≤ hubConfig.frc - 0 ∧
    (hubOf hubConfig 2).waiting.find? (fun c => c.seq == 5) = none ∧
    (hubOf ctrlLate 2).waiting.find? (fun c => c.seq == 4) = some ⟨4, 6, some 0, 0, 0, 0⟩ ∧ 1250000 * 10 ≤ ctrlLate.frc - 0 ∧
    (hubOf ctrlEarly 2).waiting.find? (fun c => c.seq == 4) = some ⟨4, 6, some 0, 0, 0, 1249999999⟩ ∧
    ctrlEarly.frc - 1249999999 < 1250000 * 10 ∧ 2 ≤ hubState hubUp2 2 ∧ hubState hubAlign2 2 < 2 ∧
    silentFor hubUp2 (hubOf hubUp2 2).upFrc (100 * Nat.max 1 (getF hubUp2 DLK.CFG_DOWNTO)) = true ∧
    silentFor hubHeard (hubOf hubHeard 2).upFrc (100 * Nat.max 1 (getF hubHeard DLK.CFG_DOWNTO)) = false := by
  simp only [LedgersIdle]; decide +kernel

theorem wit_HubStates : HostWrites hubOff 0 (DLK.HUBCTL_EN.off 2) ∧ flag hubOff DLK.HUBCTL_EN 2 = false ∧ hubState hubOff 2 = 0 ∧
    HostWrites hubUp2 0 (DLK.HUBCTL_EN.off 2) ∧ flag hubUp2 DLK.HUBCTL_EN 2 = true ∧ (9 : Reg32).getLsbD 0 = true ∧ (9 : Reg32).getLsbD 3 = true ∧
    stands hubAlign2 pllLanes = false ∧ hubState hubAlign2 2 = 1 ∧
    (∃ p ∈ hubPositions hubAlign2 2, laneClean hubAlign2 (hubLane hubAlign2 2 p) = true) ∧ sendsCtrl hubAlign2 = true ∧
    hubState hubUp2 2 ≠ 1 := by
  simp only [HostWrites]; decide +kernel

theorem wit_LinkSends : replayQueued.dlk.replay.find? (fun f => f.hub == 2 && mayGo replayQueued f) = some queuedFrame ∧
    chooseLane replayQueued 2 none = some 0 ∧ replaySent.dlk.replay.find? (fun f => f.hub == 2 && mayGo replaySent f) = none ∧
    queuedNowhere.dlk.replay.find? (fun f => f.hub == 2 && mayGo queuedNowhere f) = some queuedFrame ∧ chooseLane queuedNowhere 2 none = none ∧
    2 < hubLimit hubUp2 ∧ 0 ∈ hubPositions hubUp2 2 ∧ flag hubUp2 LAN.LCFG_EN (hubLane hubUp2 2 0) = true ∧
    laneSends hubUp2 (hubLane hubUp2 2 0) = true ∧ laneHubs hubUp2 1 = [(2, 0)] ∧ laneHubs hubUp2 5 = [] ∧
    (linkLane hubUp2 (hubLane hubUp2 2 0)).delay = none ∧ hubState hubTimed 2 = 2 ∧ (hubOf hubTimed 2).timed = true ∧
    (linkLane hubTimed (hubLane hubTimed 2 0)).delay = some 70000 ∧ (hubOf hubTimed 2).step = 5 ∧ laneSends hubTimed (hubLane hubTimed 2 0) = true ∧
    2 ≤ hubState replaySent 2 ∧ dataFrame ∈ replaySent.dlk.replay ∧ dataFrame.sent = true ∧
    silentFor replaySent (hubOf replaySent 2).ackFrc (Nat.max 20 (getF replaySent DLK.CFG_ACKTO)) = true ∧
    silentFor replaySent (hubOf replaySent 2).configFrc (Nat.max 20 (getF replaySent DLK.CFG_ACKTO)) = true ∧
    silentFor replaySent (hubOf replaySent 2).resendFrc (Nat.max 20 (getF replaySent DLK.CFG_ACKTO)) = true ∧
    hubUp2.dlk.replay.any (fun x => x.hub == 2 && x.sent) = false := by decide +kernel

theorem wit_LinkLanes : fromHub laneClean2 1 2 = true ∧ fromHub laneClean2 1 0 = false ∧ (linkLane laneClean2 1).t1 = some 9 ∧
    (linkLane laneClean2 1).timeSeq = 3 ∧ (linkLane hubUp2 1).t1 = none ∧ laneHubs laneClean2 1 = [(2, 0)] ∧
    (linkLane laneClean2 1).prbsIn = none ∧ laneLocked laneClean2 1 = true ∧ laneLocked laneUnlocked2 1 = false ∧
    (linkLane laneSync 1).prbsIn = some 1 ∧ (prbsPayload 1).1 ≠ slice [] 0 64 ∧ (prbsPayload 1).1 = slice (prbsPayload 1).1 0 64 ∧
    LedgersIdle laneLost2 ∧ 0 ∈ lanesUp laneLost2 2 ∧ (linkLane laneLost2 (hubLane laneLost2 2 0)).lost = true ∧
    (linkLane hubUp2 (hubLane hubUp2 2 0)).lost = false ∧ 2 ≤ hubState laneClean2 2 ∧ 0 ∈ hubPositions laneClean2 2 ∧
    0 ∉ lanesUp laneClean2 2 ∧ laneClean laneClean2 (hubLane laneClean2 2 0) = true ∧ (linkLane laneClean2 (hubLane laneClean2 2 0)).hubClean = true := by
  simp only [LedgersIdle]; decide +kernel

theorem wit_Hello : stands twinAlone pllControl = false ∧ twinEnabled twinAlone = true ∧ LedgersIdle twinAlone ∧ twinState twinAlone = 1 ∧
    pairingCode twinAlone 1 1 0 0x12345678 twinSettings false = 0 ∧ pairingCode twinAlone 1 1 0 0x12345678 twinSettings true = 0 ∧
    pairingCode twinAlone 0 1 0 0x12345678 twinSettings false ≠ 0 ∧ printing twinAlone = false ∧
    pairingCode (withFrame twinAlone printFrame) 1 1 0 0x12345678 twinSettings false = 0 ∧ printing (withFrame twinAlone printFrame) = true ∧
    twinState twinDiverged = 6 ∧ twinState twinStandby = 4 ∧ twinStandby.twin.lost = false ∧ twinState twinLostStandby = 4 ∧
    twinLostStandby.twin.lost = true := by
  simp only [LedgersIdle]; decide +kernel

theorem wit_TwinMessages : InTurn twinStandby 1 ∧ isStandby twinStandby = true ∧ lastTrigger twinStandby 3 = none ∧ twinStandby.twin.entries = [] ∧
    twinState twinStandby = 4 ∧ twinStandby.twin.lost = false ∧ flag twinStandby TWN.ERR_DIVERGE = false ∧ ownClaim twinActive < 34 ∧
    decides twinActive = true ∧ 33 ≤ ownClaim twinActive ∧ InTurn twinActive 1 ∧ isStandby twinActive = false ∧
    InTurn twinCompares 1 ∧ twinCompares.twin.entries.find? (fun e => e.1 == 2 && e.2.1 == 9) = some (2, 9, 5, 6) ∧
    twinState twinCompares = 3 ∧ twinCompares.twin.lost = false ∧ InTurn twinAlone 1 ∧ twinState twinAlone ≠ 4 ∧ twinState twinAlone ≠ 3 ∧
    InTurn twinTriggered 1 ∧ isStandby twinTriggered = true ∧ lastTrigger twinTriggered 0 = some 200 := by
  simp only [InTurn, LedgersIdle]; decide +kernel

theorem wit_TwinLedger : InTurn twinStandby 1 ∧ FramesKeyed twinStandby ∧ (frameOfRecord twinStandby record1).group = 1 ∧
    frameOf twinStandby (frameOfRecord twinStandby record1).group (frameOfRecord twinStandby record1).fsn = none ∧
    InTurn twinKnows 1 ∧ FramesKeyed twinKnows ∧
    (frameOf twinKnows (frameOfRecord twinKnows record5).group (frameOfRecord twinKnows record5).fsn).any (fun f => f.flush == .none && f.state == 3) = true ∧
    (frameOfRecord twinKnows record5).state = 5 ∧ (frameOfRecord twinKnows record5).released = false ∧
    (frameOfRecord twinKnows record4).state = 4 ∧ (frameOfRecord twinKnows record4).fsn = (frameOfRecord twinKnows record5).fsn ∧
    InTurn twinRing 1 ∧ HasFrame twinRing 0 1 frReady ∧ frReady.flushDone = false ∧ frameOf twinRing 0 2 = none := by
  simp only [InTurn, LedgersIdle, HasFrame, FramesKeyed]; decide +kernel

theorem wit_TwinDecisions : isStandby twinStandby = true ∧ InTurn twinActive 1 ∧ isStandby twinActive = false ∧ isActive twinActive = true ∧
    isActive twinStandby = false ∧ twinStandby.twin.awaiting = [] ∧ selectOfDesc twinStandby (toBytes 16 0 ++ toBytes 8 4) = none ∧
    (selectOfDesc twinStandby (toBytes 16 0 ++ toBytes 8 (8 + 256))).any (fun q => bit q.chmask 0 && activeBank twinStandby 0 != q.bank) = true ∧
    InTurn twinOwn 1 ∧ isStandby twinOwn = true ∧ twinOwn.twin.awaiting.find? (fun m => m.key == ⟨0, 0, 9, 0⟩) = some ⟨⟨0, 0, 9, 0⟩, 0, 0⟩ ∧
    mapsetInvalid (toBytes 24 0) 1 = true := by
  simp only [InTurn, LedgersIdle]; decide +kernel

theorem wit_TwinCopies : InTurn twinActive 1 ∧ InTurn twinBoot 1 ∧ twinBoot.boot.stage = .partner ∧ twinActive.boot.stage ≠ .partner ∧
    flag twinBoot TWN.CFG_SERVEBOOT = true ∧ twinBoot.boot.image ≠ [] ∧ twinActive.boot.image = [] ∧ replayFull twinActive = false ∧
    mfind twinRejoins.twin.rejoins (streamKey 2 3) = some (9, 4) ∧ InTurn twinRejoins 1 ∧ mfind twinActive.twin.rejoins (streamKey 2 3) = none ∧
    FramesKeyed twinActive ∧ 5 ≤ ownClaim twinActive ∧ ownClaim twinActive < 34 ∧ twinActive.twin.partnerState ≠ 4 ∧
    warmHeld twinActive = false ∧ InTurn twinHeld 1 ∧ warmHeld twinHeld = true ∧ twinHeld.twin.partnerState ≠ 4 ∧
    twinHeld.power.heldReset = none ∧ twinState twinActive = 3 ∧ InTurn twinServed 1 ∧ twinState twinServed = 3 ∧ twinServed.twin.partnerState = 4 := by
  simp only [InTurn, LedgersIdle, FramesKeyed]; decide +kernel

theorem wit_TwinTimers : stands twinHeard pllControl = false ∧ LedgersIdle twinHeard ∧
    (twinHeard.twin.unacked.take 4096).find? (fun e => e.1 == 1) = some (1, .diverge 0 0) ∧
    (twinHeard.twin.unacked.take 4096).find? (fun e => e.1 == 2) = none ∧ twinEnabled twinHeard = true ∧ twinEnabled up = false ∧
    hasPaired up = false ∧ hasPaired twinPaired = true ∧ LedgersIdle twinPaired ∧
    twinHeard.power.deep = none ∧ bits (hbWordOf 77).toNat 56 8 = hbCrc (hbWordOf 77).toNat ∧ bits 1 56 8 ≠ hbCrc 1 ∧
    (twinEnabled twinActive && !twinActive.twin.lost && (twinState twinActive == 3) && silentFor twinActive twinActive.twin.linkAt 400 &&
      silentFor twinActive twinActive.twin.backupAt 400) = true ∧ twinState twinJoining = 2 ∧ twinState twinStandby = 4 ∧
    silentFor twinStandby twinStandby.twin.linkAt 400 = true ∧ quorum twinStandby = false ∧ quorum twinStandbyQuorum = true ∧
    twinState twinStandbyQuorum = 4 ∧ silentFor twinHeard twinHeard.twin.backupAt 400 = true ∧
    silentFor twinHeard twinHeard.twin.linkAt 400 = false ∧ twinRaise.twin.raisePending = true ∧ quorum twinQuorum = true ∧
    twinQuorum.twin.raisePending = true ∧ quorum twinNoQuorum = false ∧ twinNoQuorum.twin.raisePending = true ∧
    twinActive.twin.raisePending = false := by
  simp only [LedgersIdle]; decide +kernel

theorem wit_TwinTimers2 : LedgersIdle twinOwn ∧ oldestOwn twinOwn 1 = some (2 ^ 64 + 5, 1000, 0, 0) ∧ oldestOwn twinOwn 0 = none ∧
    isStandby twinOwn = true ∧ 1250 * Nat.max 1 (getF twinOwn TWN.CFG_TMWAIT) ≤ twinOwn.frc - 0 ∧
    silentFor twinOwn twinOwn.twin.linkAt (Nat.max 1 (getF twinOwn TWN.CFG_TMWAIT)) = true ∧
    (oldestOwn twinOwnNew 1 = some (2 ^ 64 + 5, 1000, 0, 1250000000)) ∧ LedgersIdle twinOwnNew ∧
    twinOwnNew.frc - 1250000000 < 1250 * Nat.max 1 (getF twinOwnNew TWN.CFG_TMWAIT) ∧
    twinOwn.twin.awaiting.find? (fun m => m.op == 0) = some ⟨⟨0, 0, 9, 0⟩, 0, 0⟩ ∧ twinOwn.twin.awaiting.find? (fun m => m.op == 1) = none ∧
    0 + 1250000 * Nat.max 1 (getF twinOwn TWN.CFG_MATCHTO) ≤ twinOwn.frc ∧ twinState twinOwn = 4 ∧ twinOwn.twin.lost = false ∧
    twinOwnNew.twin.awaiting.find? (fun m => m.op == 0) = some ⟨⟨0, 0, 9, 0⟩, 0, 1250000000⟩ ∧
    twinOwnNew.frc < 1250000000 + 1250000 * Nat.max 1 (getF twinOwnNew TWN.CFG_MATCHTO) ∧
    twinState twinAlone = 1 ∧ stands twinAlone pllControl = false ∧ twinState twinJoining = 2 ∧ twinJoining.twin.joinStep = 0 ∧
    twinState twinActive = 3 := by
  simp only [LedgersIdle]; decide +kernel

theorem wit_TwinCommands : HostWrites twinFaulty 0 TWN.CTL.base ∧ twinEnabled twinFaulty = true ∧ twinState twinFaulty = 5 ∧
    HostWrites twinDiverged 0 TWN.CTL.base ∧ twinEnabled twinDiverged = true ∧ twinState twinDiverged = 6 ∧
    (0x5A04 : Reg32).getLsbD 2 = true ∧ bits (0x5A04 : Reg32).toNat 8 8 = 0x5A := by
  simp only [HostWrites]; decide +kernel

theorem wit_TwinOrder : Statement.Ordered (fun a b => .ringAck a b 0 1) ∧ stands twinStandby pllControl = false ∧ LedgersIdle twinStandby ∧
    twinEnabled twinStandby = true ∧ 7 ≠ twinStandby.twin.applied + 1 ∧ twinEnabled up = false := by
  refine ⟨.ringAck 0 1, ?_⟩
  simp only [LedgersIdle]; decide +kernel

/-! Intake and the print path. -/

/-- Print group 0 prints channel 0 at 600 dpi: Mire is locked, the geometry is valid and frame 1 fires from group line 0. -/
def pressOf (f : Frame) : State :=
  let s := put (mire up) [(LDE.PGCFG_ENABLE, 0, 1), (LDE.PGCFG_CHMASK, 0, 1), (LDE.CHSPAN_COUNT, 0, 32), (LDE.GEOSTAT_STATE, 0, 2),
    (LDG.STAT_RECOVERING, 0, 0), (LDG.STAT_RECOVERING, 1, 0), (LDG.STAT_RECOVERING, 2, 0), (LDG.STAT_RECOVERING, 3, 0)]
  { s with ledger := { s.ledger with frames := [(f.key, f)] }, lode := { s.lode with tm := [(0, [(200, 70000000), (199, 69000000)])] } }
def frShots : Frame := { printFrame with state := 4, g0 := some 0, lines := 10, stagings := [⟨0, 0, 64, 0, 0, 0, none⟩] }
def band0 : Band :=
  { status := .valid, fn := 1, src := 0x1000, clen := 64, ulen := 64, plane := 0, comp := 0, ch := 0, recomp := false, verify := false,
    level := 0, dict := 0, dicten := false, lines := 2, first := 0, crc := crc32c (List.replicate 64 0), cookie := 7, count := 32, cdpi := 600,
    blocks := [0], stored := 64, storedComp := 0, storedRaw := false, todo := [], outstanding := [], buffer := [], verified := 0, suspended := false,
    op := none, loadRef := none, frameRefs := [4], refetch := none, reported := false }
def withBand (s : State) (b : Band) : State := setBand s 0 b
def pressBand : State := withBand (pressOf frShots) band0
def bloadDesc : List Byte :=
  toBytes 8 0x1000 ++ toBytes 4 64 ++ toBytes 4 64 ++ toBytes 4 0 ++ toBytes 4 2 ++ toBytes 4 0 ++ toBytes 4 0 ++ toBytes 8 7 ++ toBytes 24 0
def bloadOp : Op := { copyOp with sub := 2, fn := 1, desc := bloadDesc }
def waiting (l : List Nat) (ops : List Op) : State := let s := pressOf frShots; withOps { s with intake := { s.intake with waiting := l } } ops
def waitingBand : Band := { band0 with status := .waiting, blocks := [], op := some 0, frameRefs := [] }
def bandWaits : State := let s := waiting [0] [bloadOp]; { s with intake := { s.intake with described := [(0, waitingBand)] } }
def bandListed : State := withBand (waiting [0] [bloadOp]) waitingBand
def bandFull : State := put (withFrame bandWaits { frShots with state := 7 }) [(SLC.MIRESIZE_SIZE, 0, 0)]
def bandGone : State := waiting [5] []
def loadingBand : Band := { band0 with status := .reading, op := some 0 }
def bandIdle : State := withOps (withBand (pressOf frShots) { loadingBand with buffer := [(0, List.replicate 64 0)] }) [bloadOp]
def bandRotten : State := withOps (withBand (pressOf frShots) { loadingBand with buffer := [(0, List.replicate 64 1)] }) [bloadOp]
def bandReads : State := withOps (withBand (pressOf frShots) { loadingBand with outstanding := [(0, 64)] }) [bloadOp]
def bandReport : State :=
  let s := withBand (put (pressOf frShots) [(PCI.FNCTL_EN, 1, 1), (PCI.FNCTL_BME, 1, 1), (PCI.EVCFG_EN, 1, 1)]) { band0 with status := .reporting }
  setFn s 1 { fnOf s 1 with releases := [⟨7, 0, 7⟩] }
def refetched (r : Refetch) : State := withBand (put (pressOf { frShots with state := 7 }) [(PCI.FNCTL_EN, 1, 1), (PCI.FNCTL_BME, 1, 1)]) { band0 with refetch := some r }
def bandRefetch : State := refetched ⟨[1], 0, false, 0, 0⟩
def bandBlocked : State := put bandRefetch [(PCI.FNCTL_BME, 1, 0)]
def bandWornOut : State := refetched ⟨[1], 15, false, 0, 0⟩
def bandReread : State := refetched ⟨[1], 0, true, 64, 0⟩
def bandInflates : State :=
  { bandReread with intake := { bandReread.intake with inflations := [inflationOf bandReread frShots.key 0] } }
def jobOf (kind : Nat) : Job := ⟨0, 0x800000001000, 0x2000000, 8, 64, kind, 0, 0, 2, false, 0, [], some 0, 0, false, false⟩
def withJob (j : Job) : State :=
  let s := withOps (pressOf { frShots with state := 7 }) [{ copyOp with sub := 3 }]
  { s with intake := { s.intake with jobs := [j] } }
def jobSuspended : State := withJob { jobOf 0 with suspended := true }
def jobInflate : State := let s := withJob (jobOf 1); { s with intake := { s.intake with deflate := [(0, .job 0)] } }
def jobSent : State := (engineRead jobInflate 0 0 0x800000001000 8 .failed).2
def jobDict : State := put (withJob (jobOf 2)) [(SLC.DICTSTAT_LOADING, 2, 1)]
def headWrite : State := put (pressOf { frShots with state := 7 }) [(LDE.HTDATA, 0, 0x80010040), (LDE.HTDATA, 1, 0xFFFF0100), (LDE.ROWCFG_CH, 1, 1)]
def headBusy : State := put pressBand [(LDE.HTDATA, 0, 0x80010040), (LDE.HTDATA, 1, 0xFFFF0100)]
def headSame : State := pressOf { frShots with state := 7 }
def geoRuns : State := put headSame [(LDE.GEOSTAT_STATE, 0, 1)]
def geoClean : State := put geoRuns [(LDE.PGCFG_ENABLE, 0, 0)]
def settled : List (Fld × Nat × Nat) := (upto 4).map (fun g => (LDG.STAT_RECOVERING, g, 0))
def lockEmpty : State := put (sdramUp up) settled
def locking (s : State) : State := { s with intake := { s.intake with locking := true } }
def lockFails : State := locking lockEmpty
def mireFree : State := mire lockEmpty
def lockHolds : State :=
  locking (put (mire lockEmpty) ([(SLC.MIRECTL_STATE, 0, 0), (MEM.CHCFG_EN, 0, 1), (MEM.CHCFG_EN, 1, 1)] ++
    [(0, 0, 32), (1, 32, 128), (2, 300, 128), (3, 430, 32), (4, 500, 128), (5, 630, 1), (6, 632, 7), (7, 640, 1), (8, 650, 0)].flatMap
      (fun e => [(SLC.MIREBASE_BASE, e.1, e.2.1), (SLC.MIRESIZE_SIZE, e.1, e.2.2)])))

/-! Lines. -/

def admitted (n : Nat) (s : State) : State := { s with print := { s.print with admitted := [(0, [(frShots.key, n)])] } }
/-- The lead holds the band's first line, which covers frame line 0 at 600 dpi. -/
def ledLine : State := let s := pressBand; { s with intake := { s.intake with leads := [(0, [⟨frShots.key, 0, 0, 0, List.replicate 32 9, false⟩])] } }
def lineReady : State := admitted 0 ledLine
def lineWaits : State := admitted 0 pressBand
def lineEarly : State := { pressBand with lode := { pressBand.lode with tm := [] } }
def entered : SedgeLine := ⟨frShots.key, 5, 5, false, true, 0, List.replicate 32 3, List.replicate 32 0, none, false⟩
def sedgeHas (l : List SedgeLine) : State := { pressBand with print := { pressBand.print with sedge := [(0, l)] } }
def lineLimited : State := sedgeHas [entered]
def lineDirect : State := put (sedgeHas [{ entered with direct := true, blankScreen := false, cover := (List.range 32).map (· % 4) }]) [(SDG.INKSTAT_PENDING, 0, 1)]
def lineScreened : State := sedgeHas [{ entered with levels := some (List.replicate 32 1) }]
def lineLeft : State := { pressBand with print := { pressBand.print with left := [(0, [{ entered with levels := some (List.replicate 32 1) }])] } }
def held (n : Nat) : HeldLine := ⟨frShots.key, 0, n, 0, List.replicate 32 1, false, false, false⟩
def segmented (s : State) (h : HeldLine) : State := { s with print := { s.print with segments := [(0, [h])] } }
def segLate : State := segmented pressBand (held 9000)
def segBased : State := segmented (put pressBand [(LDE.ROWCFG_ENABLE, 0, 1), (LDE.PGTIM_LAG, 0, 4), (LDE.PGTIM_PERK, 0, 0)]) (held 205)
def segGone : State := segmented pressBand { held 9000 with frame := 400 }
def mapFree : State := pressOf { frShots with state := 7 }
def mapBusy : State :=
  let s := put mapFree [(HMK.RELOAD_BUSY, 0, 1), (HMK.RELOAD_FIRSTROW, 0, 2), (HMK.RELOAD_LASTROW, 0, 2)]; { s with print := { s.print with reloadRows := (2, 2) } }
def mapRebuild : State := put mapFree [(HMK.STAT_REBUILD, 0, 1)]

/-! Intake and the print path. -/

theorem wit_HeadTable : HostWrites headWrite 0 LDE.HTIDX.base ∧ htData headWrite ≠ headAt headWrite 0 ∧
    lodeRuns headWrite (rowChannel headWrite (headAt headWrite 0).row) = false ∧
    lodeRuns headWrite (rowChannel headWrite (htData headWrite).row) = false ∧
    HostWrites headBusy 0 LDE.HTIDX.base ∧ htData headBusy ≠ headAt headBusy 0 ∧
    lodeRuns headBusy (rowChannel headBusy (headAt headBusy 0).row) = true ∧ flag headBusy GLB.ACCERR_RWL_IGN = false ∧
    HostWrites headSame 0 LDE.HTIDX.base ∧ htData headSame = headAt headSame 4095 := by
  simp only [HostWrites]; decide +kernel

theorem wit_Geometry : HostWrites headWrite 0 LDE.HTIDX.base ∧ htData headWrite ≠ headAt headWrite 4095 ∧
    (∀ c < 8, lodeRuns headWrite c = false) ∧ HostWrites headWrite 0 LDE.GEOCTL.base ∧
    getF geoRuns LDE.GEOSTAT_STATE = 1 ∧ LedgersIdle geoRuns ∧ stands geoRuns pllPipeline = false ∧ (geoCheck geoRuns).1 = 4 ∧
    getF geoClean LDE.GEOSTAT_STATE = 1 ∧ LedgersIdle geoClean ∧ (geoCheck geoClean).1 = 0 := by
  simp only [HostWrites, LedgersIdle]; decide +kernel

theorem wit_RegionLock : HostWrites lockEmpty 0 SLC.MIRECTL_LOCK.base ∧ mireLocked lockEmpty = false ∧ lockEmpty.intake.locking = false ∧
    lockFails.intake.locking = true ∧ LedgersIdle lockFails ∧ stands lockFails pllMemory = false ∧ (mireCheck lockFails).1 = 3 ∧
    lockHolds.intake.locking = true ∧ LedgersIdle lockHolds ∧ (mireCheck lockHolds).1 = 0 := by
  simp only [HostWrites, LedgersIdle]; decide +kernel

theorem wit_MireUnlock : HostWrites mireFree 0 SLC.MIRECTL_LOCK.base ∧ mireFree.intake.locking = false ∧
    (∀ g < 4, flag mireFree LDE.PGCFG_ENABLE g = false) ∧ (∀ e ∈ mireFree.ledger.frames, e.2.released = true) ∧
    mireFree.intake.bands = [] ∧ mireFree.intake.jobs = [] ∧ mireLocked mireFree = true ∧
    HostWrites pressBand 0 SLC.MIRECTL_LOCK.base ∧ pressBand.intake.bands ≠ [] := by
  simp only [HostWrites]; decide +kernel

theorem wit_BandLoads : stands bandGone pllPipeline = false ∧ bandGone.intake.waiting = [5] ∧ opOf bandGone 5 = none ∧
    bandWaits.intake.waiting = [0] ∧ opOf bandWaits 0 = some bloadOp ∧ bandWaits.intake.jobs = [] ∧
    mrising 0 bandWaits.intake.bands = true ∧ waitingBand.op = some 0 ∧ waitingBand.status = .waiting ∧ waitingBand.blocks = [] ∧
    waitingBand.refetch = none ∧ waitingBand.dicten = false ∧ mfind bandWaits.intake.described 0 = some waitingBand ∧
    freeHandle bandWaits = some 0 ∧ (∀ x ∈ bandWaits.intake.bands, x.2.op ≠ some 0) ∧ bandNeed waitingBand ≤ freeBlockCount bandWaits ∧
    mfind bandListed.intake.described 0 = none ∧ bandOf bandListed 0 = some waitingBand ∧
    (∀ x ∈ bandListed.intake.bands, x.2.op = some 0 → x.1 = 0) ∧ freeBlockCount bandFull < bandNeed waitingBand ∧ noRelease bandFull = true ∧
    LedgersIdle bandFull ∧ mfind bandFull.intake.described 0 = some waitingBand ∧ opOf bandFull 0 = some bloadOp := by
  simp only [LedgersIdle]; decide +kernel

theorem wit_BandEnds : (bandOf bandReads 0).any (fun b => b.outstanding == [(0, 64)]) = true ∧ LedgersIdle bandReads ∧
    stands bandReads pllPcie = false ∧ .band 0 0 ∉ bandReads.host.stale ∧
    (bandOf bandIdle 0).any (fun b => b.status == .reading && b.op == some 0 && b.todo.isEmpty && b.outstanding.isEmpty &&
      !b.buffer.isEmpty && b.comp == 0 && !b.recomp && crc32c (received b) == b.crc) = true ∧ opOf bandIdle 0 = some bloadOp ∧
    coreState bandIdle (coreNum bloadOp.issuer) ≠ stFaulted (coreNum bloadOp.issuer) ∧ LedgersIdle bandIdle ∧
    (bandOf bandRotten 0).any (fun b => crc32c (received b) != b.crc) = true ∧ LedgersIdle bandRotten ∧
    fnDisabled bandReport 1 = false ∧ (fnOf bandReport 1).releases = [⟨7, 0, 7⟩] ∧ getF bandReport PCI.EVLOST 1 = 0 ∧
    evRoom bandReport 1 = true := by
  simp only [LedgersIdle]; decide +kernel

theorem wit_Sluice : (nextLine pressBand 0).any (fun n => n.frame == frShots && n.staging == ⟨0, 0, 64, 0, 0, 0, none⟩ && n.line == 0) = true ∧
    bandOf pressBand 0 = some band0 ∧ band0.status = .valid ∧ (decodeBand pressBand band0).code = 0 ∧ (leadOf pressBand 0).length < 8 ∧
    (inflationOf pressBand frShots.key 0).next + 1 ≠ band0.lines ∧ LedgersIdle jobSuspended ∧ engineFree jobSuspended 0 = true ∧
    jobSuspended.intake.bands = [] ∧
    jobSuspended.intake.jobs.find? (fun j => j.kind == 0 && j.suspended && (j.engine == none || j.engine == some 0)) =
      some { jobOf 0 with suspended := true } ∧ engineFree pressBand 0 = false ∧ LedgersIdle pressBand := by
  simp only [LedgersIdle]; decide +kernel

theorem wit_Refetches : stands bandRefetch pllPcie = false ∧ LedgersIdle bandRefetch ∧ refetchReady bandRefetch band0 [1] = true ∧
    bandOf bandRefetch 0 = some { band0 with refetch := some ⟨[1], 0, false, 0, 0⟩ } ∧ 0 < getF bandRefetch SLC.CFG_REFETCH_MAX ∧
    crc32c (slice (List.replicate 64 0) 0 band0.clen) = band0.crc ∧ getF bandWornOut SLC.CFG_REFETCH_MAX ≤ 15 ∧
    refetchReady bandBlocked band0 [1] = false ∧ LedgersIdle bandBlocked ∧
    bandOf bandBlocked 0 = some { band0 with refetch := some ⟨[1], 0, false, 0, 0⟩ } ∧
    bandOf bandReread 0 = some { band0 with refetch := some ⟨[1], 0, true, 64, 0⟩ } ∧ bandReread.intake.inflations = [] ∧
    (∃ i ∈ bandInflates.intake.inflations, i.band = 0) := by
  simp only [LedgersIdle]; decide +kernel

theorem wit_SluiceJobs : stands jobInflate pllPipeline = false ∧ jobInflate.intake.jobs = [jobOf 1] ∧ jobRuns jobInflate (jobOf 1) = true ∧
    (opOf jobInflate 0).any (fun o => o.key == 0 && bulkRoom jobInflate o.hostfn != 0 &&
      (engineRead jobInflate o.hostfn o.hwin 0x800000001000 8 .failed).1 == .failed) = true ∧
    jobDict.intake.jobs = [jobOf 2] ∧ jobRuns jobDict (jobOf 2) = true ∧
    (opOf jobDict 0).any (fun o => (engineRead jobDict o.hostfn o.hwin 0x800000001000 8 (.data (toBytes 8 5))).1 == .bytes (toBytes 8 5)) = true := by
  decide +kernel

theorem wit_PrintLines : stands pressBand pllPipeline = false ∧ groupOf pressBand 0 = some 0 ∧
    (nextToAdmit pressBand 0 0).any (fun p => p.1 == frShots && p.2 == 0) = true ∧
    triggerReached pressBand 0 (0 - openLines pressBand 0) = true ∧ replayFull pressBand = false ∧
    groupOf lineEarly 0 = some 0 ∧ (nextToAdmit lineEarly 0 0).isSome = true ∧ triggerReached lineEarly 0 (0 - openLines lineEarly 0) = false ∧
    mget lineReady.print.admitted 0 [] = [(frShots.key, 0)] ∧ frameAt lineReady frShots.key = some frShots ∧
    lineDecoded lineReady frShots 0 0 = true ∧ mget lineWaits.print.admitted 0 [] = [(frShots.key, 0)] ∧
    lineDecoded lineWaits frShots 0 0 = false ∧ (sedgeLines lineScreened 0).any (fun l => l.levels.isSome) = true ∧
    (mget lineLeft.print.left 0 []).any (fun l => frameAt lineLeft l.frame == some frShots) = true ∧ flag lineLeft HMK.STAT_REBUILD = false ∧
    FramesKeyed lineLeft := by
  simp only [FramesKeyed]; decide +kernel

theorem wit_Segments : LedgersIdle segLate ∧ FramesKeyed segLate ∧ mget segLate.print.segments 0 [] = [held 9000] ∧
    frameAt segLate (held 9000).frame = some frShots ∧ basisOf segLate 0 (targetOf segLate (held 9000)) = none ∧
    underspeed segLate 0 (targetOf segLate (held 9000)) = false ∧ mget segBased.print.segments 0 [] = [held 205] ∧
    (basisOf segBased 0 (targetOf segBased (held 205))).isSome = true ∧ inPair segBased = false ∧ (held 205).withheld = false ∧
    frameAt segBased (held 205).frame = some frShots ∧ LedgersIdle segBased ∧ FramesKeyed segBased ∧ frameAt segGone 400 = none := by
  simp only [LedgersIdle, FramesKeyed]; decide +kernel

theorem wit_LimiterLines : stands lineLimited pllPipeline = false ∧ groupChannels lineLimited 0 = [0] ∧ limiterNext lineLimited 0 = some entered ∧
    entered.line = 5 ∧ entered.direct = false ∧ entered.blankScreen = true ∧
    (limiterNext lineDirect 0).any (fun l => l.direct) = true ∧ flag lineDirect SDG.INKSTAT_PENDING 0 = true ∧
    mget lineDirect.print.limiterGe 0 0 ≤ 5 := by decide +kernel

theorem wit_InkLimit : (([⟨0, 2, 100, true⟩, ⟨1, 3, 200, false⟩] : List InkPart).filter (fun p => p.prot)).map (fun p => p.w * p.v) = [200] ∧
    200 ≤ 500 ∧ (limitPixel 500 [⟨0, 2, 100, true⟩, ⟨1, 3, 200, false⟩]).1 = [(0, 100), (1, 100)] := by decide +kernel

theorem wit_MapReloads : HostWrites mapFree 0 HMK.RELOAD.base ∧ flag mapFree HMK.RELOAD_BUSY = false ∧ mireLocked mapFree = true ∧
    (0x10303 : Reg32).getLsbD 16 = true ∧ bits (0x10303 : Reg32).toNat 0 7 = 3 ∧ bits (0x10303 : Reg32).toNat 8 7 = 3 ∧
    lodeRuns mapFree (rowChannel mapFree 3) = false ∧ stands mapBusy pllPipeline = false ∧ LedgersIdle mapBusy ∧
    flag mapBusy HMK.RELOAD_BUSY = true ∧ mapBusy.print.afterReload = [] ∧ mapBusy.print.reloadRows = (2, 2) ∧
    poisoned mapBusy (recordAddr mapBusy (nozzleAddr 2 7)) 2 = false ∧ LedgersIdle mapRebuild ∧ flag mapRebuild HMK.STAT_REBUILD = true ∧
    mapRebuild.print.afterReload = [] := by
  simp only [HostWrites, LedgersIdle]; decide +kernel
/-! Mere. -/

def camera (st : Nat) : State :=
  put (pressOf frShots) [(MER.CAMCFG_EN, 0, 1), (MER.CAMSTAT_STATE, 0, st), (MER.CAMIMG_PIX, 0, 16), (MER.CAMIMG_IMGLINES, 0, 1)]
def camOff : State := put (camera 0) [(MER.CAMCFG_EN, 0, 0)]
def camReady : State := put camOff [(MER.TBL_VALID, 0, 1), (SLC.MIREBASE_BASE, 4, 4), (SLC.MIRESIZE_SIZE, 4, 128), (MER.RBASE_BASE, 0, 52), (MER.RBASE_BASE, 1, 200), (MER.CAMGEO_SX, 0, 4096), (MER.CAMDLY_LINES, 0, 256), (MER.RBASE_PRLOG, 0, 3)]
def camStarting : State := camera 1
def camStreams : State := setCamera (camera 2) 0 { cameraOf up 0 with sent := [200, 201] }
def camBusy : State := setCamera (put (camera 2) [(MER.CCCTL_BUSY, 0, 1)]) 0 { cameraOf up 0 with cmdFrc := 5 }
def camSends : State := setCamera (put (camera 2) [(MER.CCCTL_BUSY, 0, 1)]) 0 { cameraOf up 0 with cmdFrc := 1249999999 }
def camLines : State := setCamera (camera 2) 0 { cameraOf up 0 with lines := [⟨200, List.replicate 16 0⟩] }
def defects : State := put (pressOf frShots) [(MER.DRHEAD, 0, 5), (MER.DRTAIL, 0, 3)]
def defectsSeen : State := { defects with mere := { defects.mere with lastEvent := some 5 } }
def sectionNotice : Notice := ⟨8, 0, 1, 0, 3, 1, 8, 0, 1, 64⟩
def noticed : State := let s := pressOf frShots; { s with mere := { s.mere with notices := [sectionNotice] } }
def issuedAt (frc : Nat) : State :=
  let s := pressOf frShots
  { s with mere := { s.mere with retries := [⟨sectionNotice, ⟨2 ^ 40, 5, 1, some 2, none, none, 1, [], [], none⟩, 64, 0, frc⟩] } }
def retryDue : State := issuedAt 5
def retryEarly : State := issuedAt 1249999999
def picture : CameraPicture := ⟨16, 2, 1, true, [List.replicate 16 9]⟩
def pics : List CameraPicture := [picture, { picture with width := 8 }, { picture with crcOk := false }]

/-! Mere. -/

theorem wit_Cameras : HostWrites camOff 0 (MER.CAMCFG.off 0) ∧ HostWrites camStreams 0 (MER.CAMCFG.off 0) ∧
    HostWrites camStreams 0 (MER.CCCTL.off 0) ∧ flag camStreams MER.CCCTL_BUSY 0 = false ∧ cameraState camStreams 0 = 2 ∧
    HostWrites camOff 0 (MER.CCCTL.off 0) ∧ flag camOff MER.CCCTL_BUSY 0 = false ∧ cameraState camOff 0 = 0 ∧
    stands camStarting pllPipeline = false ∧ cameraState camStarting 0 = 1 ∧ flag camBusy MER.CCCTL_BUSY 0 = true ∧
    (cameraOf camBusy 0).cmdFrc + 250000000 ≤ camBusy.frc ∧ flag camSends MER.CCCTL_BUSY 0 = true ∧
    camSends.frc < (cameraOf camSends 0).cmdFrc + 250000000 := by
  simp only [HostWrites]; decide +kernel

theorem wit_CameraChecks : (match exec (.cameraEnable 0 1 0) camReady with | .next t => cameraCheck t 0 == 0 | _ => false) = true ∧
    (match exec (.cameraEnable 0 1 0) camOff with | .next t => cameraCheck t 0 == 1 | _ => false) = true := by decide +kernel

theorem wit_CameraLines : stands camStreams pllPipeline = false ∧ cameraState camStreams 0 = 2 ∧ picture.width = camPix camStreams 0 ∧
    picture.format = getF camStreams MER.CAMCFG_FORMAT 0 ∧ picture.height = imageLines camStreams 0 ∧ picture.crcOk = true ∧
    imageLines camStreams 0 ≤ picture.lines.length ∧ (cameraOf camLines 0).lines = [⟨200, List.replicate 16 0⟩] ∧
    (blockOfTrigger camLines 0 200).isSome = true := by decide +kernel

theorem wit_Inspection : stands defects pllPipeline = false ∧ getF defects MER.DRHEAD ≠ getF defects MER.DRTAIL ∧ defects.mere.lastEvent = none ∧
    defectsSeen.mere.lastEvent = some 5 ∧ 5 + 125000 ≤ defectsSeen.frc ∧ getF noticed MER.DRHEAD = getF noticed MER.DRTAIL ∧
    noticed.mere.notices.find? (fun n => n.reed == 8 + 0) = some sectionNotice ∧
    (retryDue.mere.retries.map (fun i => i.frc)) = [5] ∧ 5 + 125000 ≤ retryDue.frc ∧
    (retryEarly.mere.retries.map (fun i => i.frc)) = [1249999999] ∧ retryEarly.frc < 1249999999 + 125000 := by decide +kernel

/-! Time, the network and motion. -/

/-- A unit whose ledgers are settled. -/
def calm : State := put up settled
def workFollow : State := put calm [(TIM.TDSTAT_STATE, 1, 2), (TIM.TDSTAT_STATE, 0, 2)]
def stepArmed : State := put calm [(TIM.TDSTAT_STATE, 1, 1)]
def stepPrints : State := put (pressOf frShots) [(TIM.TDSTAT_STATE, 0, 1)]
def switchedOver : State := put calm [(TIM.WORK_SWITCHING, 0, 1)]
def switchesStill : State := let s := switchedOver; { s with time := { s.time with corr := 2 ^ 60, corrFrc := s.frc } }
def trigOp : Op := { copyOp with sub := 9 }
def trigged (t : PendTrig) : State := let s := withOps calm [trigOp]; { s with time := { s.time with trigs := [(0, [t])] } }
def trigRise : State := trigged ⟨5, 0, 0, 0⟩
def trigPulse : State := trigged ⟨5, 2, 3, 0⟩
def trigToggle : State := trigged ⟨5, 3, 3, 0⟩
def trigLater : State := trigged ⟨2 ^ 60, 0, 0, 0⟩
def pulsing : State :=
  let s := put (withOps calm [trigOp]) [(TIM.TOCFG_LEVEL, 0, 1)]; { s with time := { s.time with pulses := [(0, [⟨5, 0, false⟩])] } }
def periodic : State := put calm [(TIM.TOCFG_MODE, 0, 1), (TIM.TOPER_PERIOD, 0, 1000), (TIM.TOCFG_WIDTH, 0, 10)]
def periodHigh : State :=
  let s := { put periodic [(TIM.TOCFG_LEVEL, 0, 1)] with frc := 1250000250 }; { s with time := { s.time with rose := [(0, (some 1000000000, 1000000000))] } }
def periodRises : State := { periodHigh with frc := 1250000010 }
def stampsOn : State := put calm [(TIM.TINCFG_EDGE, 1, 3)]
def stampsFull : State := setStamps stampsOn 1 (List.replicate 16 (5, true))
def markOf (a b : Nat) : Mark := ⟨0, 4, some a, some b, [0], false⟩
def markUp : State := let s := withOps calm [{ copyOp with sub := 10 }]; { s with time := { s.time with marks := [(1, [markOf 5 10])] } }
def markDown : State := { calm with time := { calm.time with markHigh := [(1, { markOf 5 10 with ops := [] })] } }
def markHolds : State := { calm with time := { calm.time with markHigh := [(1, { markOf 5 (2 ^ 60) with ops := [] })] } }

/-- Port 0 has its link; its receive queues read descriptors in SDRAM, which own their buffers. -/
def netUp : State :=
  put (sdramUp calm) [(ETH.PCFG_EN, 0, 1), (ETH.PSTAT_LINK, 0, 1)]
def netRx : State :=
  putBytes (put netUp [(ETH.QCFG_EN, 2, 1), (ETH.QPTR_TAIL, 2, 1), (ETH.QCFG_EN, 8, 1), (ETH.QPTR_TAIL, 8, 1)])
    0 (toBytes 8 (2 ^ 63 + 64 * 2 ^ 48 + 0x1000))
def ethFrame : List Byte := let b := List.replicate 60 (7 : Byte); b ++ toBytes 4 (crc32 b)
def pressMessage : List Byte := toBytes 2 0x4D51 ++ toBytes 1 1 ++ toBytes 1 3 ++ toBytes 6 0 ++ toBytes 2 8 ++ toBytes 4 0 ++ toBytes 4 0x5A ++ toBytes 4 0
def netBytes : List (List Byte) := [ethFrame, pressMessage, toBytes 2 0x4D51 ++ toBytes 1 1 ++ toBytes 1 4 ++ toBytes 60 0]

/-! Feedback. -/

def encOf (mode st : Nat) : State := put calm [(ENC.CFG_EN, 3, 1), (ENC.CFG_MODE, 3, mode), (ENC.STAT_STATE, 3, st), (ENC.CPR, 3, 4096)]
def encQuad : State := put (encOf 0 1) [(ENC.CFG_IDXMODE, 3, 1)]
def encHall : State := encOf 1 1
def encSerial : State := put (encOf 3 1) [(ENC.SER_MTBITS, 3, 4), (ENC.SER_STBITS, 3, 12)]
def encSsi : State := put (encOf 4 1) [(ENC.SER_MTBITS, 3, 4), (ENC.SER_STBITS, 3, 12)]
def encLost : State := encOf 0 2
def encBad : State := setChannel (encOf 0 2) 3 { channelOf (encOf 0 2) 3 with badFrc := 1249999999 }
def encFast : State := setChannel encQuad 3 { channelOf encQuad 3 with x := 1000, windowEdges := 80, indexed := true }
def encStops : State := setChannel encQuad 3 { channelOf encQuad 3 with edge := some ⟨5, 1, some 1000⟩ }
def encMoves : State := setChannel encQuad 3 { channelOf encQuad 3 with edge := some ⟨1249999990, 1, some 1000⟩ }
def encFrozen : State :=
  setAxis (put encQuad [(ENC.LOSS_FRZTIME, 3, 1), (ENC.LOSS_FRZEFF, 3, 0), (AXS.CFG_EN, 0, 1), (AXS.CFG_FBEN, 0, 1), (AXS.CFG_FBSRC, 0, 3), (AXS.STAT_STATE, 0, 2)]) 0
    { axisOf calm 0 with v := 65536, vmax := 10 }
def ltgReady : State := setP (put calm [(ENC.LTGCFG_SRC, 2, 3)]) ENC.LTGSP 1000 2
def ltgOn : State := put ltgReady [(ENC.LTGCFG_EN, 2, 1)]
def ltgPrints : State := put (pressOf frShots) [(ENC.LTGCFG_SRC, 2, 3), (ENC.LTGCFG_EN, 2, 1), (LDE.PGTIM_LTG, 0, 2)]

/-! Axes and loops. -/

def axisIn (st : Nat) : State := put calm [(AXS.CFG_EN, 1, 1), (AXS.CFG_OUT, 1, 1), (AXS.STAT_STATE, 1, st), (AXS.CFG_WEBSTOP, 1, 1)]
def axisIdle : State := setP (put (axisIn 1) [(AXS.STAT_UNCERTAIN, 1, 1)]) AXS.HOME 500 1
def axisIdleFb : State := put (setChannel axisIdle 3 { channelOf axisIdle 3 with x := 77 }) [(AXS.CFG_FBEN, 1, 1), (AXS.CFG_FBSRC, 1, 3)]
def axisMoving (target : Int) : State :=
  setAxis (withOps (axisIn 2) [{ copyOp with sub := 7 }]) 1
    { axisOf calm 1 with target := target, vmax := 1000, amax := 1000, dmax := 1000, jmax := 1000, op := some 0 }
def axisFar : State := axisMoving (100000 * 65536)
def axisThere : State := axisMoving 0
def axisFault : State := axisIn 3
def coilOn : State := put (axisIn 1) [(AXS.STCUR_IRUN_MAX, 1, 500), (AXS.STSTAT_IRUN, 1, 500), (AXS.STCUR_IHOLD, 1, 300), (AXS.STCHOP_ADAPT, 1, 1)]
def coilFast : State :=
  setAxis (put coilOn [(AXS.STAT_STATE, 1, 2), (AXS.STLOAD_VADAPT, 1, 1)]) 1 { axisOf calm 1 with v := 100000000 }
def tableIn : State := put calm [(AXS.TBLDATA_T, 0, 77)]
def tableUsed : State := put (axisIn 1) [(AXS.STCFG_TBL, 1, 1), (AXS.TBLDATA_T, 0, 77)]
def loopIn (mode : Nat) : State :=
  put calm [(LOP.STAT_MODE, 3, mode), (LOP.OUTMAX, 6, 0x7FFFFFFF), (LOP.SLEW, 6, 100), (LOP.SP, 3, 5000), (LOP.PWMPER_PER, 3, 1000), (LOP.PWMDUTY_HIGH, 3, 300)]
def loopManual : State := loopIn 1
def loopOffState : State := loopIn 0
def loopSynced : State := put (loopIn 1) [(LOP.PERIOD_SYNC, 3, 1)]
def capRuns : State := setCapture (withOps calm [{ copyOp with sub := 11 }]) 1 (some ⟨0, 3, 0, 0, 0, 0, 10, 0, 0, 0, none⟩)
def sensorOn : State := put calm [(SNS.PCFG_EN, 2, 1), (SNS.SCFG_LEN, 8, 15), (SNS.SCFG_RXSHIFT, 8, 2), (SNS.SCFG_RXBITS, 8, 7), (SNS.SGAIN, 8, 65536), (SNS.SOFF, 8, 3)]

/-! Time, the network and motion. -/

theorem wit_TimeDomains : HostWrites calm 0 (TIM.TDCTL_ACQ.off 1) ∧ bit (1 : Reg32).toNat TIM.TDCTL_ACQ.lo = true ∧ stepRefused calm 1 = false ∧
    stepRefused stepPrints 0 = true ∧ HostWrites stepArmed 0 (TIM.STEP.base + 8 * 1 + 4) ∧ getF stepArmed TIM.TDSTAT_STATE 1 = 1 ∧
    stepRefused stepArmed 1 = false ∧ HostWrites stepPrints 0 (TIM.STEP.base + 4) ∧ getF stepPrints TIM.TDSTAT_STATE 0 = 1 ∧
    HostWrites calm 0 (TIM.STEP.base + 4) ∧ getF calm TIM.TDSTAT_STATE 0 ≠ 1 := by
  simp only [HostWrites]; decide +kernel

theorem wit_WorkingTime : HostWrites calm 0 (TIM.RATE.base + 8 * 1 + 4) ∧ HostWrites workFollow 0 TIM.WORK_SEL.base ∧
    bits (1 : Reg32).toNat 0 1 ≠ getF workFollow TIM.WORK_SEL ∧ getF workFollow TIM.TDSTAT_STATE 1 = 2 ∧ getF calm TIM.TDSTAT_STATE 1 ≠ 2 ∧
    stands switchedOver pllTime = false ∧ flag switchedOver TIM.WORK_SWITCHING = true ∧ correctionAt switchedOver switchedOver.frc = 0 ∧
    2 ^ 32 ≤ correctionAt switchesStill switchesStill.frc ∧ HostWrites calm 0 TIM.SNAP_GO.base := by
  simp only [HostWrites]; decide +kernel

theorem wit_TimedPins : stands trigRise pllTime = false ∧ pendTrigs trigRise 0 = [⟨5, 0, 0, 0⟩] ∧ 5 ≤ workNs trigRise ∧
    pendTrigs trigPulse 0 = [⟨5, 2, 3, 0⟩] ∧ pendTrigs trigToggle 0 = [⟨5, 3, 3, 0⟩] ∧ pendTrigs trigLater 0 = [⟨2 ^ 60, 0, 0, 0⟩] ∧
    workNs trigLater < 2 ^ 60 ∧ (pulsesOf pulsing 0).find? (fun p => decide (p.ends ≤ workNs pulsing)) = some ⟨5, 0, false⟩ ∧
    flag periodic TIM.TOCFG_MODE 0 = true ∧ flag calm TIM.TOCFG_MODE 0 = false ∧ mget periodic.time.rose 0 (none, 0) = (none, 0) ∧
    min 0 (workNs periodic - 1) < workNs periodic / (1000 * max 1 (getF periodic TIM.TOPER_PERIOD 0)) * (1000 * max 1 (getF periodic TIM.TOPER_PERIOD 0)) ∧
    mget periodHigh.time.rose 0 (none, 0) = (some 1000000000, 1000000000) ∧
    1000000000 = workNs periodHigh / (1000 * max 1 (getF periodHigh TIM.TOPER_PERIOD 0)) * (1000 * max 1 (getF periodHigh TIM.TOPER_PERIOD 0)) ∧
    1000000000 ≤ min 1000000000 (workNs periodHigh - 1) ∧
    1000000000 + 10 * max 1 (getF periodHigh TIM.TOCFG_WIDTH 0) ≤ workNs periodHigh ∧
    mget periodRises.time.rose 0 (none, 0) = (some 1000000000, 1000000000) ∧ 1000000000 ≤ min 1000000000 (workNs periodRises - 1) ∧
    workNs periodRises < 1000000000 + 10 * max 1 (getF periodRises TIM.TOCFG_WIDTH 0) := by decide +kernel

theorem wit_TimedInputs : HostWrites trigRise 0 (TIM.TOCFG_MODE.off 0) ∧ bankOn stampsOn 1 = true ∧
    flagBit stampsOn TIM.TINCFG_EDGE 0 1 = true ∧ (stampsOf stampsOn 1).length < 16 ∧
    (stampsOf stampsFull 1).length = 16 ∧ HostWrites stampsFull 0 (TIM.TINCFG_POP.off 1) ∧ pendingMarks markUp 1 = [markOf 5 10] ∧
    (markOf 5 10).rise = some 5 ∧ 5 ≤ workNs markUp ∧ (mfind markDown.time.markHigh 1).bind (fun m => m.fall) = some 10 ∧ 10 ≤ workNs markDown ∧
    (mfind markHolds.time.markHigh 1).bind (fun m => m.fall) = some (2 ^ 60) ∧ workNs markHolds < 2 ^ 60 := by
  simp only [HostWrites]; decide +kernel

theorem wit_Network : stands netRx pllControl = false ∧ portUp calm 0 = false ∧ portUp netRx 0 = true ∧ 64 ≤ ethFrame.length ∧
    ethFrame.length ≤ 9216 ∧ crc32 (slice ethFrame 0 (ethFrame.length - 4)) = field ethFrame (ethFrame.length - 4) 4 ∧
    be16 ethFrame (typeAt ethFrame) ≠ 0x8808 ∧ rxQueue netRx ethFrame = 2 ∧ (ethDesc netRx (16 * 0 + 2)).isSome = true ∧
    (ethDesc netUp (16 * 0 + 2)).isNone = true ∧ txQueue netRx 0 = some 8 ∧
    (ethDesc netRx (16 * 0 + 8)).any (fun e => match engineRead e.2 0 0 (bits e.1 0 48) (bits e.1 48 14) .failed with
      | (.bytes bs, _) => bs.length == 64 | _ => false) = true ∧
    field pressMessage 0 2 = 0x4D51 ∧ field pressMessage 2 1 = 1 ∧ field pressMessage 3 1 = 3 ∧ 8 ≤ field pressMessage 10 2 ∧
    24 ≤ pressMessage.length ∧ portUp netUp (getF netUp ETH.PMS_NETPORT) = true ∧ (∀ g < 4, limitOf netUp g = speedLimit netUp g) ∧
    bankOn netUp 1 = true := by decide +kernel

theorem wit_FeedbackChannels : stands encQuad pllMotion = false ∧ LedgersIdle encQuad ∧ flag encQuad ENC.CFG_EN 3 = true ∧ bankOn encQuad 4 = true ∧
    decodeLevels (getF encQuad ENC.CFG_MODE 3) (channelOf encQuad 3).levels 1 = .step 1 ∧
    decodeLevels (getF encQuad ENC.CFG_MODE 3) (channelOf encQuad 3).levels 3 = .bad ∧ flag calm ENC.CFG_EN 3 = false ∧
    flag encSerial ENC.CFG_EN 3 = true ∧ LedgersIdle encSerial ∧ bankOn encSerial 4 = true ∧
    (channelOf encSerial 3).reading = none ∧ getF encSerial ENC.CFG_MODE 3 = 3 ∧ serialBits encSerial 3 = 16 ∧
    crcMsb 6 0x03 0 (msbBits 16 5 ++ [true, true]) ≤ 63 ∧ getF encSsi ENC.CFG_MODE 3 = 4 ∧ isSerial encQuad 3 = false ∧
    getF encQuad ENC.CFG_IDXMODE 3 ≠ 0 ∧ flag encQuad ENC.CFG_ZINV 3 = false ∧ (channelOf encQuad 3).indexed = false ∧
    (channelOf encFast 3).indexed = true ∧ 64 ≤ (channelOf encFast 3).windowEdges ∧ getF encFast ENC.STAT_STATE 3 = 1 := by
  simp only [LedgersIdle]; decide +kernel

theorem wit_ChannelStates : getF encStops ENC.STAT_STATE 3 = 1 ∧ (channelOf encStops 3).edge = some ⟨5, 1, some 1000⟩ ∧
    max (channelOf encStops 3).since 5 + 1250000 * max 1 (getF encStops ENC.SPDCFG_TMO 3) ≤ encStops.frc ∧
    (channelOf encMoves 3).edge = some ⟨1249999990, 1, some 1000⟩ ∧
    encMoves.frc < max (channelOf encMoves 3).since 1249999990 + 1250000 * max 1 (getF encMoves ENC.SPDCFG_TMO 3) ∧
    getF encFrozen ENC.STAT_STATE 3 = 1 ∧ getF encFrozen ENC.LOSS_FRZTIME 3 ≠ 0 ∧ effortHigh encFrozen 3 = true ∧
    max (channelOf encFrozen 3).movedFrc (channelOf encFrozen 3).quietFrc + 1250000 * getF encFrozen ENC.LOSS_FRZTIME 3 ≤ encFrozen.frc ∧
    HostWrites calm 0 (ENC.CFG_EN.off 3) ∧ flag calm ENC.CFG_EN 3 = false ∧ HostWrites encQuad 0 (ENC.CFG_EN.off 3) ∧
    HostWrites encLost 0 (ENC.CTL_CLR.off 3) ∧ 2 ≤ getF encLost ENC.STAT_STATE 3 ∧ (channelOf encLost 3).badFrc + 1250000 ≤ encLost.frc ∧
    readingsOverdue encLost 3 = false ∧ encBad.frc < (channelOf encBad 3).badFrc + 1250000 ∧ HostWrites encBad 0 (ENC.CTL_CLR.off 3) ∧
    HostReads encQuad 0 (ENC.POS.base + 8 * 3) := by
  simp only [HostWrites, HostReads]; decide +kernel

theorem wit_LineGenerators : HostWrites ltgReady 0 (ENC.LTGCFG_EN.off 2) ∧ generatorOn ltgReady 2 = false ∧ lineSpacing ltgReady 2 ≠ 0 ∧
    generatorOn ltgOn 2 = true ∧ (∀ g < 4, getF ltgOn LDE.PGTIM_LTG g = 2 → groupPrinting ltgOn g = false) ∧
    HostWrites ltgPrints 0 (ENC.LTGCFG_EN.off 2) ∧ generatorOn ltgPrints 2 = true ∧ getF ltgPrints LDE.PGTIM_LTG 0 = 2 ∧
    groupPrinting ltgPrints 0 = true ∧ lineSpacing calm 2 = 0 ∧ HostWrites calm 0 (ENC.LTGCFG_EN.off 2) := by
  simp only [HostWrites]; decide +kernel

theorem wit_AxisCommands : stands axisFar pllMotion = false ∧ axisOn calm 1 = false ∧ axisState axisFault 1 = 3 ∧
    flag axisFault AXS.CFG_FBEN 1 = false ∧ axisOn axisFar 1 = true ∧ axisState axisFar 1 = 2 ∧ flag axisFar AXS.CFG_FBEN 1 = false ∧
    (profileSample (axisOf axisFar 1)).2 = false ∧
    axisState axisThere 1 = 2 ∧ (profileSample (axisOf axisThere 1)).2 = true ∧ (axisOf axisThere 1).op = some 0 ∧
    flag axisFar AXS.CFG_WEBSTOP 1 = true ∧ flag axisFar AXS.CFG_WEBSTOP 2 = false ∧ HostWrites axisFar 0 (AXS.CTL_HALT.off 1) := by
  simp only [HostWrites]; decide +kernel

theorem wit_HomePosition : HostWrites axisIdle 0 (AXS.CTL_HALT.off 1) ∧ axisState axisIdle 1 = 1 ∧ flag axisIdleFb AXS.CFG_FBEN 1 = true ∧
    axisState axisIdleFb 1 = 1 ∧ HostWrites axisFault 0 (AXS.CTL_HALT.off 1) ∧ axisState axisFault 1 ≠ 1 := by
  simp only [HostWrites]; decide +kernel

theorem wit_Steppers : stands coilFast pllMotion = false ∧ coilsDriven coilFast 1 = true ∧ bankOn coilFast 5 = true ∧
    coilTarget coilFast 1 false ≠ 0 ∧ coilsDriven coilOn 1 = true ∧ coilTarget coilOn 1 false = 0 ∧
    coilsDriven calm 1 = false ∧ axisOn coilOn 1 = true ∧ isStepper coilOn 1 = true ∧ aboveVadapt coilFast 1 = true ∧
    aboveVadapt coilOn 1 = false ∧ HostWrites tableIn 0 AXS.TBLIDX_ENTRY.base ∧ bits (0x10200 : Reg32).toNat 9 3 = 1 ∧
    tableRefused tableIn 1 0 = false ∧ HostWrites tableUsed 0 AXS.TBLIDX_ENTRY.base ∧ tableRefused tableUsed 1 0 = true := by
  simp only [HostWrites]; decide +kernel

theorem wit_LoopCommands : stands loopManual pllMotion = false ∧ flag loopSynced LOP.PERIOD_SYNC 3 = true ∧
    flag loopManual LOP.PERIOD_SYNC 3 = false ∧ engineMissing loopManual 3 = false ∧ (loopOf loopManual 3).pending = [] ∧
    loopMode loopManual 3 = 1 ∧ driverOf loopManual 1 3 = none ∧ motionUp loopManual = true ∧ bankOn loopManual 6 = true ∧
    HostWrites loopManual 0 (LOP.INJ_GO.off 3) ∧
    flag loopManual LOP.INJ_BUSY 3 = false ∧ loopMode loopOffState 3 = 0 ∧ HostWrites capRuns 0 (LOP.CAPCTL_ABORT.off 1) ∧
    (captureOf capRuns 1).isSome = true := by
  simp only [HostWrites]; decide +kernel

theorem wit_Sensors : stands sensorOn pllMotion = false ∧ flag calm SNS.PCFG_EN 2 = false ∧ flag sensorOn SNS.PCFG_EN 2 = true ∧
    getF sensorOn SNS.PCFG_NSLOT 2 = 0 ∧ bankOn sensorOn 7 = true ∧ flag sensorOn SNS.SCFG_CRCEN (4 * 2) = false ∧
    getF sensorOn SNS.SCHK_MASK (4 * 2) = 0 ∧ flag sensorOn SNS.SCFG_SIGNED (4 * 2) = false ∧ HostWrites sensorOn 0 (SNS.CTL_CLR.off 2) := by
  simp only [HostWrites]; decide +kernel




def asked : State := showPlls { calm with pending := [.spdlimPeriod] }
def pllsOut : State := { calm with power := { calm.power with pllDown := [0, 1, 2, 3, 4, 5, 6] } }

theorem wit_StepRunsFront : asked.pending = [.spdlimPeriod] ∧ calm.pending = [] := by decide +kernel

theorem wit_Invariants : asked.locksShown ∧ FramesKeyed asked ∧ (match step asked with | .next _ => true | _ => false) = true := by
  simp only [State.locksShown, FramesKeyed]; decide +kernel

theorem wit_StandingBlocks : stands pllsOut pllControl = true ∧ stands pllsOut pllPipeline = true ∧ stands pllsOut pllTime = true ∧
    stands pllsOut pllMemory = true ∧ stands pllsOut pllLanes = true ∧ stands pllsOut pllMotion = true ∧ stands pllsOut pllPcie = true := by
  decide +kernel

/-! Ill-formed commands: one for each check of `Instr.wf`, and one well-formed neighbour of each kind. -/

def bigPayload : List Byte := List.replicate 8193 0

theorem test_wf_registers : [Instr.regWrite 0 2 0, .rcRead 0 67108864, .pairHiWrite 1 1048576 0, .pairLoRead 0 5,
    .unsupportedRequest 0 true 0x100 4, .unsupportedRequest 0 true 0x100 0, .unsupportedRequest 1 false 1048576 8].all (fun c => !c.wf) = true ∧
    [Instr.regWrite 0 4 0, .rcRead 1 0xFFFFC, .unsupportedRequest 0 true 0x102 4, .unsupportedRequest 0 true 0x100 8].all (fun c => c.wf) = true := by
  decide +kernel

theorem test_wf_intake : [Instr.pcieReadCompletion 8192 0 .failed, .bloadComplete 8192, .bandRefetchDone 8192 .failed, .bandBlockSwap 8192,
    .cameraImage 0 { picture with height := 0 }, .laneErrsd 0 0, .sensorPeriod 0 [1, 2, 3, 4, 5],
    .thermalSample (List.replicate 23 none)].all (fun c => !c.wf) = true ∧
    [Instr.bloadComplete 8191, .cameraImage 0 picture, .laneErrsd 0 1, .sensorPeriod 0 [1, 2, 3, 4],
    .thermalSample (List.replicate 24 none)].all (fun c => c.wf) = true := by decide +kernel

theorem test_wf_words : [Instr.fence (.thread 0) 0, .waittime (.thread 0) 1 2 3, .waittag (.thread 0) 1 2 3, .reservedOpcode (.thread 0) 0x04000000,
    .reservedOpcode (.thread 0) 0x08000000].all (fun c => !c.wf) = true ∧
    [Instr.fence (.thread 0) 1, .waittime (.thread 0) 1 2 0, .reservedOpcode (.thread 0) 0, .reservedOpcode (.thread 0) 0xFFFFFFFF,
    .reservedOpcode (.thread 0) 0x0400001D, .reservedOpcode (.thread 0) 0x0400081A].all (fun c => c.wf) = true := by decide +kernel

theorem test_wf_link : [Instr.ackReceived 0 0 (2 ^ 32) [], .ackReceived 0 0 0 bigPayload, .nakReceived 0 0 bigPayload,
    .ctrlResponse 0 0 (2 ^ 32) [], .ctrlResponse 0 0 0 bigPayload, .timeResponse 0 0 0 0 0 bigPayload, .syncIdleReceived 0 0 true bigPayload,
    .telemetryReport 0 0 bigPayload, .ctrlTimeout 0 (2 ^ 32)].all (fun c => !c.wf) = true ∧
    [Instr.ackReceived 0 0 7 ackPoint, .nakReceived 0 0 nakPoint, .ctrlTimeout 0 9].all (fun c => c.wf) = true := by decide +kernel

theorem test_wf_twin : [Instr.hello 1 1 2 0 0 0 0 twinSettings false, .hello 1 1 0 2 0 0 0 twinSettings false, .hello 1 1 0 0 3 0 0 twinSettings false,
    .hello 1 1 0 0 0 (2 ^ 32) 0 twinSettings false, .hello 1 1 0 0 0 0 (2 ^ 32) twinSettings false, .hello 1 1 0 0 0 0 0 [] false,
    .hello (2 ^ 32) 1 0 0 0 0 0 twinSettings false, .heartbeat 1 1 0 8, .heartbeat 1 1 (2 ^ 32) 0, .twinTrigReceived 1 1 4 0 0,
    .record 1 1 [], .ringAck 1 1 4 0, .result 1 1 ⟨64, 0, 9, 0⟩ 0 0 0 0, .twinEntry 1 1 64 0 0 0, .twinEntry 1 1 0 0 (2 ^ 32) 0,
    .twinEntry 1 1 0 0 0 (2 ^ 32), .diverge 1 1 7 0, .resetReq 1 1 (2 ^ 32), .twinMessageResend (2 ^ 32), .resync (2 ^ 32) 1 true 0 [],
    .stateCopy 1 (2 ^ 32) (.joinq 0 0), .bootImageRequest (2 ^ 32) 1].all (fun c => !c.wf) = true ∧
    [Instr.hello 1 1 0 0 0 0x12345678 5 twinSettings false, .heartbeat 1 1 5 3, .record 1 1 record1, .diverge 1 1 6 0].all (fun c => c.wf) = true := by
  decide +kernel

theorem test_wf_messages : [Instr.change 1 1 ⟨64, 0, 9, 0⟩ [] 0, .change 1 1 ⟨0, 2 ^ 32, 9, 0⟩ [] 0, .change 1 1 ⟨0, 0, 9, 0⟩ [1] 0,
    .change 1 1 ⟨0, 0, 9, 0⟩ bigPayload 0, .request 1 1 ⟨0, 0, 9, 0⟩ [1], .request 1 1 ⟨64, 0, 9, 0⟩ [], .request 1 1 ⟨0, 2 ^ 32, 9, 0⟩ [],
    .hubpoint 1 1 40 [] [], .hubpoint 1 1 0 (List.replicate 256 ⟨0, false, 5, 4⟩) [], .hubpoint 1 1 0 [] (List.replicate 256 ⟨0, 0, 0, 0, 0⟩),
    .image 1 1 0 bigPayload].all (fun c => !c.wf) = true ∧
    [Instr.change 1 1 ⟨0, 0, 9, 0⟩ [] 0, .request 1 1 ⟨0, 0, 9, 0⟩ [], .hubpoint 1 1 39 [] [], .image 1 1 0 [1]].all (fun c => c.wf) = true := by
  decide +kernel

/-- No row of the opcode table has bits, so no word spells a command. -/
theorem test_no_word_spells_a_command : decodeTableWord 32 0 = none ∧ (State.withFetchWord up 32 0) = up := by decide +kernel

/-! A step of a few commands, with results worked out from the rules. -/

/-- g1 after an instruction of thread 0, with values in g1 and g2. -/
def g1After (c : Instr) (a b : Word) : Option Word :=
  match exec c (setCore (onThread up) 0 { busy 0x7F0002000000 with g := [(1, a), (2, b)] }) with
  | .next t => some (readG t 0 1)
  | _ => none

/-- R190: a count of leading zeros of 0 is 64; ADDS saturates; a rotation goes right. -/
theorem test_arithmetic : g1After (.clz (.thread 0) 1 1) 0 0 = some 64 ∧ g1After (.ctz (.thread 0) 1 1) 8 0 = some 3 ∧
    g1After (.popc (.thread 0) 1 1) 0xF0F0 0 = some 8 ∧ g1After (.adds (.thread 0) 1 1 2) 0x7FFFFFFFFFFFFFFF 1 = some 0x7FFFFFFFFFFFFFFF ∧
    g1After (.mulh (.thread 0) 1 1 2) (-1) 1 = some (-1) ∧ g1After (.mulhu (.thread 0) 1 1 2) (-1) 2 = some 1 ∧
    g1After (.sra (.thread 0) 1 1 2) (-8) 1 = some (-4) ∧ g1After (.slt (.thread 0) 1 1 2) (-1) 0 = some 1 ∧
    g1After (.sltu (.thread 0) 1 1 2) (-1) 0 = some 0 := by decide +kernel

/-- R190: division by 0 gives all ones and the dividend; the quotient of −7 by 2 truncates. -/
theorem test_division : g1After (.div (.thread 0) 1 1 2) 7 0 = some (-1) ∧ g1After (.rem (.thread 0) 1 1 2) 7 0 = some 7 ∧
    g1After (.div (.thread 0) 1 1 2) (-7) 2 = some (-3) ∧ g1After (.rem (.thread 0) 1 1 2) (-7) 2 = some (-1) ∧
    g1After (.divu (.thread 0) 1 1 2) 7 0 = some 0xFFFFFFFFFFFFFFFF := by decide +kernel

/-- The check value of CRC-32C over "123456789", as the catalogues of CRCs give it. -/
theorem test_crc32c : crc32c [0x31, 0x32, 0x33, 0x34, 0x35, 0x36, 0x37, 0x38, 0x39] = 0xE3069283 := by decide +kernel
/-- The same of CRC-64/XZ, whose polynomial and initial value R280 gives. -/
theorem test_crc64 : crc64 [0x31, 0x32, 0x33, 0x34, 0x35, 0x36, 0x37, 0x38, 0x39] = 0x995DC9BBDF1939FA := by decide +kernel

/-- A fixed-Huffman DEFLATE block of one literal, 0x61 ("a"), as RFC 1951 encodes it. -/
theorem test_inflate : (inflate 1 1 none [0x4B, 0x04, 0x00]).out = [0x61] := by decide +kernel

/-! Tables of the spec beside the commands: balls, pads and instruction words. -/

/-- Table: ball counts. -/
theorem test_ball_counts :
    countBalls (fun b => match b with | .signal _ => true | _ => false) = 1156 ∧ countBalls (· == .vss) = 788 ∧ countBalls (· == .reserved) = 8 ∧
    countBalls (· == .supply .vddCore) = 160 ∧ countBalls (· == .supply .vddSram) = 32 ∧ countBalls (· == .supply .vddaLane) = 32 ∧
    countBalls (· == .supply .vddhLane) = 32 ∧ countBalls (· == .supply .vddqMem) = 64 ∧ countBalls (· == .supply .vddIo18) = 12 ∧
    countBalls (· == .supply .vddIo33) = 12 ∧ countBalls (· == .supply .vddPll) = 4 ∧ countBalls (· == .supply .vddMoss) = 4 := by decide +kernel

/-- The examples of chapter 21: H15, FB0, channel M2 and the core. -/
theorem test_balls : ballAt 1 47 = .signal ⟨"TXP", 15, 0⟩ ∧ ballAt 1 48 = .signal ⟨"TXN", 15, 0⟩ ∧ ballAt 3 47 = .signal ⟨"RXP", 15, 0⟩ ∧
    ballAt 3 48 = .signal ⟨"RXN", 15, 0⟩ ∧ ballAt 4 46 = .supply .vddhLane ∧ ballAt 28 3 = .signal ⟨"FB_A", 0, 0⟩ ∧
    ballAt 28 7 = .signal ⟨"FB_SC", 0, 0⟩ ∧ ballAt 33 25 = .signal ⟨"A_DQ", 2, 0⟩ ∧ ballAt 47 32 = .signal ⟨"RESET_N", 2, 0⟩ ∧
    ballAt 33 30 = .supply .vddqMem ∧ ballAt 17 14 = .supply .vddSram ∧ ballAt 18 15 = .supply .vddCore := by decide +kernel

/-- Table: signal groups: the outputs of bank 0 while PORST_N is low, and a bank that is off. -/
theorem test_pads : systemPads inReset = ⟨.low, .high, .released, .low, .highZ, .released, .released, .low, .high, .low, .highZ⟩ ∧
    bankPad up 3 = .block ∧ bankPad (put up [(PIN.BANKCFG_EN, 3, 0)]) 3 = .pullDown ∧ gpioPad up 5 = .highZ ∧
    gpioPad (put up [(PIN.GPIODIR, 0, 32), (PIN.GPIOOUT, 0, 32)]) 5 = .high ∧ memPads inReset = ⟨.low, .highZ, .highZ⟩ := by decide +kernel

def word32 (w : Nat) : Instr := decodeBrofer (.thread 0) 1 .failed (BitVec.ofNat 32 w)

/-- Table: instruction formats: opcode in 31 to 26, d in 25 to 21, a in 20 to 16, then b and fn, or imm16. -/
theorem test_decode_words :
    word32 0b00000100001000100001100000000001 = .sub (.thread 0) 1 2 3 ∧
    word32 0b00000100001000100000000000011010 = .clz (.thread 0) 1 2 ∧
    word32 0b00001000101001101000000000000001 = .addi (.thread 0) 5 6 0x8001 ∧
    word32 0b00100100101001100000000010000111 = .shiRightArith (.thread 0) 5 6 7 ∧
    word32 0b01011000100001010000000000001000 = .ld (.thread 0) 4 5 8 ∧
    word32 0b01101100100001011111111111111000 = .sd (.thread 0) 4 5 0xFFF8 ∧
    word32 0b01110000001000100001100001110001 = .amoAdd (.thread 0) 1 2 3 true true true ∧
    word32 0b10001000001000101111111111111100 = .blt (.thread 0) 1 2 0xFFFC := by decide +kernel

/-- The other formats: jumps, SYS by fn[10:6], and the sub-operations of opcode 0x3F; a word with an unused field that is not 0 is ILLEGAL. -/
theorem test_decode_words2 :
    word32 0b10100000000000000000000000000101 = .j (.thread 0) 5 ∧
    word32 0b10101000001000100000000000000000 = .jalr (.thread 0) 1 2 ∧
    word32 0b11000000001000000000000001000100 = .mfs (.thread 0) 1 4 ∧
    word32 0b11000000000000110000000111000000 = .exit (.thread 0) 3 ∧
    word32 0b11000000000000000000000011000011 = .fence (.thread 0) 3 ∧
    word32 0b11111100001000100001100000000010 = .bload (.thread 0) 1 2 3 .failed ∧
    word32 0b11111100001000100001100000001011 = .axmoveRelative (.thread 0) 1 2 3 .failed ∧
    word32 0b11111100001000100001100000010001 = .reservedOpcode (.thread 0) 0xFC221811 ∧
    word32 0b00000100001000100001100000011010 = .reservedOpcode (.thread 0) 0x0422181A ∧ word32 0 = .reservedOpcode (.thread 0) 0 := by decide +kernel

end Sys2Proof.Tests
end

/-! Shared laws of a host function's register write (R8, R9, R249, R473): which write it is, what it stores and what it sets off. -/

section
namespace Sys2Proof.Machine

/-- The bit of a number that a register write tests is the bit of its word. -/
theorem bit_toNat {w : Nat} (v : BitVec w) (i : Nat) : bit v.toNat i = v.getLsbD i := by
  rw [bit, BitVec.getLsbD, Nat.testBit_eq_decide_div_mod_eq, beq_eq_decide]

/-- Only PCI.QCFG keeps part of its value from a function other than PF0 (R250). -/
theorem viewValue_outside_qcfg (s : State) (f : Nat) {home : Nat} (v : Reg32)
    (h : inRange home PCI.QCFG_FN.base (PCI.QCFG_FN.base + 255) = false) : viewValue s f home v = v := by
  simp [viewValue, h]

/-- A host function's write that reaches a register home outside PF0's MSI-X table is a write of that register. -/
theorem hostRegWrite_of_hostWrites {s : State} {f : Fin 8} {home : Nat} (h : HostWrites s f home) (v : Reg32)
    (hx : msixAt 0 home = none) (hb : home < 0x4000000) :
    hostRegWrite s f home v = regWrite s f home (viewValue s f home v) := by
  obtain ⟨-, hd3, hblind, hreach, -⟩ := h
  unfold hostRegWrite
  by_cases hf : (f : Nat) = 0
  · rw [hf] at hd3 hblind ⊢
    simp [hostWrite32, hd3, hblind, hx, viewHome, hb]
  · simp [hd3, hf, hblind, hreach]

/-- The register that stands at an accessible offset is the one the register tables name. -/
theorem regAt_of_findReg {s : State} {off : Nat} {d : RegDef} (h : (regAt s off).isSome = true) (hd : findReg off = some d) :
    regAt s off = some d := by
  unfold regAt at h ⊢
  rw [hd] at h ⊢
  by_cases hr : (refusedBlock s off || missingReg s d off) = true
  · simp [hr] at h
  · simp [hr]

/-- A write of a register that is no half of a pair, no constant and no debug register stores its fields and sets off its effect. -/
theorem regWrite_whole {s : State} {off : Nat} {d : RegDef} (r : Nat) (v : Reg32) (hd : regAt s off = some d)
    (hw : d.half = .whole) (hc : constantReg off = false) (hg : debugRegister off = false)
    (hp : d.base ≠ PIN.BANKCFG_EN.base) : regWrite s r off v = regHook (storeFields s d off v.toNat) d off v := by
  simp [regWrite, hc, hg, hd, hw, hp]

/-- A register without RWL fields, outside the geometry, only takes the new values of its fields. -/
theorem storeFields_plain (s : State) (d : RegDef) (off v : Nat) (hl : ∀ f ∈ d.fields, f.access ≠ .rwl)
    (hg : isGeoOffset off = false) : storeFields s d off v = regPut s off (BitVec.ofNat 32
      (d.fields.foldl (fieldWrite d (fieldFree s d off v) v (regRaw s off).toNat) (regRaw s off).toNat)) := by
  have hb : rwlBarred d (fieldFree s d off v) (regRaw s off).toNat v = false := by
    simp only [rwlBarred, List.any_eq_false]
    intro f hf
    simp [hl f hf]
  have ho : d.fields.any (fun f => decide (f.access = .rwl)) = false := by
    simp only [List.any_eq_false]
    intro f hf
    simp [hl f hf]
  simp [storeFields, hb, ho, hg]

end Sys2Proof.Machine
end

/-! SLC.MIRECTL: the write of LOCK and UNLOCK (R50, R51). -/

section
namespace Sys2Proof.Machine

/-- The row of SLC.MIRECTL in the register table. -/
def mireCtl : RegDef :=
  ⟨SLC.MIRECTL_LOCK.base, 4, 1, .whole, .none,
    [⟨0, 1, .wo, 0⟩, ⟨1, 1, .wo, 0⟩, ⟨2, 2, .ro, 0⟩, ⟨4, 4, .ro, 0⟩, ⟨8, 4, .ro, 0⟩, ⟨12, 1, .w1c, 0⟩]⟩

theorem findReg_mireCtl : findReg SLC.MIRECTL_LOCK.base = some mireCtl := by decide

/-- What a write of SLC.MIRECTL does to its plain fields: UNLOCK_REF alone is W1C, and the rest is RO or WO (R9). -/
def mireCtlStored (s : State) (v : Nat) : State :=
  setF s SLC.MIRECTL_UNLOCK_REF
    (getF s SLC.MIRECTL_UNLOCK_REF - Nat.land (getF s SLC.MIRECTL_UNLOCK_REF) (bits v 12 1))

theorem storeFields_mireCtl (s : State) (v : Nat) :
    storeFields s mireCtl SLC.MIRECTL_LOCK.base v = mireCtlStored s v := by
  rw [storeFields_plain s mireCtl _ v (by decide) (by decide)]
  rfl

theorem regHook_mireCtl (s : State) (v : Reg32) :
    regHook s mireCtl SLC.MIRECTL_LOCK.base v = mireWrite s (v.getLsbD 0) (v.getLsbD 1) := by
  rw [← bit_toNat, ← bit_toNat]
  rfl

/-- A host function's write that reaches SLC.MIRECTL clears UNLOCK_REF as W1C and then locks or unlocks. -/
theorem hostRegWrite_mireCtl {s : State} {f : Fin 8} (h : HostWrites s f SLC.MIRECTL_LOCK.base) (v : Reg32) :
    hostRegWrite s f SLC.MIRECTL_LOCK.base v = mireWrite (mireCtlStored s v.toNat) (v.getLsbD 0) (v.getLsbD 1) := by
  have hreg : regAt s SLC.MIRECTL_LOCK.base = some mireCtl := by
    obtain ⟨-, -, -, -, hsome⟩ := h
    exact regAt_of_findReg hsome findReg_mireCtl
  rw [hostRegWrite_of_hostWrites h v (by decide) (by decide), viewValue_outside_qcfg s f v (by decide),
    regWrite_whole f v hreg rfl (by decide) (by decide) (by decide), storeFields_mireCtl, regHook_mireCtl]

/-- MIRE_UNLOCK is the write of SLC.MIRECTL, after which CRS.PLLSTAT shows the PLLs that run. -/
theorem exec_mireUnlock {s : State} {f : Fin 8} (h : HostWrites s f SLC.MIRECTL_LOCK.base) (v : Reg32) :
    exec (.mireUnlock f v) s =
      .next (showPlls (mireWrite (mireCtlStored s v.toNat) (v.getLsbD 0) (v.getLsbD 1))) := by
  have hup : stands s pllPcie = false := by
    obtain ⟨hup, -⟩ := h
    exact hup
  show Host.Outcome.next (whenUp pllPcie s (hostRegWrite s f SLC.MIRECTL_LOCK.base v)) = _
  rw [whenUp_up hup, hostRegWrite_mireCtl h]

/-- Nothing uses Mire: no group is enabled, every frame is RELEASED, the band table is empty and no Sluice job runs (R51). -/
theorem mireUnlockOk_iff (s : State) : mireUnlockOk s = true ↔
    (∀ g < 4, flag s LDE.PGCFG_ENABLE g = false) ∧ (∀ e ∈ s.ledger.frames, e.2.released = true) ∧
      s.intake.bands = [] ∧ s.intake.jobs = [] := by
  simp [mireUnlockOk, groupOn, upto, and_assoc]

theorem mireUnlockOk_eq_false_iff (s : State) : mireUnlockOk s = false ↔
    (∃ g < 4, flag s LDE.PGCFG_ENABLE g = true) ∨ (∃ e ∈ s.ledger.frames, e.2.released = false) ∨
      s.intake.bands ≠ [] ∨ s.intake.jobs ≠ [] := by
  rw [← Bool.not_eq_true, mireUnlockOk_iff]
  simp only [not_and_or, not_forall, Bool.not_eq_false, Bool.not_eq_true, exists_prop, ne_eq]

/-- Whether Mire is used does not depend on SLC.MIRECTL. -/
theorem mireUnlockOk_mireCtlStored (s : State) (v : Nat) : mireUnlockOk (mireCtlStored s v) = mireUnlockOk s := by
  have hgroup (g : Nat) : groupOn (mireCtlStored s v) g = groupOn s g := by
    have hfar : SLC.MIRECTL_UNLOCK_REF.off 0 ≠ LDE.PGCFG_ENABLE.off g := by
      simp only [Fld.off, SLC.MIRECTL_UNLOCK_REF, LDE.PGCFG_ENABLE]; omega
    rw [groupOn, groupOn, flag, flag, mireCtlStored, getF_setF_far _ _ _ _ _ _ hfar]
  simp only [mireUnlockOk, hgroup]
  rfl

@[simp] theorem mireCtlStored_intake (s : State) (v : Nat) : (mireCtlStored s v).intake = s.intake := setF_intake _ _ _ _

@[simp] theorem mireState_setF_unlockRef (s : State) (n : Nat) :
    getF (setF s SLC.MIRECTL_UNLOCK_REF n) SLC.MIRECTL_STATE = getF s SLC.MIRECTL_STATE :=
  getF_setF_apart s _ _ n 0 0 rfl (by decide) (by decide)

@[simp] theorem mireState_mireCtlStored (s : State) (v : Nat) :
    getF (mireCtlStored s v) SLC.MIRECTL_STATE = getF s SLC.MIRECTL_STATE :=
  mireState_setF_unlockRef s _

/-- An UNLOCK where nothing uses Mire and no lock check runs makes it UNLOCKED. -/
theorem mireWrite_unlocks {s : State} (hok : mireUnlockOk s = true) (hl : s.intake.locking = false) :
    mireWrite s false true = setF s SLC.MIRECTL_STATE 0 := by
  simp [mireWrite, hok, hl]

/-- An UNLOCK together with LOCK, or where Mire is used, only sets UNLOCK_REF. -/
theorem mireWrite_ignored {s : State} {lock : Bool} (h : lock = true ∨ mireUnlockOk s = false) :
    mireWrite s lock true = setF s SLC.MIRECTL_UNLOCK_REF 1 := by
  cases lock with
  | true => simp [mireWrite]
  | false => simp [mireWrite, h.resolve_left (by decide)]

/-- An UNLOCK, taken or ignored, with LOCK or without, leaves the state of the intake. -/
theorem mireWrite_unlock_intake (s : State) (lock : Bool) : (mireWrite s lock true).intake = s.intake := by
  by_cases h : lock = true ∨ mireUnlockOk s = false
  · rw [mireWrite_ignored h, setF_intake]
  · obtain ⟨hlock, hok⟩ := not_or.mp h
    rw [Bool.not_eq_true] at hlock
    rw [Bool.not_eq_false] at hok
    cases hl : s.intake.locking with
    | false => rw [hlock, mireWrite_unlocks hok hl, setF_intake]
    | true => simp [mireWrite, hlock, hok, hl]

theorem getF_showPlls_mireCtl (s : State) {f : Fld} (h : f.off 0 = SLC.MIRECTL_LOCK.base) :
    getF (showPlls s) f = getF s f :=
  getF_showPlls s f 0 (by rw [h]; decide)

end Sys2Proof.Machine

open Sys2Proof Sys2Proof.Machine

/-- Settles O41: the write reaches SLC.MIRECTL, and R51's condition, which the W1C store before it cannot change, decides
whether STATE becomes UNLOCKED or UNLOCK_REF is set. -/
theorem mireUnlock : Obligations.MireUnlock := by
  intro f v s hw hu
  refine ⟨_, exec_mireUnlock hw v, ?_, ?_, ?_⟩
  · rw [hu, showPlls_intake, mireWrite_unlock_intake, mireCtlStored_intake]
  · intro hlock hchecks hgroups hframes hbands hjobs
    have hok : mireUnlockOk (mireCtlStored s v.toNat) = true := by
      rw [mireUnlockOk_mireCtlStored, mireUnlockOk_iff]
      exact ⟨hgroups, hframes, hbands, hjobs⟩
    rw [← mireCtlStored_intake s v.toNat] at hchecks
    rw [mireLocked, getF_showPlls_mireCtl _ rfl, hlock, hu, mireWrite_unlocks hok hchecks,
      getF_setF_same _ _ _ _ (by decide)]
    rfl
  · intro hused
    have hno : v.getLsbD 0 = true ∨ mireUnlockOk (mireCtlStored s v.toNat) = false := by
      rwa [mireUnlockOk_mireCtlStored, mireUnlockOk_eq_false_iff]
    rw [getF_showPlls_mireCtl _ rfl, getF_showPlls_mireCtl _ rfl, hu, mireWrite_ignored hno]
    constructor
    · rw [getF_setF_same _ _ _ _ (by decide)]
      rfl
    · rw [mireState_setF_unlockRef, mireState_mireCtlStored]

end

/-! Special registers (R185 to R187): MFS and MTS of reserved, RO and W1C ones, and what a fault leaves of a core. -/

section
namespace Sys2Proof.Machine

/-- A core without the marks that a fault and the end of its entry take away: its stall, a step and a held CLEAR. -/
def Core.unmarked (r : Core) : Core := { r with stall := .none, stepping := false, clearHeld := false }

/-- The special registers are none of the marks. -/
theorem special_of_unmarked {r q : Core} (h : r.unmarked = q.unmarked) :
    r.hwin = q.hwin ∧ r.hostfn = q.hostfn ∧ r.evmask = q.evmask ∧ r.timer = q.timer ∧ r.event = q.event := by
  simp only [Core.unmarked, Core.mk.injEq] at h
  simp only [h, and_self]

/-- Every core is as before but for those marks. -/
def SameButMarks (s t : State) : Prop := ∀ j, (coreOf t j).unmarked = (coreOf s j).unmarked

theorem SameButMarks.refl (s : State) : SameButMarks s s := fun _ => rfl

theorem SameButMarks.trans {s t u : State} (h : SameButMarks s t) (g : SameButMarks t u) : SameButMarks s u :=
  fun j => (g j).trans (h j)

theorem SameButMarks.ite {s t u : State} {p : Prop} [Decidable p] (ht : SameButMarks s t) (hu : SameButMarks s u) :
    SameButMarks s (if p then t else u) := by
  split
  · exact ht
  · exact hu

theorem SameButMarks.of_cores {s t : State} (h : t.host.cores = s.host.cores) : SameButMarks s t :=
  fun j => by rw [coreOf, coreOf, h]

theorem sameButMarks_setCore (s : State) (k : Nat) {r : Core} (h : r.unmarked = (coreOf s k).unmarked) :
    SameButMarks s (setCore s k r) := by
  intro j
  by_cases hj : k = j
  · subst hj; rw [coreOf_setCore_same, h]
  · rw [coreOf_setCore_ne s r hj]

theorem sameButMarks_unbindThread (s : State) (t : Nat) : SameButMarks s (unbindThread s t) := by
  intro j
  rw [unbind_core]
  split
  next hj => subst hj; rfl
  next => rfl

theorem sameButMarks_resumeQueue (s : State) (q : Nat) : SameButMarks s (resumeQueue s q) := by
  simp only [resumeQueue]
  exact .trans (.ite (sameButMarks_unbindThread s _) (.refl s)) (.ite (.of_cores rfl) (.refl _))

/-- The end of a faulted entry, with a held CLEAR and a held RESUME, takes away no more than marks. -/
theorem sameButMarks_postFault (s : State) (t : Nat) : SameButMarks s (postFault s t) := by
  simp only [postFault]
  refine .ite ?_ (.refl s)
  split
  next => exact .refl s
  next e _ =>
    refine .ite (.of_cores (completes_holdEnd s _ _ _).cores) ?_
    have hposted := ((completes_postCompletion s (getF s CWY.TSTAT_QUEUE t) e 1 0 (getF s CWY.TSTAT_CODE t)
      (getP s CWY.FAULTPC t)).trans (completes_stopQueue _ (getF s CWY.TSTAT_QUEUE t) 1 e.qseq)).trans
      (completes_finishDisable _ (getF s CWY.TSTAT_QUEUE t))
    have hresumed (u : State) (q : Nat) (v : Queue) : SameButMarks u (resumeQueue (setQueue u q v) q) :=
      (SameButMarks.of_cores (t := setQueue u q v) rfl).trans (sameButMarks_resumeQueue _ q)
    exact .trans (.trans (.of_cores hposted.cores) (.ite (sameButMarks_unbindThread _ t) (.refl _)))
      (.ite (hresumed _ _ _) (.refl _))

theorem sameButMarks_faultHalt (s : State) (k : Nat) : SameButMarks s (faultHalt s k) := by
  unfold faultHalt
  dsimp only
  refine (sameButMarks_setCore s k (r := { coreOf s k with stall := .none, stepping := false }) rfl).trans (.ite ?_ ?_)
  · rw [enterDebug_eq]
    exact .of_cores rfl
  · unfold setCoreState
    exact .ite (.of_cores rfl) (.of_cores rfl)

/-- A fault takes away no more of a core than its marks (R196): its special registers stay. -/
theorem sameButMarks_takeFault (s : State) (c : CoreId) (code pc addr : Nat) :
    SameButMarks s (takeFault s (coreNum c) code pc addr) := by
  cases c with
  | thread t =>
    obtain ⟨u, hu, hfault⟩ := takeFault_thread s t.isLt code pc addr
    rw [coreNum, hfault]
    exact ((sameButMarks_faultHalt s t.val).trans (.of_cores hu.cores)).trans (sameButMarks_postFault u t.val)
  | reed n =>
    obtain ⟨u, hu, hfault⟩ := takeFault_reed s n.val code pc addr
    rw [coreNum, hfault]
    exact (sameButMarks_faultHalt s (16 + n.val)).trans (.of_cores hu.cores)

/-- The core of a register write. -/
theorem coreOf_writeG_same (s : State) (k : Nat) (rd : GReg) (v : Word) :
    coreOf (writeG s k rd v) k = (coreOf s k).write rd v := coreOf_setCore_same s k _

theorem coreOf_writeG_ne (s : State) {j k : Nat} (rd : GReg) (v : Word) (h : k ≠ j) :
    coreOf (writeG s k rd v) j = coreOf s j := coreOf_setCore_ne s _ h

@[simp] theorem Core.write_sat (r : Core) (rd : GReg) (v : Word) : (r.write rd v).sat = r.sat := by
  unfold Core.write; split <;> rfl

@[simp] theorem Core.write_ovf (r : Core) (rd : GReg) (v : Word) : (r.write rd v).ovf = r.ovf := by
  unfold Core.write; split <;> rfl

/-- An instruction whose body writes one general register writes it and falls through. -/
theorem writes_retire_writeG (s : State) (c : CoreId) (rd : GReg) (v : Word) :
    Writes s (showPlls (retire (writeG s (coreNum c) rd v) (coreNum c) (nextPc s c) none)) c rd v :=
  retires_of (by rw [coreOf_writeG_same, ← Core.write_sat _ rd v, ← Core.write_ovf _ rd v])
    (fun _ hi => coreOf_writeG_ne s rd v hi.symm) rfl rfl rfl

/-- MFS writes the special register's value to rd and falls through. -/
theorem exec_mfs {s : State} {c : CoreId} (h : Executes s c) (rd : GReg) (sr : Fin 64) :
    exec (.mfs c rd sr) s = .next (showPlls (retire (writeG s (coreNum c) rd (specialRead s (coreNum c) sr))
      (coreNum c) (nextPc s c) none)) := by
  obtain ⟨hup, -⟩ := id h
  rw [exec, execMfs, whenUp_up hup, runInstr_executes h]

/-- MTS to a special register that takes the write falls through. -/
theorem exec_mts_written {s t : State} {c : CoreId} {ra : GReg} {sr : Fin 64} (h : Executes s c)
    (hw : specialWrite s (coreNum c) sr (readG s (coreNum c) ra) = some t) :
    exec (.mts c ra sr) s = .next (showPlls (retire t (coreNum c) (nextPc s c) none)) := by
  obtain ⟨hup, -⟩ := id h
  rw [exec, execMts, whenUp_up hup, runInstr_executes h, hw]

/-- MTS to a special register that takes no write faults with SPECIAL (R187). -/
theorem exec_mts_refused {s : State} {c : CoreId} {ra : GReg} {sr : Fin 64} (h : Executes s c)
    (hw : specialWrite s (coreNum c) sr (readG s (coreNum c) ra) = none) :
    exec (.mts c ra sr) s = .next (showPlls (takeFault s (coreNum c) 9 (coreOf s (coreNum c)).pc.toNat 0)) := by
  obtain ⟨hup, -⟩ := id h
  rw [exec, execMts, whenUp_up hup, runInstr_executes h, hw]

@[simp] theorem isThread_thread (t : Fin 16) : isThread (coreNum (.thread t)) = true := by simp [isThread, coreNum]

@[simp] theorem isThread_reed (n : Fin 32) : isThread (coreNum (.reed n)) = false := by simp [isThread, coreNum]

/-- A reserved special register reads 0 (R187). -/
theorem specialRead_reserved (s : State) {c : CoreId} {sr : Fin 64} (h : Statement.srReserved c sr = true) :
    specialRead s (coreNum c) sr = 0 := by
  cases c with
  | thread t =>
    have hsr : 16 ≤ sr.val := by simpa [Statement.srReserved] using h
    simp (disch := omega) only [specialRead, isThread_thread, if_true, if_neg]
  | reed n =>
    have hsr : (7 ≤ sr.val ∧ sr.val ≤ 13) ∨ 19 ≤ sr.val := by simpa [Statement.srReserved] using h
    simp (disch := omega) only [specialRead, isThread_reed, Bool.false_eq_true, if_false, if_neg]

/-- A reserved or RO special register takes no write (R187). -/
theorem specialWrite_refused (s : State) {c : CoreId} {sr : Fin 64} (v : Word)
    (h : Statement.srReserved c sr = true ∨ Statement.srReadOnly c sr = true) :
    specialWrite s (coreNum c) sr v = none := by
  cases c with
  | thread t =>
    have hsr : 16 ≤ sr.val ∨ ((sr.val ≠ 0 ∧ sr.val ≠ 3) ∧ sr.val ≤ 15) := by
      simpa [Statement.srReserved, Statement.srReadOnly] using h
    simp (disch := omega) only [specialWrite, isThread_thread, if_true, if_neg]
  | reed n =>
    have hsr : ((7 ≤ sr.val ∧ sr.val ≤ 13) ∨ 19 ≤ sr.val) ∨
        (sr.val = 1 ∨ sr.val = 4 ∨ sr.val = 5 ∨ sr.val = 6 ∨ sr.val = 14 ∨ sr.val = 15) := by
      simpa [Statement.srReserved, Statement.srReadOnly] using h
    simp (disch := omega) only [specialWrite, isThread_reed, Bool.false_eq_true, if_false, if_neg]

/-- A write of EVENT of a Reed core clears each bit written 1 (R187). -/
theorem specialWrite_event (s : State) (n : Fin 32) (v : Word) :
    specialWrite s (coreNum (.reed n)) (16 : Fin 64) v = some (setCore s (coreNum (.reed n))
      { coreOf s (coreNum (.reed n)) with event := (coreOf s (coreNum (.reed n))).event &&& ~~~(v.setWidth 4) }) := by
  simp [specialWrite]

end Sys2Proof.Machine

open Sys2Proof Sys2Proof.Machine

/-- Settles O6: a reserved special register reads 0, a reserved or RO one refuses its write, and a fault takes no more of a
core than its marks, so that the special registers stay. -/
theorem specialRegisterRules : Obligations.SpecialRegisterRules := by
  intro c rd ra sr s hexec
  refine ⟨?_, ?_, ?_⟩
  · intro hreserved
    refine ⟨_, exec_mfs hexec rd sr, ?_⟩
    rw [specialRead_reserved s hreserved]
    exact writes_retire_writeG s c rd 0
  · intro hrefused
    refine ⟨_, exec_mts_refused hexec (specialWrite_refused s _ hrefused), faults_of (by decide) (by decide), ?_⟩
    rw [coreOf_showPlls]
    exact special_of_unmarked (sameButMarks_takeFault s c 9 _ 0 (coreNum c))
  · rintro n rfl rfl
    refine ⟨_, exec_mts_written hexec (specialWrite_event s n _), ?_⟩
    rw [coreOf_showPlls, coreOf_retire, coreOf_setCore_same]

end

/-! AXS.CTL: the write of SETPOS (R392). -/

section
namespace Sys2Proof.Machine

/-! A register that is given the value it holds. -/

@[simp] theorem regRaw_regPut_self (s : State) (o o' : Nat) : regRaw (regPut s o (regRaw s o)) o' = regRaw s o' := by
  by_cases h : o = o'
  · rw [h, regRaw_regPut_same]
  · exact regRaw_regPut_ne s _ h

@[simp] theorem getF_regPut_self (s : State) (o : Nat) (f : Fld) (i : Nat) :
    getF (regPut s o (regRaw s o)) f i = getF s f i := by
  rw [getF, getF, regRaw_regPut_self]

@[simp] theorem getP_regPut_self (s : State) (o : Nat) (p : Pair) (i : Nat) :
    getP (regPut s o (regRaw s o)) p i = getP s p i := by
  rw [getP, getP, regRaw_regPut_self, regRaw_regPut_self]

/-- A WO field keeps nothing of what is written to it (R9). -/
theorem fieldWrite_writeOnly (d : RegDef) (free : FieldDef → Bool) (v old n : Nat) {f : FieldDef} (h : f.access = .wo) :
    fieldWrite d free v old n f = n := by
  simp [fieldWrite, h]

/-- A register whose fields are all WO keeps its value. -/
theorem storeFields_writeOnly (s : State) (d : RegDef) (off v : Nat) (h : ∀ f ∈ d.fields, f.access = .wo)
    (hg : isGeoOffset off = false) : storeFields s d off v = regPut s off (regRaw s off) := by
  have hkeep (free : FieldDef → Bool) (old : Nat) : d.fields.foldl (fieldWrite d free v old) old = old :=
    List.foldlRecOn (motive := fun n => n = old) d.fields _ rfl
      (fun n hn f hf => (fieldWrite_writeOnly d free v old n (h f hf)).trans hn)
  rw [storeFields_plain s d off v (fun f hf => by simp [h f hf]) hg, hkeep, BitVec.ofNat_toNat, BitVec.setWidth_eq]

/-! The register. -/

/-- The row of AXS.CTL in the register table. -/
def axisCtl : RegDef :=
  ⟨AXS.CTL_HALT.base, 4, 16, .whole, .none, [⟨0, 1, .wo, 0⟩, ⟨1, 1, .wo, 0⟩, ⟨2, 1, .wo, 0⟩]⟩

theorem findReg_axisCtl (n : Fin 16) : findReg (AXS.CTL_HALT.off n) = some axisCtl := by
  fin_cases n <;> decide

theorem axisCtl_off_mem (n : Fin 16) : 0x36000C0 ≤ AXS.CTL_HALT.off n ∧ AXS.CTL_HALT.off n < 0x3600100 := by
  simp only [Fld.off, AXS.CTL_HALT]; omega

theorem axisCtl_index (n : Fin 16) : axisCtl.index (AXS.CTL_HALT.off n) = n := by
  simp only [RegDef.index, axisCtl, Fld.off, AXS.CTL_HALT]; omega

/-- AXS.CTL is no register with a rule of its own: it lies outside PF0's MSI-X table, PCI.QCFG, the constant registers, the
debug registers and the geometry. -/
theorem axisCtl_ordinary (n : Fin 16) : msixAt 0 (AXS.CTL_HALT.off n) = none ∧
    inRange (AXS.CTL_HALT.off n) PCI.QCFG_FN.base (PCI.QCFG_FN.base + 255) = false ∧
    constantReg (AXS.CTL_HALT.off n) = false ∧ debugRegister (AXS.CTL_HALT.off n) = false ∧
    isGeoOffset (AXS.CTL_HALT.off n) = false := by
  refine ⟨by revert n; decide, by revert n; decide, by revert n; decide, ?_, by revert n; decide⟩
  simp only [debugRegister, findReg_axisCtl]
  decide

/-- What the write of AXS.CTL sets off for axis `n`: HALT, then SETPOS, then CLR. -/
def axisCtlActs (s : State) (n : Nat) (v : Nat) : State :=
  let halted := if bit v 0 then stopAxis s n 1 else s
  let placed := if bit v 1 then axisSetpos halted n else halted
  if bit v 2 then axisClear placed n else placed

theorem motionHook_axisCtl (s : State) (off : Nat) (v : Reg32) :
    motionHook s axisCtl off v = axisCtlActs s (axisCtl.index off) v.toNat := rfl

theorem regHook_axisCtl (s : State) (n : Fin 16) (v : Reg32) :
    regHook s axisCtl (AXS.CTL_HALT.off n) v = axisCtlActs s n v.toNat := by
  obtain ⟨hlo, -⟩ := axisCtl_off_mem n
  simp (disch := omega) only [regHook, if_neg, motionHook_axisCtl, axisCtl_index]

/-- A value with SETPOS alone neither halts nor clears the axis. -/
theorem axisCtlActs_setpos (s : State) (n : Nat) {v : Nat} (hv : v % 8 = 2) : axisCtlActs s n v = axisSetpos s n := by
  have hhalt : bit v 0 = false := by simp only [bit, beq_eq_false_iff_ne]; omega
  have hset : bit v 1 = true := by simp only [bit, beq_iff_eq]; omega
  have hclr : bit v 2 = false := by simp only [bit, beq_eq_false_iff_ne]; omega
  simp only [axisCtlActs, hhalt, hset, hclr, if_true, Bool.false_eq_true, if_false]

/-- What a write of AXS.CTL stores: WO fields keep nothing, so that the register has its value put back. -/
def axisCtlStored (s : State) (n : Nat) : State := regPut s (AXS.CTL_HALT.off n) (regRaw s (AXS.CTL_HALT.off n))

/-- A host function's write of SETPOS alone that reaches AXS.CTL is the model's SETPOS of that axis. -/
theorem hostRegWrite_axisSetpos {s : State} {f : Fin 8} {n : Fin 16} {v : Reg32}
    (h : HostWrites s f (AXS.CTL_HALT.off n)) (hv : v.toNat % 8 = 2) :
    hostRegWrite s f (AXS.CTL_HALT.off n) v = axisSetpos (axisCtlStored s n) n := by
  have hreg : regAt s (AXS.CTL_HALT.off n) = some axisCtl := by
    obtain ⟨-, -, -, -, hsome⟩ := h
    exact regAt_of_findReg hsome (findReg_axisCtl n)
  obtain ⟨hmsix, hview, hconst, hdebug, hgeo⟩ := axisCtl_ordinary n
  obtain ⟨-, hhi⟩ := axisCtl_off_mem n
  rw [hostRegWrite_of_hostWrites h v hmsix (by omega), viewValue_outside_qcfg s f v hview,
    regWrite_whole f v hreg rfl hconst hdebug (by decide), storeFields_writeOnly s axisCtl _ _ (by decide) hgeo,
    regHook_axisCtl, axisCtlActs_setpos _ _ hv]
  rfl

/-- AXIS_SETPOS is the model's SETPOS, after which CRS.PLLSTAT shows the PLLs that run. -/
theorem exec_axisSetpos {s : State} {f : Fin 8} {n : Fin 16} {v : Reg32}
    (h : HostWrites s f (AXS.CTL_HALT.off n)) (hv : v.toNat % 8 = 2) :
    exec (.axisSetpos f v n) s = .next (showPlls (axisSetpos (axisCtlStored s n) n)) := by
  have hup : stands s pllPcie = false := by
    obtain ⟨hup, -⟩ := h
    exact hup
  show Host.Outcome.next (whenUp pllPcie s (hostRegWrite s f (AXS.CTL_HALT.off n) v)) = _
  rw [whenUp_up hup, hostRegWrite_axisSetpos h hv]

/-! The axis. -/

/-- An axis placed at HOME, with its channel's position as the origin where it has feedback (R392). -/
def axisHomed (s : State) (n : Nat) : Axis :=
  { axisOf s n with
    x := signed (getP s AXS.HOME n) 64 * 65536
    target := signed (getP s AXS.HOME n) 64 * 65536
    origin := if flag s AXS.CFG_FBEN n then (channelOf s (getF s AXS.CFG_FBSRC n)).x else (axisOf s n).origin }

theorem axisSetpos_idle {s : State} {n : Nat} (h : axisState s n = 1) :
    axisSetpos s n = showAxis (setF (setAxis s n (axisHomed s n)) AXS.STAT_UNCERTAIN 0 n) n := by
  simp only [axisSetpos, h, ne_eq, not_true_eq_false, if_false]
  rfl

theorem axisSetpos_ignored {s : State} {n : Nat} (h : axisState s n ≠ 1) :
    axisSetpos s n = setF s AXS.STAT_SETPOS_REF 1 n := by
  rw [axisSetpos, if_pos h]

/-- Where an axis stands once it is placed does not depend on AXS.CTL. -/
@[simp] theorem axisHomed_axisCtlStored (s : State) (n m : Nat) : axisHomed (axisCtlStored s n) m = axisHomed s m := by
  simp only [axisHomed, axisCtlStored, flag, getF_regPut_self, getP_regPut_self]
  rfl

@[simp] theorem axisState_axisCtlStored (s : State) (n m : Nat) : axisState (axisCtlStored s n) m = axisState s m :=
  getF_regPut_self s _ _ _

@[simp] theorem axisOf_setAxis_same (s : State) (n : Nat) (a : Axis) : axisOf (setAxis s n a) n = a :=
  mget_mput_same _ _ _ _

@[simp] theorem axisOf_showAxis (s : State) (n m : Nat) : axisOf (showAxis s n) m = axisOf s m := rfl

@[simp] theorem axisOf_setF (s : State) (f : Fld) (v i m : Nat) : axisOf (setF s f v i) m = axisOf s m := rfl

@[simp] theorem axisOf_showPlls (s : State) (m : Nat) : axisOf (showPlls s) m = axisOf s m := rfl

@[simp] theorem getF_setAxis (s : State) (n : Nat) (a : Axis) (f : Fld) (i : Nat) :
    getF (setAxis s n a) f i = getF s f i := rfl

/-- Showing an axis writes AXS.XCMD, AXS.TGT and AXS.VCMD, which stand above its other status. -/
theorem getF_showAxis (s : State) (n : Nat) (g : Fld) (j : Nat) (h : g.off j < AXS.XCMD.base) :
    getF (showAxis s n) g j = getF s g j := by
  have hx : AXS.XCMD.base = 0x3600280 := rfl
  have htgt : AXS.TGT.base = 0x3600300 := rfl
  have hv : 0x3600280 ≤ AXS.VCMD.off n := by simp only [Fld.off, AXS.VCMD]; omega
  rw [showAxis, setS, getF_setF_far _ _ _ _ _ _ (by omega), getF_setP_far _ _ _ _ _ _ (by omega) (by omega),
    getF_setP_far _ _ _ _ _ _ (by omega) (by omega)]

/-! AXS.STAT is neither CRS.PLLSTAT, which the end of a command writes, nor among the registers that show an axis. -/

theorem getF_stat_showPlls (s : State) (n : Fin 16) {g : Fld} (hb : g.base = 0x3600080) (hs : g.stride = 4) :
    getF (showPlls s) g n = getF s g n :=
  getF_showPlls s g n (by simp only [Fld.off, hb, hs]; omega)

theorem getF_stat_showAxis (s : State) (n : Fin 16) {g : Fld} (hb : g.base = 0x3600080) (hs : g.stride = 4) :
    getF (showAxis s n) g n = getF s g n :=
  getF_showAxis s n g n (by simp only [Fld.off, hb, hs, AXS.XCMD]; omega)

/-- SETPOS of an IDLE axis clears UNCERTAIN and leaves it IDLE. -/
theorem stat_axisSetpos_idle {s : State} {n : Fin 16} (h : axisState s n = 1) :
    flag (axisSetpos s n) AXS.STAT_UNCERTAIN n = false ∧ axisState (axisSetpos s n) n = 1 := by
  rw [axisSetpos_idle h, flag, axisState, getF_stat_showAxis _ n rfl rfl, getF_stat_showAxis _ n rfl rfl,
    getF_setF_same _ _ _ _ (by decide), getF_setF_apart _ AXS.STAT_UNCERTAIN AXS.STAT_STATE _ _ _ rfl (by decide) (by decide), getF_setAxis]
  exact ⟨rfl, h⟩

theorem axisOf_axisSetpos_idle {s : State} {n : Nat} (h : axisState s n = 1) :
    axisOf (axisSetpos s n) n = axisHomed s n := by
  rw [axisSetpos_idle h, axisOf_showAxis, axisOf_setF, axisOf_setAxis_same]

end Sys2Proof.Machine

open Sys2Proof Sys2Proof.Machine

/-- Settles O54: the write of AXS.CTL stores nothing, and the axis's state decides whether SETPOS places it at HOME or only
sets SETPOS_REF. -/
theorem homePosition : Obligations.HomePosition := by
  intro f v n s hw hv
  refine ⟨_, exec_axisSetpos hw hv, ?_, ?_⟩
  · intro hidle
    rw [← axisState_axisCtlStored s n] at hidle
    obtain ⟨hcertain, hstate⟩ := stat_axisSetpos_idle hidle
    rw [axisOf_showPlls, axisOf_axisSetpos_idle hidle, axisHomed_axisCtlStored, flag, axisState,
      getF_stat_showPlls _ n rfl rfl, getF_stat_showPlls _ n rfl rfl]
    exact ⟨rfl, hcertain, rfl, hstate⟩
  · intro hbusy
    rw [← axisState_axisCtlStored s n] at hbusy
    rw [axisSetpos_ignored hbusy, getF_stat_showPlls _ n rfl rfl, getF_stat_showPlls _ n rfl rfl,
      getF_setF_same _ _ _ _ (by decide), getF_setF_apart _ AXS.STAT_SETPOS_REF AXS.STAT_UNCERTAIN _ _ _ rfl (by decide) (by decide)]
    exact ⟨rfl, rfl, getF_regPut_self s _ _ _⟩

end
